-- ==== Sys2Proof/Word.lean ====
section
/-! DEFINITION. The word types of the LZ7160 (00 R5, R6) and the one container of the model: a sparse map from natural
numbers, kept as a list of pairs in ONE canonical form. Memory, register files and tables are all such maps. -/

namespace Sys2Proof

/-- A scalar register's value (02 R46). -/
abbrev Word := BitVec 64
/-- A byte of any memory. -/
abbrev Byte := BitVec 8
/-- Bytes in ascending address order. -/
abbrev Bytes := List (BitVec 8)

/-- A map from natural numbers; a key that is not listed holds a default that every access names. -/
abbrev Sparse (α : Type) := List (Nat × α)

namespace Sparse

variable {α : Type}

/-- The value at key `i`, or the default `d` when `i` is not listed. -/
def get (d : α) : Sparse α → Nat → α
  | [], _ => d
  | (k, v) :: m, i => if k = i then v else get d m i

/-- `m` without key `i`. -/
def erase : Sparse α → Nat → Sparse α
  | [], _ => []
  | (k, v) :: m, i => if k = i then erase m i else (k, v) :: erase m i

/-- Put a pair in front of the first larger key. -/
def insert (i : Nat) (v : α) : Sparse α → Sparse α
  | [] => [(i, v)]
  | (k, w) :: m => if i < k then (i, v) :: (k, w) :: m else (k, w) :: insert i v m

variable [DecidableEq α]

/-- Set key `i` to `v`; setting a key to the default removes its entry. -/
def set (d : α) (m : Sparse α) (i : Nat) (v : α) : Sparse α :=
  if v = d then erase m i else insert i v (erase m i)

/-- The canonical form: keys strictly rising, and no entry that equals the default. -/
def wf (d : α) : Sparse α → Bool
  | [] => true
  | (k, v) :: m => decide (v ≠ d) && (m.all fun p => decide (k < p.1)) && wf d m

end Sparse

/-- Set several consecutive keys, the first at `a`. -/
def Sparse.setMany {α : Type} [DecidableEq α] (d : α) (m : Sparse α) (a : Nat) : List α → Sparse α
  | [] => m
  | v :: vs => Sparse.setMany d (Sparse.set d m a v) (a + 1) vs

/-- `n` consecutive keys from `a` up. -/
def Sparse.getMany {α : Type} (d : α) (m : Sparse α) (a : Nat) : Nat → List α
  | 0 => []
  | n + 1 => Sparse.get d m a :: Sparse.getMany d m (a + 1) n

/-- Trap causes, named as the spec names them (05 R182, 17 R455). -/
inductive Cause where
  | illegalOpcode | reservedField | reservedKind | headerFlags | extDangling | extKind | extMisuse | reservedSource
  | reservedDestination | latchEmpty | immediateRange | branchTarget | privilegedInstruction | csrAccess | csrReserved
  | csrValue | unassignedRegister | reservedScratchpad | softwareTrap | scanMask | scanRunning | dispatchCore
  | eretState | shapeFormat | shapeRequest | staleGrant | checkedGrant | seqCount | seqStrideWrite | seqBody | seqOvw
  | footprintFormat | footprintAlign | footprintPlacement | regionRange | ovwReadConflict | ovwStore | rawOperand
  | reservedFormat | mixedFormat | unsupportedFormat | nanScale | arrayScale | roundingMode | transcendentalMode
  | outlierPosition | ternaryCode | scaleRange | notMapped | noWrite | noFetch | addressRange | misaligned
  | scratchpadRange | hostWindow | peerWindow | gatherRange | atomicScope | uncorrectableStore | poisonConsumed
  | accumulatorUncorrectable | sramUncorrectable | skipRange | invalidHandle | handleField | handleFormat
  | maskOverflow | maskUnderflow | queueBound | unboundSlot | tileForm | tileShape | tileRange | tileOverlap
  | spadAlign | boxAlign | bufferShape | bufferBusy | bufferRelease | bindRegion | bindFull | leaseMask | quadrantFused
  | leaseHeld | noLease | parkFull | parkState | pushOverflow | pushUnderflow | collectiveGang | collectiveMismatch
  | frameMissing | frameBounds | framePlacement | windowOverflow | returnUnderflow | returnOverflow | keyHandle
  | protectedStore | sealTag | roster
  deriving DecidableEq, Repr

/-- The cause's code (05 R182, 17 R455). -/
def Cause.code : Cause → Nat
  | .illegalOpcode => 0x001
  | .reservedField => 0x002
  | .reservedKind => 0x003
  | .headerFlags => 0x004
  | .extDangling => 0x005
  | .extKind => 0x006
  | .extMisuse => 0x007
  | .reservedSource => 0x008
  | .reservedDestination => 0x009
  | .latchEmpty => 0x00A
  | .immediateRange => 0x00B
  | .branchTarget => 0x00C
  | .privilegedInstruction => 0x081
  | .csrAccess => 0x082
  | .csrReserved => 0x083
  | .csrValue => 0x084
  | .unassignedRegister => 0x085
  | .reservedScratchpad => 0x086
  | .softwareTrap => 0x087
  | .scanMask => 0x088
  | .scanRunning => 0x089
  | .dispatchCore => 0x08A
  | .eretState => 0x08B
  | .shapeFormat => 0x101
  | .shapeRequest => 0x102
  | .staleGrant => 0x103
  | .checkedGrant => 0x104
  | .seqCount => 0x105
  | .seqStrideWrite => 0x106
  | .seqBody => 0x107
  | .seqOvw => 0x108
  | .footprintFormat => 0x109
  | .footprintAlign => 0x10A
  | .footprintPlacement => 0x10B
  | .regionRange => 0x10C
  | .ovwReadConflict => 0x10D
  | .ovwStore => 0x10E
  | .rawOperand => 0x181
  | .reservedFormat => 0x182
  | .mixedFormat => 0x183
  | .unsupportedFormat => 0x184
  | .nanScale => 0x185
  | .arrayScale => 0x186
  | .roundingMode => 0x187
  | .transcendentalMode => 0x188
  | .outlierPosition => 0x189
  | .ternaryCode => 0x18A
  | .scaleRange => 0x18B
  | .notMapped => 0x201
  | .noWrite => 0x202
  | .noFetch => 0x203
  | .addressRange => 0x204
  | .misaligned => 0x205
  | .scratchpadRange => 0x206
  | .hostWindow => 0x207
  | .peerWindow => 0x208
  | .gatherRange => 0x209
  | .atomicScope => 0x281
  | .uncorrectableStore => 0x282
  | .poisonConsumed => 0x283
  | .accumulatorUncorrectable => 0x284
  | .sramUncorrectable => 0x285
  | .skipRange => 0x301
  | .invalidHandle => 0x302
  | .handleField => 0x303
  | .handleFormat => 0x304
  | .maskOverflow => 0x305
  | .maskUnderflow => 0x306
  | .queueBound => 0x307
  | .unboundSlot => 0x308
  | .tileForm => 0x309
  | .tileShape => 0x30A
  | .tileRange => 0x30B
  | .tileOverlap => 0x30C
  | .spadAlign => 0x30D
  | .boxAlign => 0x30E
  | .bufferShape => 0x30F
  | .bufferBusy => 0x310
  | .bufferRelease => 0x311
  | .bindRegion => 0x312
  | .bindFull => 0x313
  | .leaseMask => 0x314
  | .quadrantFused => 0x315
  | .leaseHeld => 0x316
  | .noLease => 0x317
  | .parkFull => 0x318
  | .parkState => 0x319
  | .pushOverflow => 0x31A
  | .pushUnderflow => 0x31B
  | .collectiveGang => 0x31C
  | .collectiveMismatch => 0x31D
  | .frameMissing => 0x381
  | .frameBounds => 0x382
  | .framePlacement => 0x383
  | .windowOverflow => 0x384
  | .returnUnderflow => 0x385
  | .returnOverflow => 0x386
  | .keyHandle => 0x387
  | .protectedStore => 0x388
  | .sealTag => 0x389
  | .roster => 0x38A

/-- The key under which bytes stand in memory (10 R352): an installed key is its 32 bytes as a number (19 R484), the all-zero
key is the null key (09 R345); what a device reset has made unreadable stands under a key that nothing names (log 37). -/
inductive KeyId where
  | default
  | firmware
  | null
  | cache
  | installed (n : Nat)
  | lost (n : Nat)
  deriving DecidableEq, Repr

/-- The key of 32 bytes, given as a number. -/
def KeyId.ofNat (n : Nat) : KeyId := if n = 0 then .null else .installed n

end Sys2Proof
end

