-- ==== Sys2Proof/Config.lean ====
section
/-! DEFINITION. The free values: results that the spec leaves open, as opaque functions of what they depend on. Nothing
evaluates them, so a statement about one holds for every value. Entries of the log name them. -/

namespace Sys2Proof

/-- A 16-byte block of AES-XTS stored under one key and read under another: the decryption under the reading key (10 R352), unknown.
The arguments are the two keys, the number of the block, its bytes as written and the place of the byte that is read. -/
opaque Config.rekey : KeyId → KeyId → Nat → Bytes → Nat → Byte

/-- Which result of a transcendental it is, among those that the error bounds of 03 R120 and R121 leave open: operation,
format code, rm and operand pattern to a number that picks one. -/
opaque Config.transcendental : Nat → Nat → Nat → Nat → Nat

/-- The exponent field in the FP64-shaped view of a finite product of 2^1024 or more (12 R376), whose biased exponent does not fit the
field. The argument is the exponent of its leading bit. -/
opaque Config.wideExp : Int → Nat

/-- What a cell holds of an A element that is no integer (08 R283, which gives the layout of integers alone): format code, scale byte,
pattern. -/
opaque Config.cellA : Nat → Nat → Nat → BitVec 64

/-- Whether a core (its number) or a quadrant (512 + 4 × lantern + quadrant) passes its test in the start-up pass of the rotation (20
R519), by start. -/
opaque Config.startTest : Nat → Nat → Bool

/-- EXP in the side entry of an infinity or a NaN (08 R279, which gives it for numbers alone): format code, scale byte, whether it is a NaN,
sign. -/
opaque Config.specExp : Nat → Nat → Bool → Bool → Nat

/-- The magnitude that marks a NaN in planes, any but zero (08 R279): format code, scale byte, sign. -/
opaque Config.nanMag : Nat → Nat → Bool → Nat

/-- What CAPCLS reads on a lamplighter, which has no vector unit and no lantern (01 R14, R25): the core's number. -/
opaque Config.lampClass : Nat → Nat

/-- Bits 127 to 64 of the significand of the product register of a floating cell (08 R284): the place of the product in the register is
not in the spec. The argument is the exact significand formed so far. -/
opaque Config.pregHigh : Nat → BitVec 64

/-- The sign that VTADD takes for a lane beyond those of its sign operand (07 R261): the operand's format code and bytes, the lane. -/
opaque Config.signLane : Nat → Bytes → Nat → Byte

/-- A byte whose value the spec leaves unspecified, fresh for each number. -/
opaque Config.freeByte : Nat → Byte

/-- The keystream of AES-256-GCM (09 R344, 13 R400, 19 R493): key, IV, place of the byte. -/
opaque Config.gcmPad : KeyId → Nat → Nat → Byte

/-- The tag of AES-256-GCM: key, IV, additional data, ciphertext, byte of the tag. -/
opaque Config.gcmTag : KeyId → Nat → Bytes → Bytes → Nat → Byte

/-- Byte `i` of a segment in ember image `id`, for the segments whose layout is no part of the architecture (17 R467): the image, the
segment's bit of the mask, the byte. -/
opaque Config.segByte : Nat → Nat → Nat → Byte

/-- RSA-4096-OAEP decryption with the device's key: label and ciphertext (19 R484). -/
opaque Config.oaep : Bytes → Bytes → Option Bytes

/-- Whether an RSASSA-PSS signature verifies: modulus or key name, message, signature (19 R495). -/
opaque Config.pssOk : Bytes → Bytes → Bytes → Bool

/-- The RSASSA-PSS signature that the device's identity key makes, with the report counter as its salt source (19 R495). -/
opaque Config.pssSign : Nat → Bytes → Bytes

/-- SHA-512. -/
opaque Config.sha512 : Bytes → Bytes

/-- The modulus of the RSA-4096 identity key that the security controller holds (19 R495), 512 bytes. -/
opaque Config.modulus : Bytes

/-- DEVID, the SHA-512 of the identity key's public modulus (16 R426, 19 R495). -/
def Config.devid : Bytes := Config.sha512 Config.modulus

/-- The serial number of the identity record (16 R426), 16 bytes. -/
opaque Config.serial : Bytes

/-- Whether memory training fails at power-on (20 R518). -/
opaque Config.trainingFails : Bool

/-- Whether a length written to the kindling ROM is one that it takes (20 R518): the spec does not say which are bad. -/
opaque Config.bootLengthOk : Nat → Bool

/-- Whether a firmware image's RSASSA-PSS signature verifies under the Talvia firmware key (19 R495, 20 R518): where the signature
stands in the image is not in the spec. -/
opaque Config.firmwareOk : Bytes → Bool

/-- The address of the resident dispatch program's first line (01 R14): it is the firmware's. -/
opaque Config.dispatchEntry : Nat

/-- The modulus of Talvia's debug key (19 R497). -/
opaque Config.debugKey : Bytes

/-- Which socket with room a frame of a die going offline moves to, as an index modulo their number (20 R505). -/
opaque Config.evacuate : Nat → Nat

/-- The partial results that the other devices of a collective contribute (16 R450): COLLID, SEQ, device number, element
index to a pattern. -/
opaque Config.peerPartial : Nat → Nat → Nat → Nat → Nat

/-- What the lanes of another device of a collective name (16 R451): COLLID, SEQ, device number to NDEV, op, rm, n and format. -/
opaque Config.peerOffer : Nat → Nat → Nat → Nat × Nat × Nat × Nat × Nat

/-- Which fabric die the routing table gives for a peer address (06 R229): the table is not in the spec. -/
opaque Config.peerDie : Nat → Nat

/-- The DEVID of the device that a peer address reaches (09 R346): the routing table is not in the spec. -/
opaque Config.peerDevid : Nat → Bytes

/-- Whether group `g` of a transfer over the fabric, fresh for each number, verifies at its receiver (19 R493). -/
opaque Config.fabricOk : Nat → Nat → Bool

end Sys2Proof
end

