-- ==== Sys2Proof/Syntax.lean ====
section
/-! DEFINITION. The abstract syntax: one constructor for each row of spec/opcode_table.json. A lane's constructor carries
the fields of its encoding, with the operands that its EXT lanes supply (05 R157-R161); the row's engine is the engine of
the lane (05 R180). The rows without an encoding are steps that other agents of the device take (spec/95): their
constructors carry what the outside world chooses. -/

namespace Sys2Proof

/-- The five engines of a core, in the order of 06 R212. -/
inductive Engine where
  | c | a | v | m | x
  deriving DecidableEq, Repr

/-- The conditions of CMP and BC (05 R174). -/
inductive Cond where
  | eq | ne | lt | ge | ltu | geu
  deriving DecidableEq, Repr

/-- The scopes of 04 R131, narrow to wide (10 R355). -/
inductive Scope where
  | core | ltn | die | dev | sys
  deriving DecidableEq, Repr

/-- An immediate field of `w` bits, and the HIGH field that an EXT lane of kind 0b0000 puts above it (05 R159). -/
structure Imm (w : Nat) where
  high : Option (BitVec 28)
  low  : BitVec w
  deriving DecidableEq, Repr

/-- A control destination (05 R166). -/
abbrev CReg := BitVec 5
/-- A control source: x0-x31, then latches b0-b3 as 32-35 (05 R163). -/
abbrev CSrc := BitVec 6
/-- An access register a0-a31. -/
abbrev AReg := BitVec 5
/-- An access source: a0-a31, then latches as 32-35 (05 R163). -/
abbrev ASrc := BitVec 6
/-- A vector source: v0-v63, latches 64-67, load queues 68-71 (05 R164). -/
abbrev VSrc := BitVec 7
/-- A vector destination: v0-v63, 64 the latches only, 65-68 store queues q4-q7 (05 R167). -/
abbrev VDst := BitVec 7
/-- A queue q0-q7. -/
abbrev QReg := BitVec 3
/-- A tile slot ts0-ts15. -/
abbrev TsReg := BitVec 4
/-- A circular buffer cb0-cb7. -/
abbrev CbReg := BitVec 3
/-- A shape register sh0-sh7. -/
abbrev ShReg := BitVec 3
/-- A tensor handle th0-th15. -/
abbrev ThReg := BitVec 4
/-- A counting flag f0-f31. -/
abbrev FReg := BitVec 5
/-- A token k0-k7. -/
abbrev KReg := BitVec 3
/-- The optional token of a command (05 R179). -/
abbrev Tok := Option (BitVec 3)
/-- The optional flag of a copy command (05 R179). -/
abbrev Fl := Option (BitVec 5)

/-- The instructions and steps of the LZ7160. -/
inductive Instr where
  /-- NOP (R180). No operation in any engine; an attached EXT lane of kind 0b0001 may hold it on tokens. -/
  | nop (e : Engine)
  /-- END (R214). Last lane of its engine; in the control engine it acts as EXIT. -/
  | endE (e : Engine)
  /-- FINC (R209). Adds n to a counting flag atomically, saturating and setting STATUS.FSAT. -/
  | finc (e : Engine) (f : FReg) (n : Imm 18)
  /-- FWAIT (R211). Holds its engine until the flag reaches n, optionally subtracting n in the same atomic step. -/
  | fwait (e : Engine) (f : FReg) (sub : Bool) (n : Imm 18)
  /-- FWAIT_COMPLETE (R212). A waiting FWAIT whose condition a flag change made true completes in its own atomic step, in engine order C, A, V, M, X. -/
  | fwaitComplete (core : Nat)
  /-- FSET (R210). Sets a counting flag to n atomically. -/
  | fset (e : Engine) (f : FReg) (n : Imm 18)
  /-- KWAIT (R213). Holds its engine until the named token stands at or below n. -/
  | kwait (e : Engine) (k : KReg) (n : Imm 6)
  /-- ADD (R190). Register form: rd := (s1 + s2) mod 2^64. -/
  | add (rd : CReg) (s1 : CSrc) (s2 : CSrc)
  /-- ADD_IMM (R190). Immediate form: rd := (s1 + imm) mod 2^64. -/
  | addImm (rd : CReg) (s1 : CSrc) (imm : Imm 12)
  /-- SUB (R190). Register form: rd := (s1 - s2) mod 2^64. -/
  | sub (rd : CReg) (s1 : CSrc) (s2 : CSrc)
  /-- SUB_IMM (R190). Immediate form: rd := (s1 - imm) mod 2^64. -/
  | subImm (rd : CReg) (s1 : CSrc) (imm : Imm 12)
  /-- MUL (R190). Register form: low 64 bits of the product. -/
  | mul (rd : CReg) (s1 : CSrc) (s2 : CSrc)
  /-- MUL_IMM (R190). Immediate form: low 64 bits of the product. -/
  | mulImm (rd : CReg) (s1 : CSrc) (imm : Imm 12)
  /-- MULHU (R190). Register form: high 64 bits of the unsigned product. -/
  | mulhu (rd : CReg) (s1 : CSrc) (s2 : CSrc)
  /-- MULHU_IMM (R190). Immediate form: high 64 bits of the unsigned product. -/
  | mulhuImm (rd : CReg) (s1 : CSrc) (imm : Imm 12)
  /-- MULHS (R190). Register form: high 64 bits of the signed product. -/
  | mulhs (rd : CReg) (s1 : CSrc) (s2 : CSrc)
  /-- MULHS_IMM (R190). Immediate form: high 64 bits of the signed product. -/
  | mulhsImm (rd : CReg) (s1 : CSrc) (imm : Imm 12)
  /-- DIVU (R190). Register form: unsigned quotient, all ones on division by zero. -/
  | divu (rd : CReg) (s1 : CSrc) (s2 : CSrc)
  /-- DIVU_IMM (R190). Immediate form: unsigned quotient, all ones on division by zero. -/
  | divuImm (rd : CReg) (s1 : CSrc) (imm : Imm 12)
  /-- DIVS (R190). Register form: signed quotient truncated toward zero, with fixed results on zero and overflow. -/
  | divs (rd : CReg) (s1 : CSrc) (s2 : CSrc)
  /-- DIVS_IMM (R190). Immediate form: signed quotient truncated toward zero. -/
  | divsImm (rd : CReg) (s1 : CSrc) (imm : Imm 12)
  /-- REMU (R190). Register form: unsigned remainder, s1 on division by zero. -/
  | remu (rd : CReg) (s1 : CSrc) (s2 : CSrc)
  /-- REMU_IMM (R190). Immediate form: unsigned remainder. -/
  | remuImm (rd : CReg) (s1 : CSrc) (imm : Imm 12)
  /-- REMS (R190). Register form: signed remainder with the sign of s1. -/
  | rems (rd : CReg) (s1 : CSrc) (s2 : CSrc)
  /-- REMS_IMM (R190). Immediate form: signed remainder with the sign of s1. -/
  | remsImm (rd : CReg) (s1 : CSrc) (imm : Imm 12)
  /-- AND (R190). Register form: bitwise AND. -/
  | and (rd : CReg) (s1 : CSrc) (s2 : CSrc)
  /-- AND_IMM (R190). Immediate form: bitwise AND. -/
  | andImm (rd : CReg) (s1 : CSrc) (imm : Imm 12)
  /-- OR (R190). Register form: bitwise OR. -/
  | or (rd : CReg) (s1 : CSrc) (s2 : CSrc)
  /-- OR_IMM (R190). Immediate form: bitwise OR. -/
  | orImm (rd : CReg) (s1 : CSrc) (imm : Imm 12)
  /-- XOR (R190). Register form: bitwise XOR. -/
  | xor (rd : CReg) (s1 : CSrc) (s2 : CSrc)
  /-- XOR_IMM (R190). Immediate form: bitwise XOR. -/
  | xorImm (rd : CReg) (s1 : CSrc) (imm : Imm 12)
  /-- ANDN (R190). Register form: s1 AND NOT s2. -/
  | andn (rd : CReg) (s1 : CSrc) (s2 : CSrc)
  /-- ANDN_IMM (R190). Immediate form: s1 AND NOT imm. -/
  | andnImm (rd : CReg) (s1 : CSrc) (imm : Imm 12)
  /-- SHL (R190). Register form: shift left by s2[5:0]. -/
  | shl (rd : CReg) (s1 : CSrc) (s2 : CSrc)
  /-- SHL_IMM (R190). Immediate form: shift left by 0 to 63. -/
  | shlImm (rd : CReg) (s1 : CSrc) (imm : Imm 12)
  /-- SHR (R190). Register form: logical shift right. -/
  | shr (rd : CReg) (s1 : CSrc) (s2 : CSrc)
  /-- SHR_IMM (R190). Immediate form: logical shift right. -/
  | shrImm (rd : CReg) (s1 : CSrc) (imm : Imm 12)
  /-- SAR (R190). Register form: arithmetic shift right. -/
  | sar (rd : CReg) (s1 : CSrc) (s2 : CSrc)
  /-- SAR_IMM (R190). Immediate form: arithmetic shift right. -/
  | sarImm (rd : CReg) (s1 : CSrc) (imm : Imm 12)
  /-- ROTL (R190). Register form: 64-bit rotate left. -/
  | rotl (rd : CReg) (s1 : CSrc) (s2 : CSrc)
  /-- ROTL_IMM (R190). Immediate form: 64-bit rotate left. -/
  | rotlImm (rd : CReg) (s1 : CSrc) (imm : Imm 12)
  /-- MIN (R190). Register form: signed minimum. -/
  | min (rd : CReg) (s1 : CSrc) (s2 : CSrc)
  /-- MIN_IMM (R190). Immediate form: signed minimum. -/
  | minImm (rd : CReg) (s1 : CSrc) (imm : Imm 12)
  /-- MAX (R190). Register form: signed maximum. -/
  | max (rd : CReg) (s1 : CSrc) (s2 : CSrc)
  /-- MAX_IMM (R190). Immediate form: signed maximum. -/
  | maxImm (rd : CReg) (s1 : CSrc) (imm : Imm 12)
  /-- MINU (R190). Register form: unsigned minimum. -/
  | minu (rd : CReg) (s1 : CSrc) (s2 : CSrc)
  /-- MINU_IMM (R190). Immediate form: unsigned minimum. -/
  | minuImm (rd : CReg) (s1 : CSrc) (imm : Imm 12)
  /-- MAXU (R190). Register form: unsigned maximum. -/
  | maxu (rd : CReg) (s1 : CSrc) (s2 : CSrc)
  /-- MAXU_IMM (R190). Immediate form: unsigned maximum. -/
  | maxuImm (rd : CReg) (s1 : CSrc) (imm : Imm 12)
  /-- CLZ (R190). Counts leading zeros of s1. -/
  | clz (rd : CReg) (s1 : CSrc)
  /-- CTZ (R190). Counts trailing zeros of s1. -/
  | ctz (rd : CReg) (s1 : CSrc)
  /-- POPC (R190). Counts the 1 bits of s1. -/
  | popc (rd : CReg) (s1 : CSrc)
  /-- SEXT (R190). Register form: sign-extends s1 from width s2[5:0]. -/
  | sext (rd : CReg) (s1 : CSrc) (s2 : CSrc)
  /-- SEXT_IMM (R190). Immediate form: sign-extends s1 from width 1 to 64. -/
  | sextImm (rd : CReg) (s1 : CSrc) (imm : Imm 12)
  /-- ZEXT (R190). Register form: zero-extends s1 from width s2[5:0]. -/
  | zext (rd : CReg) (s1 : CSrc) (s2 : CSrc)
  /-- ZEXT_IMM (R190). Immediate form: zero-extends s1 from width 1 to 64. -/
  | zextImm (rd : CReg) (s1 : CSrc) (imm : Imm 12)
  /-- SEL (R192). Selects s2 when s1 is non-zero, otherwise the third source. -/
  | sel (rd : CReg) (s1 : CSrc) (s2 : CSrc) (s3 : CSrc)
  /-- CMP (R191). Sets rd to 1 when the condition holds between s1 and s2, else 0. -/
  | cmp (rd : CReg) (s1 : CSrc) (s2 : CSrc) (cond : Cond)
  /-- LI (R193). Loads a sign-extended immediate into rd. -/
  | li (rd : CReg) (imm : Imm 19)
  /-- B (R194). Unconditional branch by a line offset. -/
  | b (off : Imm 24)
  /-- BC (R194). Branches by a line offset when the condition holds between s1 and s2. -/
  | bc (cond : Cond) (s1 : CSrc) (s2 : CSrc) (off : Imm 8)
  /-- BR (R194). Branches to the line address in s1. -/
  | br (s1 : CSrc)
  /-- CALL (R195). Pushes the return line and frame size, adds 16 to WB and continues at the target. -/
  | call (off : Imm 24)
  /-- CALLR (R195). Calls the line address in s1. -/
  | callr (s1 : CSrc)
  /-- RET (R196). Pops the return line and frame size, subtracts 16 from WB and returns. -/
  | ret
  /-- FRAME (R197). Reserves the callee frame at a call target, spilling old frames first. -/
  | frame (f : BitVec 7)
  /-- LD (R200). Loads 1, 2, 4 or 8 bytes from global memory, zero- or sign-extended. -/
  | ld (rt : CReg) (s1 : CSrc) (sz : BitVec 2) (sg : Bool) (off : Imm 9)
  /-- ST (R200). Stores the low bytes of a register to global memory. -/
  | st (rt : CSrc) (s1 : CSrc) (sz : BitVec 2) (off : Imm 9)
  /-- AMOADD (R202). Atomic add at scope, returning the old value. -/
  | amoAdd (rd : CReg) (s1 : CSrc) (s2 : CSrc) (scope : Scope) (wide : Bool)
  /-- AMOAND (R202). Atomic AND at scope, returning the old value. -/
  | amoAnd (rd : CReg) (s1 : CSrc) (s2 : CSrc) (scope : Scope) (wide : Bool)
  /-- AMOOR (R202). Atomic OR at scope, returning the old value. -/
  | amoOr (rd : CReg) (s1 : CSrc) (s2 : CSrc) (scope : Scope) (wide : Bool)
  /-- AMOXOR (R202). Atomic XOR at scope, returning the old value. -/
  | amoXor (rd : CReg) (s1 : CSrc) (s2 : CSrc) (scope : Scope) (wide : Bool)
  /-- AMOMIN (R202). Atomic signed minimum at scope, returning the old value. -/
  | amoMin (rd : CReg) (s1 : CSrc) (s2 : CSrc) (scope : Scope) (wide : Bool)
  /-- AMOMAX (R202). Atomic signed maximum at scope, returning the old value. -/
  | amoMax (rd : CReg) (s1 : CSrc) (s2 : CSrc) (scope : Scope) (wide : Bool)
  /-- AMOXCH (R202). Atomic exchange at scope, returning the old value. -/
  | amoXch (rd : CReg) (s1 : CSrc) (s2 : CSrc) (scope : Scope) (wide : Bool)
  /-- AMOCAS (R202). Atomic compare-and-swap at scope, with the compare value in E1. -/
  | amoCas (rd : CReg) (s1 : CSrc) (s2 : CSrc) (s3 : CSrc) (scope : Scope) (wide : Bool)
  /-- ACQ (R206). Reads a sequence word until it reaches a threshold, then acquires what synchronising releases published. -/
  | acq (rd : CReg) (s1 : CSrc) (s2 : CSrc) (scope : Scope)
  /-- REL (R205). Performs the unit's stores to bound regions at scope, then adds to the sequence word. -/
  | rel (rd : CReg) (s1 : CSrc) (s2 : CSrc) (scope : Scope)
  /-- BIND (R203). Binds a global region to a synchronisation object in the unit's binding table. -/
  | bind (s1 : CSrc) (s2 : CSrc) (s3 : CSrc) (scope : Scope)
  /-- UNBIND (R204). Removes the binding of an object and region base. -/
  | unbind (s1 : CSrc) (s2 : CSrc) (scope : Scope)
  /-- FENCE (R207). Orders every earlier global access before every later one at scope. -/
  | fence (scope : Scope)
  /-- SETSHAPE (R215). Writes a shape register's request half and recomputes its grant. -/
  | setShape (h : ShReg) (s1 : CSrc) (s2 : CSrc) (s3 : CSrc) (fmt : BitVec 7)
  /-- GETSHAPE (R216). Reads a granted dimension, or all four packed, from a shape register. -/
  | getShape (rd : CReg) (h : ShReg) (sl : BitVec 3)
  /-- THLD (R217). Loads a 32-byte tensor handle from memory, with the handle check. -/
  | thld (h : ThReg) (s1 : CSrc) (off : BitVec 7)
  /-- THST (R217). Stores a 32-byte tensor handle to memory. -/
  | thst (h : ThReg) (s1 : CSrc) (off : BitVec 7)
  /-- THSET (R219). Sets one field of a tensor handle, with the handle check. -/
  | thset (h : ThReg) (fs : BitVec 7) (s1 : CSrc)
  /-- THGET (R217). Reads one field of a tensor handle, zero-extended. -/
  | thget (rd : CReg) (h : ThReg) (fs : BitVec 7)
  /-- SEQL (R221). Sets the trip count of a sequencer level. -/
  | seql (n : BitVec 3) (s1 : CSrc)
  /-- SEQS (R221). Binds an access register to a stride slot of a sequencer level. -/
  | seqs (n : BitVec 3) (j : BitVec 2) (ak : AReg) (s1 : CSrc)
  /-- LOOPB (R222). Loads the body lines and starts a sequenced loop over levels 0 to L-1. -/
  | loopb (lv : BitVec 3) (len : BitVec 7)
  /-- LOOPC (R223). Waits on a loop-count block's sequence word, loads its trip counts, then acts as LOOPB. -/
  | loopc (lv : BitVec 3) (len : BitVec 7) (s1 : CSrc) (s2 : CSrc)
  /-- LOOP_ITERATION_BOUNDARY (R405). The sequencer advances to the next iteration, stepping bound registers and emptying latches. -/
  | loopIterationBoundary (core : Nat)
  /-- OVERWRITING_ITERATION_START (R414). After the previous iteration's writes are performed, the walker evaluates the footprint and runs or skips the iteration. -/
  | overwritingIterationStart (core : Nat)
  /-- OVW (R224). Marks a level of the next loop as overwriting. -/
  | ovw (n : BitVec 3)
  /-- FOOT (R225). Declares a box of an overwriting iteration's write footprint. -/
  | foot (j : BitVec 2) (ak : AReg) (s1 : CSrc) (s2 : CSrc) (s3 : CSrc)
  /-- FOOTV (R225). Declares the footprint cells given by an INT32 vector of offsets. -/
  | footv (ak : AReg) (vs : BitVec 7)
  /-- REGION (R226). Joins the engines, drains commands, and writes a region record and shadow opening a new region. -/
  | region (s1 : CSrc) (s2 : CSrc) (s3 : CSrc) (s4 : CSrc)
  /-- REGION_END (R226). Closes the open region, leaving none open. -/
  | regionEnd
  /-- EXIT (R227). Ends the control engine at any call depth; later control lanes become empty. -/
  | exitI
  /-- LOCQ (R229). Translates an address and returns its home socket and hop class without trapping. -/
  | locq (rd : CReg) (s1 : CSrc)
  /-- CSRR (R230). Reads a control and status register. -/
  | csrr (rd : CReg) (csr : BitVec 12)
  /-- CSRW (R230). Writes the writable fields of a control and status register, with the access and value checks. -/
  | csrw (csr : BitVec 12) (s1 : CSrc)
  /-- WINST_WRITE (R78). A privileged write of WINST sets window base, frame size and store depths without moving contents. -/
  | winstWrite (core : Nat) (val : Word)
  /-- TRAP (R198). Raises the software-trap cause carrying a code and the value of s1. -/
  | trap (s1 : CSrc) (code : BitVec 7)
  /-- ERET (R199). Ends the firmware handler and resumes the interrupted unit after a precise trap. -/
  | eret
  /-- WAITMEM (R231). Reads an 8-byte word at scope until it differs from a value, with acquire effect. -/
  | waitmem (rd : CReg) (s1 : CSrc) (s2 : CSrc) (scope : Scope)
  /-- SCSTOP_CYC (R234). Stops the clocks of the named segments after a count of core cycles. -/
  | scstopCyc (s1 : CSrc) (s2 : CSrc) (s3 : CSrc)
  /-- SCSTOP_BEAT (R234). Stops named quadrants at the end of a given beat of the command in progress, or arms the count on a stopped quadrant. -/
  | scstopBeat (s1 : CSrc) (s2 : CSrc) (s3 : CSrc)
  /-- SCSTOP_COUNT_ELAPSED (R234). The armed cycle or beat count elapses and the named clocks stop. -/
  | scstopCountElapsed (ltn : Nat)
  /-- SCOUT (R235). Writes a sealed ember image of stopped segments and a live range to memory or scratchpad. -/
  | scout (rd : CReg) (s1 : CSrc) (s2 : CSrc) (s3 : CSrc) (s4 : CSrc) (spad : Bool)
  /-- SCIN (R474). Checks an ember image and restores it into stopped segments, returning a status. -/
  | scin (rd : CReg) (s1 : CSrc) (s2 : CSrc) (s3 : CSrc) (spad : Bool)
  /-- SCGO (R235). Restarts the clocks of the named segments. -/
  | scgo (s1 : CSrc) (s2 : CSrc)
  /-- SCAN_IN_SHIFT_COMPLETE (R74). A segment that was still shifting in after SCGO finishes its shift, and accesses stalled on it proceed. -/
  | scanInShiftComplete (core : Nat)
  /-- SCOWN (R471). Sets the owner world of the named segments. -/
  | scown (s1 : CSrc) (s2 : CSrc) (s3 : CSrc)
  /-- DIAGINJ_PROD (R377). Arms a flip of a product bit for a cell at or after a beat of the next array command. -/
  | diaginjProd (s1 : CSrc) (s2 : CSrc) (s3 : CSrc)
  /-- DIAGINJ_ACC (R236). Flips a stored accumulator bit outside the check words. -/
  | diaginjAcc (s1 : CSrc) (s2 : CSrc) (s3 : CSrc)
  /-- DIAGINJ_VREG (R236). Flips a bit of a vector register, parked or dead. -/
  | diaginjVreg (s1 : CSrc) (s2 : CSrc) (s3 : CSrc)
  /-- DIAGINJ_SPAD (R236). Flips a bit of a scratchpad byte. -/
  | diaginjSpad (s1 : CSrc) (s2 : CSrc) (s3 : CSrc)
  /-- TLBINV (R237). Invalidates translations for a page, a world or everything, and waits for all walkers. -/
  | tlbinv (kind : BitVec 2) (s1 : CSrc) (s2 : CSrc)
  /-- KISSUE (R238). Hands a launch record to the die's stream controller scoreboard. -/
  | kissue (rd : CReg) (s1 : CSrc) (s2 : CSrc)
  /-- SXFER (R238). Hands a stream-transfer descriptor to the die's stream controller. -/
  | sxfer (rd : CReg) (s1 : CSrc)
  /-- CANCEL (R239). Cancels a launch, graph, phase or job by identifier. -/
  | cancel (rd : CReg) (s1 : CSrc) (lvl : BitVec 3)
  /-- FRAMESET (R240). Writes a frame-table slot of a core, effective at its next frame edge. -/
  | frameset (s1 : CSrc) (s2 : CSrc) (slot : BitVec 4)
  /-- AADD (R315). Register form: access add mod 2^32. -/
  | aadd (ad : AReg) (s1 : ASrc) (s2 : ASrc)
  /-- AADD_IMM (R315). Immediate form: access add mod 2^32. -/
  | aaddImm (ad : AReg) (s1 : ASrc) (imm : Imm 12)
  /-- AMOV (R316). Copies one access register to another. -/
  | amov (ad : AReg) (s1 : ASrc)
  /-- AMOV_CTRL (R316). Copies the low 32 bits of a control register, named in E1, to an access register. -/
  | amovCtrl (ad : AReg) (e1 : CSrc)
  /-- ALI (R317). Loads a sign-extended immediate into an access register. -/
  | ali (ad : AReg) (imm : Imm 19)
  /-- AMUL (R315). Register form: access multiply mod 2^32. -/
  | amul (ad : AReg) (s1 : ASrc) (s2 : ASrc)
  /-- AMUL_IMM (R315). Immediate form: access multiply mod 2^32. -/
  | amulImm (ad : AReg) (s1 : ASrc) (imm : Imm 12)
  /-- ASHL (R315). Register form: access shift left. -/
  | ashl (ad : AReg) (s1 : ASrc) (s2 : ASrc)
  /-- ASHL_IMM (R315). Immediate form: access shift left by 0 to 31. -/
  | ashlImm (ad : AReg) (s1 : ASrc) (imm : Imm 12)
  /-- AAND (R315). Register form: access AND. -/
  | aand (ad : AReg) (s1 : ASrc) (s2 : ASrc)
  /-- AAND_IMM (R315). Immediate form: access AND. -/
  | aandImm (ad : AReg) (s1 : ASrc) (imm : Imm 12)
  /-- ARD (R318). Reads one element of scratchpad blocks with descriptors into a load queue. -/
  | ard (q : QReg) (s1 : ASrc) (off : Imm 15)
  /-- AWR (R318). Pops a store queue element into scratchpad with its descriptors. -/
  | awr (q : QReg) (s1 : ASrc) (off : Imm 15)
  /-- ARDG (R319). Gathers scratchpad lanes by an index element into a load queue. -/
  | ardg (q : QReg) (s1 : ASrc) (qi : QReg) (ew : BitVec 2)
  /-- AWRS (R320). Scatters a data element into scratchpad by an index element. -/
  | awrs (s1 : ASrc) (qd : QReg) (qi : QReg)
  /-- ASTREAM (R321). Binds a queue to an affine stream pattern read from nine access registers. -/
  | astream (q : QReg) (n : BitVec 6) (lv : BitVec 2)
  /-- STREAM_LOAD_ELEMENT (R322). A load stream reads its next element and pushes it when the queue has room. -/
  | streamLoadElement (core : Nat) (q : QReg)
  /-- STREAM_STORE_ELEMENT (R323). A store stream pops an element that entered its queue and writes it at the next pattern address. -/
  | streamStoreElement (core : Nat) (q : QReg)
  /-- AUNBIND (R324). Ends a queue's stream binding early, draining a store stream first. -/
  | aunbind (q : QReg)
  /-- ATILE (R326). Binds or unbinds a tile slot to a scratchpad tile. -/
  | atile (t : TsReg) (s1 : ASrc) (s2 : ASrc) (fmt : BitVec 7)
  /-- APLN (R327). Converts an element-major tile into a planes tile with side entries. -/
  | apln (td : TsReg) (ts : TsReg)
  /-- AUNPLN (R328). Converts a planes tile back into an element-major tile. -/
  | aunpln (td : TsReg) (ts : TsReg) (rm : BitVec 3)
  /-- ACB (R329). Binds or unbinds a circular buffer. -/
  | acb (c : CbReg) (s1 : ASrc) (s2 : ASrc) (size : BitVec 4)
  /-- ACB_GET (R330). Waits for a filled slot, takes it and acquires its fill. -/
  | acbGet (ad : AReg) (c : CbReg)
  /-- ACBREL (R331). Returns the slot at the release position to free after its reads are performed. -/
  | acbRel (c : CbReg)
  /-- VADD (R249). Elementwise add, wrapping for integers and rounded for floats. -/
  | vadd (vd : VDst) (vs1 : VSrc) (vs2 : VSrc) (rm : BitVec 3)
  /-- VSUB (R249). Elementwise subtract. -/
  | vsub (vd : VDst) (vs1 : VSrc) (vs2 : VSrc) (rm : BitVec 3)
  /-- VMUL (R249). Elementwise multiply. -/
  | vmul (vd : VDst) (vs1 : VSrc) (vs2 : VSrc) (rm : BitVec 3)
  /-- VMULH (R249). Elementwise high half of the integer product. -/
  | vmulh (vd : VDst) (vs1 : VSrc) (vs2 : VSrc)
  /-- VMA (R252). Elementwise fused multiply-add into an addend. -/
  | vma (vd : VDst) (vs1 : VSrc) (vs2 : VSrc) (rm : BitVec 3) (c : Option VSrc)
  /-- VDIV (R253). Elementwise correctly rounded division. -/
  | vdiv (vd : VDst) (vs1 : VSrc) (vs2 : VSrc) (rm : BitVec 3)
  /-- VSQRT (R253). Elementwise correctly rounded square root. -/
  | vsqrt (vd : VDst) (vs1 : VSrc) (rm : BitVec 3)
  /-- VMIN (R251). Elementwise minimum. -/
  | vmin (vd : VDst) (vs1 : VSrc) (vs2 : VSrc)
  /-- VMAX (R251). Elementwise maximum. -/
  | vmax (vd : VDst) (vs1 : VSrc) (vs2 : VSrc)
  /-- VABS (R249). Elementwise absolute value. -/
  | vabs (vd : VDst) (vs1 : VSrc)
  /-- VNEG (R249). Elementwise negation. -/
  | vneg (vd : VDst) (vs1 : VSrc)
  /-- VSHL (R249). Elementwise shift left by lane counts. -/
  | vshl (vd : VDst) (vs1 : VSrc) (vs2 : VSrc)
  /-- VSHR (R249). Elementwise logical shift right. -/
  | vshr (vd : VDst) (vs1 : VSrc) (vs2 : VSrc)
  /-- VSAR (R249). Elementwise arithmetic shift right. -/
  | vsar (vd : VDst) (vs1 : VSrc) (vs2 : VSrc)
  /-- VAND (R249). Elementwise bitwise AND. -/
  | vand (vd : VDst) (vs1 : VSrc) (vs2 : VSrc)
  /-- VOR (R249). Elementwise bitwise OR. -/
  | vor (vd : VDst) (vs1 : VSrc) (vs2 : VSrc)
  /-- VXOR (R249). Elementwise bitwise XOR. -/
  | vxor (vd : VDst) (vs1 : VSrc) (vs2 : VSrc)
  /-- VNOT (R249). Elementwise bitwise NOT. -/
  | vnot (vd : VDst) (vs1 : VSrc)
  /-- VPOPC (R249). Elementwise population count. -/
  | vpopc (vd : VDst) (vs1 : VSrc)
  /-- VCLZ (R249). Elementwise count of leading zeros. -/
  | vclz (vd : VDst) (vs1 : VSrc)
  /-- VEXP (R253). Elementwise e to the power a. -/
  | vexp (vd : VDst) (vs1 : VSrc) (rm : BitVec 3)
  /-- VEXP2 (R253). Elementwise 2 to the power a. -/
  | vexp2 (vd : VDst) (vs1 : VSrc) (rm : BitVec 3)
  /-- VLOG (R253). Elementwise natural logarithm. -/
  | vlog (vd : VDst) (vs1 : VSrc) (rm : BitVec 3)
  /-- VLOG2 (R253). Elementwise base-2 logarithm. -/
  | vlog2 (vd : VDst) (vs1 : VSrc) (rm : BitVec 3)
  /-- VSIN (R253). Elementwise sine. -/
  | vsin (vd : VDst) (vs1 : VSrc) (rm : BitVec 3)
  /-- VCOS (R253). Elementwise cosine. -/
  | vcos (vd : VDst) (vs1 : VSrc) (rm : BitVec 3)
  /-- VTANH (R253). Elementwise hyperbolic tangent. -/
  | vtanh (vd : VDst) (vs1 : VSrc) (rm : BitVec 3)
  /-- VERF (R253). Elementwise error function. -/
  | verf (vd : VDst) (vs1 : VSrc) (rm : BitVec 3)
  /-- VRCP (R253). Elementwise reciprocal. -/
  | vrcp (vd : VDst) (vs1 : VSrc) (rm : BitVec 3)
  /-- VRSQRT (R253). Elementwise reciprocal square root. -/
  | vrsqrt (vd : VDst) (vs1 : VSrc) (rm : BitVec 3)
  /-- VCVT (R254). Converts a slice of lanes to a target format with scaling and rounding. -/
  | vcvt (vd : VDst) (vs1 : VSrc) (part : BitVec 3) (t : BitVec 4) (rm : BitVec 3)
  /-- VSCALE (R255). Copies a register and sets every scale byte. -/
  | vscale (vd : VDst) (vs1 : VSrc) (val : BitVec 8)
  /-- VSCALE_ADD (R255). Copies a register and adds a signed value to each scale byte. -/
  | vscaleAdd (vd : VDst) (vs1 : VSrc) (val : BitVec 8)
  /-- VTAG (R256). Copies a whole register and renames its format byte. -/
  | vtag (vd : VDst) (vs1 : VSrc) (fmt : BitVec 7)
  /-- VSEED (R257). Sets the vector converter's generator state. -/
  | vseed (xs : CSrc)
  /-- VUNT5 (R258). Decodes TERN5 trits into INT8 lanes, optionally trapping on illegal bytes. -/
  | vunt5 (vd : VDst) (vs1 : VSrc) (chk : Bool) (part : BitVec 3)
  /-- VUN4O (R259). Decodes INT4O slots with outliers into float lanes. -/
  | vun4o (vd : VDst) (vs1 : VSrc) (part : BitVec 3) (t : BitVec 4) (rm : BitVec 3)
  /-- VPK (R260). Converts lanes and packs them into INT4O slots, optionally with outliers, or TERN5 trits. -/
  | vpk (vd : VDst) (vs1 : VSrc) (part : BitVec 4) (t : BitVec 3) (rm : BitVec 3)
  /-- VTADD (R261). Adds or subtracts lanes into the destination by the sign of trit lanes. -/
  | vtadd (vd : VDst) (vs1 : VSrc) (vs2 : VSrc) (rm : BitVec 3)
  /-- VRSUM (R262). Sums the active lanes by the fixed tree into lane 0. -/
  | vrsum (vd : VDst) (vs1 : VSrc) (rm : BitVec 3)
  /-- VRMAX (R262). Takes the maximum of the active lanes into lane 0. -/
  | vrmax (vd : VDst) (vs1 : VSrc)
  /-- VRMIN (R262). Takes the minimum of the active lanes into lane 0. -/
  | vrmin (vd : VDst) (vs1 : VSrc)
  /-- VSHUF (R264). Permutes lanes of vs1 by an index vector. -/
  | vshuf (vd : VDst) (vs1 : VSrc) (vs2 : VSrc)
  /-- VSLIDE (R265). Slides lanes by a signed count, filling with zero. -/
  | vslide (vd : VDst) (vs1 : VSrc) (s : BitVec 10)
  /-- VBCAST (R265). Broadcasts one lane to every active lane. -/
  | vbcast (vd : VDst) (vs1 : VSrc) (i : BitVec 8)
  /-- VSPLAT (R266). Writes a control register's low bits into every active lane. -/
  | vsplat (vd : VDst) (xs : CSrc) (fmt : BitVec 7)
  /-- VEXTR (R267). Extracts one lane into a control register. -/
  | vextr (xd : CReg) (vs1 : VSrc) (i : BitVec 8)
  /-- VMOV (R263). Copies active lanes with the source's format and scale bytes. -/
  | vmov (vd : VDst) (vs1 : VSrc)
  /-- VLI (R268). Writes an immediate, in the current shape's AFMT, into active lanes. -/
  | vli (vd : VDst) (imm : Imm 17)
  /-- VCMP (R269). Compares lanes and pushes the result as a mask stack entry. -/
  | vcmp (vs1 : VSrc) (vs2 : VSrc) (cond : BitVec 3)
  /-- VMINV (R270). Replaces the top mask entry by its complement within the entry below and GVL. -/
  | vminv
  /-- VMPOP (R270). Removes n mask stack entries. -/
  | vmpop (n : BitVec 4)
  /-- VSKIP (R271). When the top mask entry is empty, moves the vector engine alone to a later line. -/
  | vskip (off : Imm 24)
  /-- VMGET (R270). Writes a mask stack entry into a register as BIN1. -/
  | vmget (vd : VDst) (d : BitVec 4)
  /-- VPARK (R273). Parks a vector register into a quadrant row and recomputes all grants. -/
  | vpark (vr : BitVec 6)
  /-- VUNPARK (R274). Restores a parked register from its quadrant row and recomputes all grants. -/
  | vunpark (vr : BitVec 6)
  /-- VPUSHM (R275). Saves a range of vector registers to the push stack. -/
  | vpushm (vf : BitVec 6) (vl : BitVec 6)
  /-- VPOPM (R275). Restores a range of vector registers from the push stack. -/
  | vpopm (vf : BitVec 6) (vl : BitVec 6)
  /-- VSETSH (R272). Selects the vector engine's current shape register. -/
  | vsetsh (h : ShReg)
  /-- MLEASE (R289). Asks the lantern arbiter for quadrants and waits for the grant. -/
  | mlease (q : BitVec 4) (tok : Tok)
  /-- MFREE (R294). Releases the lease and discards the unit's accumulators after earlier commands complete. -/
  | mfree (q : BitVec 4) (tok : Tok)
  /-- MMA (R297). Multiplies an element-major A tile by a planes B tile into the accumulators. -/
  | mma (ta : TsReg) (tb : TsReg) (h : ShReg) (rm : BitVec 3) (tok : Tok)
  /-- MMAH (R298). MMA with one operand fetched from a tensor handle into a staging slot. -/
  | mmah (ta : TsReg) (tb : TsReg) (h : ShReg) (rm : BitVec 3) (tok : Tok) (which : Bool) (ts : TsReg) (e1 : CSrc) (e2 : CSrc)
  /-- MMACK (R299). MMA with appended FP32 row and column checksums. -/
  | mmack (ta : TsReg) (tb : TsReg) (h : ShReg) (rm : BitVec 3) (tok : Tok)
  /-- MMABX (R300). Adds popcounts of BIN1 XOR products into INT32 accumulators. -/
  | mmabx (ta : TsReg) (tb : TsReg) (h : ShReg) (tok : Tok)
  /-- MMABA (R300). Adds popcounts of BIN1 AND products into INT32 accumulators. -/
  | mmaba (ta : TsReg) (tb : TsReg) (h : ShReg) (tok : Tok)
  /-- MCLR (R301). Clears the granted accumulators and their check words. -/
  | mclr (h : ShReg) (tok : Tok)
  /-- MCLR_ALL (R301). Clears every accumulator of the lease outside parked rows. -/
  | mclrAll (h : ShReg) (tok : Tok)
  /-- MLDACC (R302). Loads accumulators from an element-major slot. -/
  | mldacc (ta : TsReg) (h : ShReg) (tok : Tok)
  /-- MSTACC (R303). Checks rows and drains accumulators with conversion into an element-major slot. -/
  | mstacc (ta : TsReg) (h : ShReg) (rm : BitVec 3) (tok : Tok)
  /-- MCHK (R304). Writes row and column residues of a checked product into an FP32 slot. -/
  | mchk (ta : TsReg) (h : ShReg) (rm : BitVec 3) (tok : Tok)
  /-- MSEED (R305). Sets the issuing core's quadrant generator states in named quadrants. -/
  | mseed (q : BitVec 4) (xs : CSrc) (tok : Tok)
  /-- MATRIX_COMMAND_COMPLETE (R288). A matrix command finishes its last effect and its token falls. -/
  | matrixCommandComplete (core : Nat)
  /-- UNIT_END (R40). A unit ends when all engines ended and its commands and store queues drained, releasing its lease and parked rows. -/
  | unitEnd (core : Nat)
  /-- XCOPY_LD (R339). Copies a box of a handle's tensor into a tile slot, decrypting. -/
  | xcopyLd (t : TsReg) (h : ThReg) (tok : Tok) (fl : Fl) (e1 : CSrc) (e2 : CSrc) (e3 : CSrc) (e4 : CSrc)
  /-- XCOPY_ST (R339). Copies a tile slot into a box of a handle's tensor, encrypting and staging. -/
  | xcopySt (t : TsReg) (h : ThReg) (tok : Tok) (fl : Fl) (e1 : CSrc) (e2 : CSrc) (e3 : CSrc) (e4 : CSrc)
  /-- XCOPY_SS (R339). Copies a whole tile between two scratchpad slots with descriptors. -/
  | xcopySs (td : TsReg) (ts : TsReg) (tok : Tok) (fl : Fl)
  /-- XCOPYS (R341). Expands a bitmap-compressed sparse tile into a slot. -/
  | xcopys (t : TsReg) (h : ThReg) (tok : Tok) (fl : Fl) (e1 : CSrc) (e2 : CSrc)
  /-- XCB (R342). Fills the next circular-buffer slot with a box of a tensor. -/
  | xcb (c : CbReg) (h : ThReg) (tok : Tok) (fl : Fl) (e1 : CSrc) (e2 : CSrc) (e3 : CSrc) (e4 : CSrc)
  /-- XCB_SLOT_TAKE (R342). A waiting XCB takes the slot at the fill position once free is non-zero. -/
  | xcbSlotTake (core : Nat)
  /-- XHOST (R343). Moves a whole tile between a slot and host memory in sealed groups. -/
  | xhost (t : TsReg) (dir : Bool) (tok : Tok) (fl : Fl) (e1 : CSrc) (e2 : CSrc) (e3 : CSrc)
  /-- XPEER (R346). Moves a whole tile between a slot and a peer device in sealed groups. -/
  | xpeer (t : TsReg) (dir : Bool) (tok : Tok) (fl : Fl) (e1 : CSrc)
  /-- XCOLL (R348). Combines slot elements across the members of a collective in place. -/
  | xcoll (t : TsReg) (rm : BitVec 3) (op : BitVec 2) (tok : Tok) (fl : Fl) (e1 : CSrc) (e2 : CSrc)
  /-- XGATH (R349). Binds a load queue and pushes one element of a tensor per index. -/
  | xgath (q : QReg) (h : ThReg) (t : TsReg) (tok : Tok) (fl : Fl) (e1 : CSrc) (e2 : CSrc)
  /-- XGATH_ELEMENT_PUSH (R349). An XGATH pushes its next element when the queue has room. -/
  | xgathElementPush (core : Nat)
  /-- XPF (R350). Hints that a box will be read soon; completes at issue. -/
  | xpf (h : ThReg) (e1 : CSrc) (e2 : CSrc) (e3 : CSrc) (e4 : CSrc)
  /-- XFENCE (R347). Waits for earlier copy commands and their writes at scope, holding later commands. -/
  | xfence (scope : Scope) (tok : Tok) (fl : Fl)
  /-- COPY_COMMAND_COMPLETE (R335). A copy command completes; its flag rises and then its token falls. -/
  | copyCommandComplete (core : Nat)
  /-- TRAP_DELIVERY (R456). After other begun lanes complete, the core writes the report registers and enters the firmware handler. -/
  | trapDelivery (core : Nat)
  /-- CORRECTION_FREEZE_END (R466). The 24-cycle freeze after a corrected error ends and the core resumes. -/
  | correctionFreezeEnd (core : Nat)
  /-- ARBITER_PASS (R290). The lantern arbiter examines waiting cores from its pointer, granting or reserving quadrants. -/
  | arbiterPass (ltn : Nat)
  /-- LEASE_LIMIT_REACHED (R291). A lease reaches LEASELEN or LEASECYC and either ends with an accumulator save or restarts its counts. -/
  | leaseLimitReached (core : Nat)
  /-- STREAM_RESIDENCY_COMPLETE (R437). A stream transfer's range becomes resident in its lanterns' L2. -/
  | streamResidencyComplete (die : Nat)
  /-- UNIT_START (R439). The stream controller starts a unit of a ready launch on a free satisfying core. -/
  | unitStart (p : Nat)
  /-- FRAME_EDGE (R489). At an edge that changes world the core stops, saves, clears and restores units. -/
  | frameEdge (core : Nat)
  /-- REGION_RESTART (R476). Clears a core, restores the region record and shadow and resumes at the entry line. -/
  | regionRestart (core : Nat)
  /-- LAUNCH_RECORD (R433). The lamplighter consumes a launch record from a queue list, checks it and hands it to the stream controller or rejects it. -/
  | launchRecord (p : Nat) (q : Nat)
  /-- CANCEL_RECORD (R435). The lamplighter consumes a cancel record and cancels the named level. -/
  | cancelRecord (p : Nat) (q : Nat)
  /-- YIELD (R228). Point at which the stream controller may region-pre-empt the unit for a higher-priority launch. -/
  | yieldI
  /-- EVENT_RECORD_WRITE (R443). The device writes an event record to a queue ring when room allows, then EVTSEQ and the MSI-X message. -/
  | eventRecordWrite (p : Nat) (q : Nat)
  /-- SNUFFER_EXPIRY (R453). A launch's snuffer expires and its partition is stopped, reset and its launches re-queued or failed. -/
  | snufferExpiry (lid : Nat)
  /-- REGION_PREEMPTION (R476). Stops the unit, discards all but the region record, shadow and live range, and frees its lease and parked rows. -/
  | regionPreemption (core : Nat)
  /-- HOST_WRITE_DATA_SLICE (R425). A host write through a mapped BAR2 slice is encrypted and performed at system scope. -/
  | hostWriteDataSlice (slice : Nat) (off : Nat) (data : Bytes)
  /-- HOST_WRITE_DESCRIPTOR (R425). A host write through BAR4 sets a block descriptor. -/
  | hostWriteDescriptor (slice : Nat) (off : Nat) (data : Bytes)
  /-- HOST_READ_DATA_SLICE (R425). A host read through a data slice returns decrypted committed contents, or all ones if unmapped. -/
  | hostReadDataSlice (slice : Nat) (off : Nat) (len : Nat)
  /-- BOOT_LENGTH_WRITE (R518). The host writes the firmware length and the kindling ROM verifies and starts the image. -/
  | bootLengthWrite (val : BitVec 32)
  /-- BAR0_WRITE (R424). Any other write to BAR0 is dropped and counted in the host-error counter. -/
  | bar0Write (off : Nat) (data : Bytes)
  /-- POWER_ON (R518). The kindling ROM maps slice 0 and the state word reads 0. -/
  | powerOn
  /-- FIRMWARE_START (R519). Firmware builds the inventory, completes a rotation pass and sets the state word to 1. -/
  | firmwareStart (anchor : Nat) (tvec : Word)
  /-- HOST_LINK_LOSS (R462). Loss of the host link while launches are live is a device-level fault. -/
  | hostLinkLoss
  /-- SET_PARTITION (R431). Management request 0x0010 sets a partition's home die, aging interval and lanterns. -/
  | setPartition
  /-- SET_QUEUE (R432). Management request 0x0011 configures a queue. -/
  | setQueue
  /-- RESIZE_PARTITION (R452). Management request 0x0012 moves units off departing lanterns and changes the mask. -/
  | resizePartition
  /-- MAP_DATA_SLICE (R425). Management request 0x0013 maps a data slice to memory and a key. -/
  | mapDataSlice (slice : Nat) (base : Nat) (handle : Nat)
  /-- CREATE_WORLD (R485). Management request 0x0020 creates a world with its keys and root. -/
  | createWorld
  /-- INSTALL_KEY (R484). Management request 0x0021 installs an OAEP-transported key. -/
  | installKey
  /-- REMOVE_KEY (R484). Management request 0x0022 removes an unused key handle. -/
  | removeKey
  /-- DESTROY_WORLD (R486). Management request 0x0023 destroys a world with no live launch. -/
  | destroyWorld
  /-- SET_ROSTER (R494). Management request 0x0024 replaces a world's peer roster after checks. -/
  | setRoster
  /-- ATTEST (R496). Management request 0x0025 writes a signed attestation report. -/
  | attest
  /-- DEBUG_UNLOCK (R497). Management request 0x0026 applies or revokes a signed debug unlock. -/
  | debugUnlock
  /-- CACHE_ENTRY_SEAL (R401). Management request 0x0027 with OP 0 seals a translated-image cache entry. -/
  | cacheEntrySeal
  /-- CACHE_ENTRY_OPEN (R401). Management request 0x0027 with OP 1 checks and decrypts a cache entry. -/
  | cacheEntryOpen
  /-- DIE_OFFLINE (R504). Management request 0x0030 evacuates or poisons a socket's frames and powers it down. -/
  | dieOffline
  /-- ROTATION (R507). Management request 0x0031 configures the silent-error rotation. -/
  | rotation
  /-- RECORD_MODE (R511). Management request 0x0032 enables or disables recording of LOG launches. -/
  | recordMode
  /-- REPLAY (R513). Management request 0x0033 replays a logged launch on its logged cores. -/
  | replay
  /-- UNKNOWN_REQUEST (R430). A management request with an unknown CODE gets RESULT 0xFFFF_FFFE. -/
  | unknownRequest
  /-- ROTATION_CORE_TEST (R508). The rotation drains a core and shifts test patterns through its segments. -/
  | rotationCoreTest (core : Nat) (pass : Bool)
  /-- ROTATION_QUADRANT_TEST (R508). The rotation holds a quadrant as fifth requester and shifts test patterns through it. -/
  | rotationQuadrantTest (ltn : Nat) (q : Nat) (pass : Bool)
  /-- HEALTH_UPDATE (R515). Every 1 ms firmware rewrites each socket's health record. -/
  | healthUpdate (socket : Nat) (temp : BitVec 16) (power : BitVec 32)
  /-- CLOCK_STEP_DOWN (R516). A die over its power or temperature limit steps its clock down by 50 MHz. -/
  | clockStepDown (die : Nat)
  /-- CLOCK_STEP_UP (R516). A die below its limits for 10 ms steps its clock up by 50 MHz. -/
  | clockStepUp (die : Nat)
  /-- JUNCTION_OVERTEMP (R517). A junction above 120 C raises a device-level fault and removes power. -/
  | junctionOvertemp
  /-- BANK_DROWSY (R72). A vector bank or scalar-file quarter with no access for 1,024 cycles becomes drowsy, so its next access takes 12 cycles longer. -/
  | bankDrowsy (core : Nat) (bank : Nat)
  /-- BANK_POWER_GATED (R73). A bank whose eight registers are dead and which has had no access for 256 cycles is power-gated, so a later write stalls 40 cycles. -/
  | bankPowerGated (core : Nat) (bank : Nat)
  /-- UNCORRECTABLE_ERROR (R462). An uncorrectable error arises in the stream controller, the security controller, an interposer router or world-15 state and causes a device-level fault. -/
  | uncorrectableError
  /-- DEVICE_RESET (R454). The driver resets the device after a device-level fault, clearing counters, unlocks and save state. -/
  | deviceReset
  /-- PARTITION_RESET_COMPLETE (R453). The reset of a snuffed partition's cores, lanterns and staging ways completes, after which its events are written and its stopped launches re-queued or failed. -/
  | partitionResetComplete (p : Nat)
  /-- FABRIC_LINK_UP (R494). A fabric port comes up and authenticates the peer's DEVID, which the roster check later relies on. -/
  | fabricLinkUp (devid : Bytes)
  /-- FABRIC_GROUP_ARRIVAL (R493). A sealed group or exchange partial from a peer device arrives over the fabric, is verified under its key handle and written under the owning world's memory key. -/
  | fabricGroupArrival (addr : Nat) (data : Bytes)
  deriving DecidableEq, Repr

/-- The engine whose lanes an instruction is (05 R180), or none for a step that is no lane. -/
def Instr.engine : Instr → Option Engine
  | .nop e => some e
  | .endE e => some e
  | .finc e _ _ => some e
  | .fwait e _ _ _ => some e
  | .fset e _ _ => some e
  | .kwait e _ _ => some e
  | .add _ _ _ => some .c
  | .addImm _ _ _ => some .c
  | .sub _ _ _ => some .c
  | .subImm _ _ _ => some .c
  | .mul _ _ _ => some .c
  | .mulImm _ _ _ => some .c
  | .mulhu _ _ _ => some .c
  | .mulhuImm _ _ _ => some .c
  | .mulhs _ _ _ => some .c
  | .mulhsImm _ _ _ => some .c
  | .divu _ _ _ => some .c
  | .divuImm _ _ _ => some .c
  | .divs _ _ _ => some .c
  | .divsImm _ _ _ => some .c
  | .remu _ _ _ => some .c
  | .remuImm _ _ _ => some .c
  | .rems _ _ _ => some .c
  | .remsImm _ _ _ => some .c
  | .and _ _ _ => some .c
  | .andImm _ _ _ => some .c
  | .or _ _ _ => some .c
  | .orImm _ _ _ => some .c
  | .xor _ _ _ => some .c
  | .xorImm _ _ _ => some .c
  | .andn _ _ _ => some .c
  | .andnImm _ _ _ => some .c
  | .shl _ _ _ => some .c
  | .shlImm _ _ _ => some .c
  | .shr _ _ _ => some .c
  | .shrImm _ _ _ => some .c
  | .sar _ _ _ => some .c
  | .sarImm _ _ _ => some .c
  | .rotl _ _ _ => some .c
  | .rotlImm _ _ _ => some .c
  | .min _ _ _ => some .c
  | .minImm _ _ _ => some .c
  | .max _ _ _ => some .c
  | .maxImm _ _ _ => some .c
  | .minu _ _ _ => some .c
  | .minuImm _ _ _ => some .c
  | .maxu _ _ _ => some .c
  | .maxuImm _ _ _ => some .c
  | .clz _ _ => some .c
  | .ctz _ _ => some .c
  | .popc _ _ => some .c
  | .sext _ _ _ => some .c
  | .sextImm _ _ _ => some .c
  | .zext _ _ _ => some .c
  | .zextImm _ _ _ => some .c
  | .sel _ _ _ _ => some .c
  | .cmp _ _ _ _ => some .c
  | .li _ _ => some .c
  | .b _ => some .c
  | .bc _ _ _ _ => some .c
  | .br _ => some .c
  | .call _ => some .c
  | .callr _ => some .c
  | .ret => some .c
  | .frame _ => some .c
  | .ld _ _ _ _ _ => some .c
  | .st _ _ _ _ => some .c
  | .amoAdd _ _ _ _ _ => some .c
  | .amoAnd _ _ _ _ _ => some .c
  | .amoOr _ _ _ _ _ => some .c
  | .amoXor _ _ _ _ _ => some .c
  | .amoMin _ _ _ _ _ => some .c
  | .amoMax _ _ _ _ _ => some .c
  | .amoXch _ _ _ _ _ => some .c
  | .amoCas _ _ _ _ _ _ => some .c
  | .acq _ _ _ _ => some .c
  | .rel _ _ _ _ => some .c
  | .bind _ _ _ _ => some .c
  | .unbind _ _ _ => some .c
  | .fence _ => some .c
  | .setShape _ _ _ _ _ => some .c
  | .getShape _ _ _ => some .c
  | .thld _ _ _ => some .c
  | .thst _ _ _ => some .c
  | .thset _ _ _ => some .c
  | .thget _ _ _ => some .c
  | .seql _ _ => some .c
  | .seqs _ _ _ _ => some .c
  | .loopb _ _ => some .c
  | .loopc _ _ _ _ => some .c
  | .ovw _ => some .c
  | .foot _ _ _ _ _ => some .c
  | .footv _ _ => some .c
  | .region _ _ _ _ => some .c
  | .regionEnd => some .c
  | .exitI => some .c
  | .yieldI => some .c
  | .locq _ _ => some .c
  | .csrr _ _ => some .c
  | .csrw _ _ => some .c
  | .trap _ _ => some .c
  | .eret => some .c
  | .waitmem _ _ _ _ => some .c
  | .scstopCyc _ _ _ => some .c
  | .scstopBeat _ _ _ => some .c
  | .scout _ _ _ _ _ _ => some .c
  | .scin _ _ _ _ _ => some .c
  | .scgo _ _ => some .c
  | .scown _ _ _ => some .c
  | .diaginjProd _ _ _ => some .c
  | .diaginjAcc _ _ _ => some .c
  | .diaginjVreg _ _ _ => some .c
  | .diaginjSpad _ _ _ => some .c
  | .tlbinv _ _ _ => some .c
  | .kissue _ _ _ => some .c
  | .sxfer _ _ => some .c
  | .cancel _ _ _ => some .c
  | .frameset _ _ _ => some .c
  | .aadd _ _ _ => some .a
  | .aaddImm _ _ _ => some .a
  | .amov _ _ => some .a
  | .amovCtrl _ _ => some .a
  | .ali _ _ => some .a
  | .amul _ _ _ => some .a
  | .amulImm _ _ _ => some .a
  | .ashl _ _ _ => some .a
  | .ashlImm _ _ _ => some .a
  | .aand _ _ _ => some .a
  | .aandImm _ _ _ => some .a
  | .ard _ _ _ => some .a
  | .awr _ _ _ => some .a
  | .ardg _ _ _ _ => some .a
  | .awrs _ _ _ => some .a
  | .astream _ _ _ => some .a
  | .aunbind _ => some .a
  | .atile _ _ _ _ => some .a
  | .apln _ _ => some .a
  | .aunpln _ _ _ => some .a
  | .acb _ _ _ _ => some .a
  | .acbGet _ _ => some .a
  | .acbRel _ => some .a
  | .vadd _ _ _ _ => some .v
  | .vsub _ _ _ _ => some .v
  | .vmul _ _ _ _ => some .v
  | .vmulh _ _ _ => some .v
  | .vma _ _ _ _ _ => some .v
  | .vdiv _ _ _ _ => some .v
  | .vsqrt _ _ _ => some .v
  | .vmin _ _ _ => some .v
  | .vmax _ _ _ => some .v
  | .vabs _ _ => some .v
  | .vneg _ _ => some .v
  | .vshl _ _ _ => some .v
  | .vshr _ _ _ => some .v
  | .vsar _ _ _ => some .v
  | .vand _ _ _ => some .v
  | .vor _ _ _ => some .v
  | .vxor _ _ _ => some .v
  | .vnot _ _ => some .v
  | .vpopc _ _ => some .v
  | .vclz _ _ => some .v
  | .vexp _ _ _ => some .v
  | .vexp2 _ _ _ => some .v
  | .vlog _ _ _ => some .v
  | .vlog2 _ _ _ => some .v
  | .vsin _ _ _ => some .v
  | .vcos _ _ _ => some .v
  | .vtanh _ _ _ => some .v
  | .verf _ _ _ => some .v
  | .vrcp _ _ _ => some .v
  | .vrsqrt _ _ _ => some .v
  | .vcvt _ _ _ _ _ => some .v
  | .vscale _ _ _ => some .v
  | .vscaleAdd _ _ _ => some .v
  | .vtag _ _ _ => some .v
  | .vseed _ => some .v
  | .vunt5 _ _ _ _ => some .v
  | .vun4o _ _ _ _ _ => some .v
  | .vpk _ _ _ _ _ => some .v
  | .vtadd _ _ _ _ => some .v
  | .vrsum _ _ _ => some .v
  | .vrmax _ _ => some .v
  | .vrmin _ _ => some .v
  | .vshuf _ _ _ => some .v
  | .vslide _ _ _ => some .v
  | .vbcast _ _ _ => some .v
  | .vsplat _ _ _ => some .v
  | .vextr _ _ _ => some .v
  | .vmov _ _ => some .v
  | .vli _ _ => some .v
  | .vcmp _ _ _ => some .v
  | .vminv => some .v
  | .vmpop _ => some .v
  | .vskip _ => some .v
  | .vmget _ _ => some .v
  | .vpark _ => some .v
  | .vunpark _ => some .v
  | .vpushm _ _ => some .v
  | .vpopm _ _ => some .v
  | .vsetsh _ => some .v
  | .mlease _ _ => some .m
  | .mfree _ _ => some .m
  | .mma _ _ _ _ _ => some .m
  | .mmah _ _ _ _ _ _ _ _ _ => some .m
  | .mmack _ _ _ _ _ => some .m
  | .mmabx _ _ _ _ => some .m
  | .mmaba _ _ _ _ => some .m
  | .mclr _ _ => some .m
  | .mclrAll _ _ => some .m
  | .mldacc _ _ _ => some .m
  | .mstacc _ _ _ _ => some .m
  | .mchk _ _ _ _ => some .m
  | .mseed _ _ _ => some .m
  | .xcopyLd _ _ _ _ _ _ _ _ => some .x
  | .xcopySt _ _ _ _ _ _ _ _ => some .x
  | .xcopySs _ _ _ _ => some .x
  | .xcopys _ _ _ _ _ _ => some .x
  | .xcb _ _ _ _ _ _ _ _ => some .x
  | .xhost _ _ _ _ _ _ _ => some .x
  | .xpeer _ _ _ _ _ => some .x
  | .xcoll _ _ _ _ _ _ _ => some .x
  | .xgath _ _ _ _ _ _ _ => some .x
  | .xpf _ _ _ _ _ => some .x
  | .xfence _ _ _ => some .x
  | _ => none

end Sys2Proof
end

