-- ==== Sys2Proof/WellFormed.lean ====
section
/-! DEFINITION. Which instructions an encoding can stand for: the source and destination codings of 05 R163-R167, and the
fields that an instruction's entry restricts. A step that is no lane is well formed. -/

namespace Sys2Proof

/-- The instruction's fields hold values that its encoding admits (05 R163-R168). The causes a decoder names for a field
outside them are reserved-source, reserved-destination and reserved-field. -/
def Instr.wf : Instr → Bool
  | .add _ s1 s2 => decide (s1.toNat < 36) && decide (s2.toNat < 36)
  | .addImm _ s1 _ => decide (s1.toNat < 36)
  | .sub _ s1 s2 => decide (s1.toNat < 36) && decide (s2.toNat < 36)
  | .subImm _ s1 _ => decide (s1.toNat < 36)
  | .mul _ s1 s2 => decide (s1.toNat < 36) && decide (s2.toNat < 36)
  | .mulImm _ s1 _ => decide (s1.toNat < 36)
  | .mulhu _ s1 s2 => decide (s1.toNat < 36) && decide (s2.toNat < 36)
  | .mulhuImm _ s1 _ => decide (s1.toNat < 36)
  | .mulhs _ s1 s2 => decide (s1.toNat < 36) && decide (s2.toNat < 36)
  | .mulhsImm _ s1 _ => decide (s1.toNat < 36)
  | .divu _ s1 s2 => decide (s1.toNat < 36) && decide (s2.toNat < 36)
  | .divuImm _ s1 _ => decide (s1.toNat < 36)
  | .divs _ s1 s2 => decide (s1.toNat < 36) && decide (s2.toNat < 36)
  | .divsImm _ s1 _ => decide (s1.toNat < 36)
  | .remu _ s1 s2 => decide (s1.toNat < 36) && decide (s2.toNat < 36)
  | .remuImm _ s1 _ => decide (s1.toNat < 36)
  | .rems _ s1 s2 => decide (s1.toNat < 36) && decide (s2.toNat < 36)
  | .remsImm _ s1 _ => decide (s1.toNat < 36)
  | .and _ s1 s2 => decide (s1.toNat < 36) && decide (s2.toNat < 36)
  | .andImm _ s1 _ => decide (s1.toNat < 36)
  | .or _ s1 s2 => decide (s1.toNat < 36) && decide (s2.toNat < 36)
  | .orImm _ s1 _ => decide (s1.toNat < 36)
  | .xor _ s1 s2 => decide (s1.toNat < 36) && decide (s2.toNat < 36)
  | .xorImm _ s1 _ => decide (s1.toNat < 36)
  | .andn _ s1 s2 => decide (s1.toNat < 36) && decide (s2.toNat < 36)
  | .andnImm _ s1 _ => decide (s1.toNat < 36)
  | .shl _ s1 s2 => decide (s1.toNat < 36) && decide (s2.toNat < 36)
  | .shlImm _ s1 _ => decide (s1.toNat < 36)
  | .shr _ s1 s2 => decide (s1.toNat < 36) && decide (s2.toNat < 36)
  | .shrImm _ s1 _ => decide (s1.toNat < 36)
  | .sar _ s1 s2 => decide (s1.toNat < 36) && decide (s2.toNat < 36)
  | .sarImm _ s1 _ => decide (s1.toNat < 36)
  | .rotl _ s1 s2 => decide (s1.toNat < 36) && decide (s2.toNat < 36)
  | .rotlImm _ s1 _ => decide (s1.toNat < 36)
  | .min _ s1 s2 => decide (s1.toNat < 36) && decide (s2.toNat < 36)
  | .minImm _ s1 _ => decide (s1.toNat < 36)
  | .max _ s1 s2 => decide (s1.toNat < 36) && decide (s2.toNat < 36)
  | .maxImm _ s1 _ => decide (s1.toNat < 36)
  | .minu _ s1 s2 => decide (s1.toNat < 36) && decide (s2.toNat < 36)
  | .minuImm _ s1 _ => decide (s1.toNat < 36)
  | .maxu _ s1 s2 => decide (s1.toNat < 36) && decide (s2.toNat < 36)
  | .maxuImm _ s1 _ => decide (s1.toNat < 36)
  | .clz _ s1 => decide (s1.toNat < 36)
  | .ctz _ s1 => decide (s1.toNat < 36)
  | .popc _ s1 => decide (s1.toNat < 36)
  | .sext _ s1 s2 => decide (s1.toNat < 36) && decide (s2.toNat < 36)
  | .sextImm _ s1 _ => decide (s1.toNat < 36)
  | .zext _ s1 s2 => decide (s1.toNat < 36) && decide (s2.toNat < 36)
  | .zextImm _ s1 _ => decide (s1.toNat < 36)
  | .sel _ s1 s2 s3 => decide (s1.toNat < 36) && decide (s2.toNat < 36) && decide (s3.toNat < 36)
  | .cmp _ s1 s2 _ => decide (s1.toNat < 36) && decide (s2.toNat < 36)
  | .bc _ s1 s2 _ => decide (s1.toNat < 36) && decide (s2.toNat < 36)
  | .br s1 => decide (s1.toNat < 36)
  | .callr s1 => decide (s1.toNat < 36)
  | .ld _ s1 sz sg _ => decide (s1.toNat < 36) && decide (¬ (sz = 3#2 ∧ sg = true))
  | .st rt s1 _ _ => decide (rt.toNat < 36) && decide (s1.toNat < 36)
  | .amoAdd _ s1 s2 _ _ => decide (s1.toNat < 36) && decide (s2.toNat < 36)
  | .amoAnd _ s1 s2 _ _ => decide (s1.toNat < 36) && decide (s2.toNat < 36)
  | .amoOr _ s1 s2 _ _ => decide (s1.toNat < 36) && decide (s2.toNat < 36)
  | .amoXor _ s1 s2 _ _ => decide (s1.toNat < 36) && decide (s2.toNat < 36)
  | .amoMin _ s1 s2 _ _ => decide (s1.toNat < 36) && decide (s2.toNat < 36)
  | .amoMax _ s1 s2 _ _ => decide (s1.toNat < 36) && decide (s2.toNat < 36)
  | .amoXch _ s1 s2 _ _ => decide (s1.toNat < 36) && decide (s2.toNat < 36)
  | .amoCas _ s1 s2 s3 _ _ => decide (s1.toNat < 36) && decide (s2.toNat < 36) && decide (s3.toNat < 36)
  | .acq _ s1 s2 _ => decide (s1.toNat < 36) && decide (s2.toNat < 36)
  | .rel _ s1 s2 _ => decide (s1.toNat < 36) && decide (s2.toNat < 36)
  | .bind s1 s2 s3 _ => decide (s1.toNat < 36) && decide (s2.toNat < 36) && decide (s3.toNat < 36)
  | .unbind s1 s2 _ => decide (s1.toNat < 36) && decide (s2.toNat < 36)
  | .setShape _ s1 s2 s3 _ => decide (s1.toNat < 36) && decide (s2.toNat < 36) && decide (s3.toNat < 36)
  | .getShape _ _ sl => decide (sl.toNat ≤ 4)
  | .thld _ s1 _ => decide (s1.toNat < 36)
  | .thst _ s1 _ => decide (s1.toNat < 36)
  | .thset _ fs s1 => decide (s1.toNat < 36) && decide (fs.toNat ≤ 14)
  | .thget _ _ fs => decide (fs.toNat ≤ 14)
  | .seql n s1 => decide (s1.toNat < 36) && decide (n.toNat ≤ 5)
  | .seqs n _ _ s1 => decide (s1.toNat < 36) && decide (n.toNat ≤ 5)
  | .loopc _ _ s1 s2 => decide (s1.toNat < 36) && decide (s2.toNat < 36)
  | .ovw n => decide (n.toNat ≤ 5)
  | .foot _ _ s1 s2 s3 => decide (s1.toNat < 36) && decide (s2.toNat < 36) && decide (s3.toNat < 36)
  | .region s1 s2 s3 s4 => decide (s1.toNat < 36) && decide (s2.toNat < 36) && decide (s3.toNat < 36) && decide (s4.toNat < 36)
  | .locq _ s1 => decide (s1.toNat < 36)
  | .csrw _ s1 => decide (s1.toNat < 36)
  | .trap s1 _ => decide (s1.toNat < 36)
  | .waitmem _ s1 s2 _ => decide (s1.toNat < 36) && decide (s2.toNat < 36)
  | .scstopCyc s1 s2 s3 => decide (s1.toNat < 36) && decide (s2.toNat < 36) && decide (s3.toNat < 36)
  | .scstopBeat s1 s2 s3 => decide (s1.toNat < 36) && decide (s2.toNat < 36) && decide (s3.toNat < 36)
  | .scout _ s1 s2 s3 s4 _ => decide (s1.toNat < 36) && decide (s2.toNat < 36) && decide (s3.toNat < 36) && decide (s4.toNat < 36)
  | .scin _ s1 s2 s3 _ => decide (s1.toNat < 36) && decide (s2.toNat < 36) && decide (s3.toNat < 36)
  | .scgo s1 s2 => decide (s1.toNat < 36) && decide (s2.toNat < 36)
  | .scown s1 s2 s3 => decide (s1.toNat < 36) && decide (s2.toNat < 36) && decide (s3.toNat < 36)
  | .diaginjProd s1 s2 s3 => decide (s1.toNat < 36) && decide (s2.toNat < 36) && decide (s3.toNat < 36)
  | .diaginjAcc s1 s2 s3 => decide (s1.toNat < 36) && decide (s2.toNat < 36) && decide (s3.toNat < 36)
  | .diaginjVreg s1 s2 s3 => decide (s1.toNat < 36) && decide (s2.toNat < 36) && decide (s3.toNat < 36)
  | .diaginjSpad s1 s2 s3 => decide (s1.toNat < 36) && decide (s2.toNat < 36) && decide (s3.toNat < 36)
  | .tlbinv kind s1 s2 => decide (s1.toNat < 36) && decide (s2.toNat < 36) && decide (kind.toNat ≤ 2)
  | .kissue _ s1 s2 => decide (s1.toNat < 36) && decide (s2.toNat < 36)
  | .sxfer _ s1 => decide (s1.toNat < 36)
  | .cancel _ s1 lvl => decide (s1.toNat < 36) && decide (1 ≤ lvl.toNat ∧ lvl.toNat ≤ 4)
  | .frameset s1 s2 _ => decide (s1.toNat < 36) && decide (s2.toNat < 36)
  | .aadd _ s1 s2 => decide (s1.toNat < 36) && decide (s2.toNat < 36)
  | .aaddImm _ s1 _ => decide (s1.toNat < 36)
  | .amov _ s1 => decide (s1.toNat < 36)
  | .amovCtrl _ e1 => decide (e1.toNat < 32)
  | .amul _ s1 s2 => decide (s1.toNat < 36) && decide (s2.toNat < 36)
  | .amulImm _ s1 _ => decide (s1.toNat < 36)
  | .ashl _ s1 s2 => decide (s1.toNat < 36) && decide (s2.toNat < 36)
  | .ashlImm _ s1 _ => decide (s1.toNat < 36)
  | .aand _ s1 s2 => decide (s1.toNat < 36) && decide (s2.toNat < 36)
  | .aandImm _ s1 _ => decide (s1.toNat < 36)
  | .ard q s1 _ => decide (s1.toNat < 36) && decide (q.toNat ≤ 3)
  | .awr q s1 _ => decide (s1.toNat < 36) && decide (q.toNat ≥ 4)
  | .ardg q s1 qi _ => decide (s1.toNat < 36) && decide (q.toNat ≤ 3) && decide (qi.toNat ≥ 4)
  | .awrs s1 qd qi => decide (s1.toNat < 36) && decide (qd.toNat ≥ 4) && decide (qi.toNat ≥ 4) && decide (qd ≠ qi)
  | .astream _ n _ => decide (n.toNat ≤ 23)
  | .atile _ s1 s2 _ => decide (s1.toNat < 36) && decide (s2.toNat < 36)
  | .acb _ s1 s2 _ => decide (s1.toNat < 36) && decide (s2.toNat < 36)
  | .vadd vd vs1 vs2 _ => decide (vd.toNat < 69) && decide (vs1.toNat < 72) && decide (vs2.toNat < 72)
  | .vsub vd vs1 vs2 _ => decide (vd.toNat < 69) && decide (vs1.toNat < 72) && decide (vs2.toNat < 72)
  | .vmul vd vs1 vs2 _ => decide (vd.toNat < 69) && decide (vs1.toNat < 72) && decide (vs2.toNat < 72)
  | .vmulh vd vs1 vs2 => decide (vd.toNat < 69) && decide (vs1.toNat < 72) && decide (vs2.toNat < 72)
  | .vma vd vs1 vs2 _ c => decide (vd.toNat < 69) && decide (vs1.toNat < 72) && decide (vs2.toNat < 72) && c.all fun e => decide (e.toNat < 72)
  | .vdiv vd vs1 vs2 _ => decide (vd.toNat < 69) && decide (vs1.toNat < 72) && decide (vs2.toNat < 72)
  | .vsqrt vd vs1 _ => decide (vd.toNat < 69) && decide (vs1.toNat < 72)
  | .vmin vd vs1 vs2 => decide (vd.toNat < 69) && decide (vs1.toNat < 72) && decide (vs2.toNat < 72)
  | .vmax vd vs1 vs2 => decide (vd.toNat < 69) && decide (vs1.toNat < 72) && decide (vs2.toNat < 72)
  | .vabs vd vs1 => decide (vd.toNat < 69) && decide (vs1.toNat < 72)
  | .vneg vd vs1 => decide (vd.toNat < 69) && decide (vs1.toNat < 72)
  | .vshl vd vs1 vs2 => decide (vd.toNat < 69) && decide (vs1.toNat < 72) && decide (vs2.toNat < 72)
  | .vshr vd vs1 vs2 => decide (vd.toNat < 69) && decide (vs1.toNat < 72) && decide (vs2.toNat < 72)
  | .vsar vd vs1 vs2 => decide (vd.toNat < 69) && decide (vs1.toNat < 72) && decide (vs2.toNat < 72)
  | .vand vd vs1 vs2 => decide (vd.toNat < 69) && decide (vs1.toNat < 72) && decide (vs2.toNat < 72)
  | .vor vd vs1 vs2 => decide (vd.toNat < 69) && decide (vs1.toNat < 72) && decide (vs2.toNat < 72)
  | .vxor vd vs1 vs2 => decide (vd.toNat < 69) && decide (vs1.toNat < 72) && decide (vs2.toNat < 72)
  | .vnot vd vs1 => decide (vd.toNat < 69) && decide (vs1.toNat < 72)
  | .vpopc vd vs1 => decide (vd.toNat < 69) && decide (vs1.toNat < 72)
  | .vclz vd vs1 => decide (vd.toNat < 69) && decide (vs1.toNat < 72)
  | .vexp vd vs1 _ => decide (vd.toNat < 69) && decide (vs1.toNat < 72)
  | .vexp2 vd vs1 _ => decide (vd.toNat < 69) && decide (vs1.toNat < 72)
  | .vlog vd vs1 _ => decide (vd.toNat < 69) && decide (vs1.toNat < 72)
  | .vlog2 vd vs1 _ => decide (vd.toNat < 69) && decide (vs1.toNat < 72)
  | .vsin vd vs1 _ => decide (vd.toNat < 69) && decide (vs1.toNat < 72)
  | .vcos vd vs1 _ => decide (vd.toNat < 69) && decide (vs1.toNat < 72)
  | .vtanh vd vs1 _ => decide (vd.toNat < 69) && decide (vs1.toNat < 72)
  | .verf vd vs1 _ => decide (vd.toNat < 69) && decide (vs1.toNat < 72)
  | .vrcp vd vs1 _ => decide (vd.toNat < 69) && decide (vs1.toNat < 72)
  | .vrsqrt vd vs1 _ => decide (vd.toNat < 69) && decide (vs1.toNat < 72)
  | .vcvt vd vs1 _ t _ => decide (vd.toNat < 69) && decide (vs1.toNat < 72) && decide (t.toNat ≤ 10)
  | .vscale vd vs1 _ => decide (vd.toNat < 69) && decide (vs1.toNat < 72)
  | .vscaleAdd vd vs1 _ => decide (vd.toNat < 69) && decide (vs1.toNat < 72)
  | .vtag vd vs1 _ => decide (vd.toNat < 69) && decide (vs1.toNat < 72)
  | .vseed xs => decide (xs.toNat < 32)
  | .vunt5 vd vs1 _ _ => decide (vd.toNat < 69) && decide (vs1.toNat < 72)
  | .vun4o vd vs1 _ t _ => decide (vd.toNat < 69) && decide (vs1.toNat < 72) && decide (t.toNat ≤ 3)
  | .vpk vd vs1 _ t _ => decide (vd.toNat < 69) && decide (vs1.toNat < 72) && decide (t.toNat ≤ 2)
  | .vtadd vd vs1 vs2 _ => decide (vd.toNat < 69) && decide (vs1.toNat < 72) && decide (vs2.toNat < 72)
  | .vrsum vd vs1 _ => decide (vd.toNat < 69) && decide (vs1.toNat < 72)
  | .vrmax vd vs1 => decide (vd.toNat < 69) && decide (vs1.toNat < 72)
  | .vrmin vd vs1 => decide (vd.toNat < 69) && decide (vs1.toNat < 72)
  | .vshuf vd vs1 vs2 => decide (vd.toNat < 69) && decide (vs1.toNat < 72) && decide (vs2.toNat < 72)
  | .vslide vd vs1 _ => decide (vd.toNat < 69) && decide (vs1.toNat < 72)
  | .vbcast vd vs1 _ => decide (vd.toNat < 69) && decide (vs1.toNat < 72)
  | .vsplat vd xs _ => decide (vd.toNat < 69) && decide (xs.toNat < 32)
  | .vextr _ vs1 _ => decide (vs1.toNat < 72)
  | .footv _ vs => decide (vs.toNat < 72)
  | .vmov vd vs1 => decide (vd.toNat < 69) && decide (vs1.toNat < 72)
  | .vli vd _ => decide (vd.toNat < 69)
  | .vcmp vs1 vs2 cond => decide (vs1.toNat < 72) && decide (vs2.toNat < 72) && decide (cond.toNat ≤ 6)
  | .vmget vd _ => decide (vd.toNat < 69)
  | .vpushm vf vl => decide (vf.toNat ≤ vl.toNat)
  | .vpopm vf vl => decide (vf.toNat ≤ vl.toNat)
  | .mmah _ _ _ _ _ _ _ e1 e2 => decide (e1.toNat < 32) && decide (e2.toNat < 32)
  | .mseed _ xs _ => decide (xs.toNat < 32)
  | .xcopyLd _ _ _ _ e1 e2 e3 e4 => decide (e1.toNat < 32) && decide (e2.toNat < 32) && decide (e3.toNat < 32) && decide (e4.toNat < 32)
  | .xcopySt _ _ _ _ e1 e2 e3 e4 => decide (e1.toNat < 32) && decide (e2.toNat < 32) && decide (e3.toNat < 32) && decide (e4.toNat < 32)
  | .xcopys _ _ _ _ e1 e2 => decide (e1.toNat < 32) && decide (e2.toNat < 32)
  | .xcb _ _ _ _ e1 e2 e3 e4 => decide (e1.toNat < 32) && decide (e2.toNat < 32) && decide (e3.toNat < 32) && decide (e4.toNat < 32)
  | .xhost _ _ _ _ e1 e2 e3 => decide (e1.toNat < 32) && decide (e2.toNat < 32) && decide (e3.toNat < 32)
  | .xpeer _ _ _ _ e1 => decide (e1.toNat < 32)
  | .xcoll _ _ op _ _ e1 e2 => decide (e1.toNat < 32) && decide (e2.toNat < 32) && decide (op.toNat ≤ 2)
  | .xgath q _ _ _ _ e1 e2 => decide (e1.toNat < 32) && decide (e2.toNat < 32) && decide (q.toNat ≤ 3)
  | .xpf _ e1 e2 e3 e4 => decide (e1.toNat < 32) && decide (e2.toNat < 32) && decide (e3.toNat < 32) && decide (e4.toNat < 32)
  | _ => true

end Sys2Proof
end

