-- ==== Sys2Proof/Decode.lean ====
section
/-! DEFINITION. The decoder, from the words of an instruction to an Instr or the cause of the encoding class that it raises
(05 R151-R184), and after it the encoder. Both follow the formats of 05 R173-R178 and the opcode maps of R180. The order of
causes is that of R183: ext-kind, illegal-opcode, ext-misuse, reserved-field, then reserved-source and reserved-destination
in the order in which the fields are checked. The immediate-range cause and those after it belong to the meanings. -/

namespace Sys2Proof

/-- Bits [lo + n - 1 : lo] of a word (00 R5). -/
def fld (n lo : Nat) (w : Nat) : BitVec n := BitVec.ofNat n (w / 2 ^ lo)

/-- A check of the decoder. -/
def need (b : Bool) (c : Cause) : Except Cause Unit := if b then pure () else throw c

/-- What the EXT lanes of one instruction supply (05 R157-R161), less the modifiers. -/
structure Ext where
  e0 : Option (BitVec 28)
  e2 : Option (BitVec 28)
  deriving DecidableEq, Repr

/-- No EXT lane that supplies an operand. -/
def Ext.none : Ext := ⟨Option.none, Option.none⟩

/-- The extra-operand lane's fields; all zero, naming x0, when there is none (06 R189). -/
def Ext.e2w (x : Ext) : Nat := (x.e2.map BitVec.toNat).getD 0

/-- The modifiers of an EXT lane of kind 0b0001 (05 R160). -/
structure Mods where
  wait  : BitVec 8
  first : Bool
  last  : Bool
  stage : BitVec 4
  level : BitVec 3
  deriving DecidableEq, Repr

/-- No modifier lane. -/
def Mods.none : Mods := ⟨0, false, false, 0, 0⟩

/-- The bits of a modifier lane below its kind. -/
def Mods.ofBits (w : Nat) : Mods :=
  ⟨fld 8 20 w, fld 1 19 w = 1#1, fld 1 18 w = 1#1, fld 4 14 w, fld 3 11 w⟩

/-- 05 R174. -/
def Cond.ofNat? : Nat → Option Cond
  | 0 => some .eq | 1 => some .ne | 2 => some .lt | 3 => some .ge | 4 => some .ltu | 5 => some .geu | _ => none

/-- 05 R174. -/
def Cond.toNat : Cond → Nat
  | .eq => 0 | .ne => 1 | .lt => 2 | .ge => 3 | .ltu => 4 | .geu => 5

/-- 04 R131, 05 R173. -/
def Scope.ofNat? : Nat → Option Scope
  | 0 => some .core | 1 => some .ltn | 2 => some .die | 3 => some .dev | 4 => some .sys | _ => none

/-- 04 R131. -/
def Scope.toNat : Scope → Nat
  | .core => 0 | .ltn => 1 | .die => 2 | .dev => 3 | .sys => 4

/-- The kv and k fields of a command, kv above k (05 R179). -/
def encTok : Tok → Nat
  | none => 0
  | some k => 8 + k.toNat

/-- The fv and f fields of a copy command (05 R179). -/
def encFl : Fl → Nat
  | none => 0
  | some f => 32 + f.toNat

/-- An opcode whose form selector names no form: the selector is a reserved field (09 R329, R339); `extra` says whether the
opcode takes extra operands, so that ext-misuse comes first where it does not (05 R183). -/
def decReserved (extra : Bool) (x : Ext) : Except Cause Instr := do
  need (x.e0.isNone && (extra || x.e2.isNone)) .extMisuse
  throw .reservedField

/-- NOP (R180). -/
def decNop (e : Engine) (w : Nat) (x : Ext) : Except Cause Instr := do
  need (x.e0.isNone && x.e2.isNone) .extMisuse
  need (decide (fld 24 0 w = 0#24)) .reservedField
  pure (.nop e)

/-- END (R214). -/
def decEndE (e : Engine) (w : Nat) (x : Ext) : Except Cause Instr := do
  need (x.e0.isNone && x.e2.isNone) .extMisuse
  need (decide (fld 24 0 w = 0#24)) .reservedField
  pure (.endE e)

/-- FINC (R209). -/
def decFinc (e : Engine) (w : Nat) (x : Ext) : Except Cause Instr := do
  need (x.e2.isNone) .extMisuse
  let f : FReg := fld 5 19 w
  let n : Imm 18 := ⟨x.e0, fld 18 0 w⟩
  need (decide (fld 1 18 w = 0#1)) .reservedField
  pure (.finc e f n)

/-- FWAIT (R211). -/
def decFwait (e : Engine) (w : Nat) (x : Ext) : Except Cause Instr := do
  need (x.e2.isNone) .extMisuse
  let f : FReg := fld 5 19 w
  let sub : Bool := fld 1 18 w = 1#1
  let n : Imm 18 := ⟨x.e0, fld 18 0 w⟩
  pure (.fwait e f sub n)

/-- FSET (R210). -/
def decFset (e : Engine) (w : Nat) (x : Ext) : Except Cause Instr := do
  need (x.e2.isNone) .extMisuse
  let f : FReg := fld 5 19 w
  let n : Imm 18 := ⟨x.e0, fld 18 0 w⟩
  need (decide (fld 1 18 w = 0#1)) .reservedField
  pure (.fset e f n)

/-- KWAIT (R213). -/
def decKwait (e : Engine) (w : Nat) (x : Ext) : Except Cause Instr := do
  need (x.e2.isNone) .extMisuse
  let k : KReg := fld 3 21 w
  let n : Imm 6 := ⟨x.e0, fld 6 15 w⟩
  need (decide (fld 15 0 w = 0#15)) .reservedField
  pure (.kwait e k n)

/-- ADD (R190). -/
def decAdd (w : Nat) (x : Ext) : Except Cause Instr := do
  need (x.e0.isNone && x.e2.isNone) .extMisuse
  let rd : CReg := fld 5 19 w
  let s1 : CSrc := fld 6 13 w
  let s2 : CSrc := fld 6 6 w
  need (decide (fld 6 0 w = 0#6)) .reservedField
  need (decide (s1.toNat < 36)) .reservedSource
  need (decide (s2.toNat < 36)) .reservedSource
  pure (.add rd s1 s2)

/-- ADD_IMM (R190). -/
def decAddImm (w : Nat) (x : Ext) : Except Cause Instr := do
  need (x.e2.isNone) .extMisuse
  let rd : CReg := fld 5 19 w
  let s1 : CSrc := fld 6 13 w
  let imm : Imm 12 := ⟨x.e0, fld 12 0 w⟩
  need (decide (s1.toNat < 36)) .reservedSource
  pure (.addImm rd s1 imm)

/-- SUB (R190). -/
def decSub (w : Nat) (x : Ext) : Except Cause Instr := do
  need (x.e0.isNone && x.e2.isNone) .extMisuse
  let rd : CReg := fld 5 19 w
  let s1 : CSrc := fld 6 13 w
  let s2 : CSrc := fld 6 6 w
  need (decide (fld 6 0 w = 0#6)) .reservedField
  need (decide (s1.toNat < 36)) .reservedSource
  need (decide (s2.toNat < 36)) .reservedSource
  pure (.sub rd s1 s2)

/-- SUB_IMM (R190). -/
def decSubImm (w : Nat) (x : Ext) : Except Cause Instr := do
  need (x.e2.isNone) .extMisuse
  let rd : CReg := fld 5 19 w
  let s1 : CSrc := fld 6 13 w
  let imm : Imm 12 := ⟨x.e0, fld 12 0 w⟩
  need (decide (s1.toNat < 36)) .reservedSource
  pure (.subImm rd s1 imm)

/-- MUL (R190). -/
def decMul (w : Nat) (x : Ext) : Except Cause Instr := do
  need (x.e0.isNone && x.e2.isNone) .extMisuse
  let rd : CReg := fld 5 19 w
  let s1 : CSrc := fld 6 13 w
  let s2 : CSrc := fld 6 6 w
  need (decide (fld 6 0 w = 0#6)) .reservedField
  need (decide (s1.toNat < 36)) .reservedSource
  need (decide (s2.toNat < 36)) .reservedSource
  pure (.mul rd s1 s2)

/-- MUL_IMM (R190). -/
def decMulImm (w : Nat) (x : Ext) : Except Cause Instr := do
  need (x.e2.isNone) .extMisuse
  let rd : CReg := fld 5 19 w
  let s1 : CSrc := fld 6 13 w
  let imm : Imm 12 := ⟨x.e0, fld 12 0 w⟩
  need (decide (s1.toNat < 36)) .reservedSource
  pure (.mulImm rd s1 imm)

/-- MULHU (R190). -/
def decMulhu (w : Nat) (x : Ext) : Except Cause Instr := do
  need (x.e0.isNone && x.e2.isNone) .extMisuse
  let rd : CReg := fld 5 19 w
  let s1 : CSrc := fld 6 13 w
  let s2 : CSrc := fld 6 6 w
  need (decide (fld 6 0 w = 0#6)) .reservedField
  need (decide (s1.toNat < 36)) .reservedSource
  need (decide (s2.toNat < 36)) .reservedSource
  pure (.mulhu rd s1 s2)

/-- MULHU_IMM (R190). -/
def decMulhuImm (w : Nat) (x : Ext) : Except Cause Instr := do
  need (x.e2.isNone) .extMisuse
  let rd : CReg := fld 5 19 w
  let s1 : CSrc := fld 6 13 w
  let imm : Imm 12 := ⟨x.e0, fld 12 0 w⟩
  need (decide (s1.toNat < 36)) .reservedSource
  pure (.mulhuImm rd s1 imm)

/-- MULHS (R190). -/
def decMulhs (w : Nat) (x : Ext) : Except Cause Instr := do
  need (x.e0.isNone && x.e2.isNone) .extMisuse
  let rd : CReg := fld 5 19 w
  let s1 : CSrc := fld 6 13 w
  let s2 : CSrc := fld 6 6 w
  need (decide (fld 6 0 w = 0#6)) .reservedField
  need (decide (s1.toNat < 36)) .reservedSource
  need (decide (s2.toNat < 36)) .reservedSource
  pure (.mulhs rd s1 s2)

/-- MULHS_IMM (R190). -/
def decMulhsImm (w : Nat) (x : Ext) : Except Cause Instr := do
  need (x.e2.isNone) .extMisuse
  let rd : CReg := fld 5 19 w
  let s1 : CSrc := fld 6 13 w
  let imm : Imm 12 := ⟨x.e0, fld 12 0 w⟩
  need (decide (s1.toNat < 36)) .reservedSource
  pure (.mulhsImm rd s1 imm)

/-- DIVU (R190). -/
def decDivu (w : Nat) (x : Ext) : Except Cause Instr := do
  need (x.e0.isNone && x.e2.isNone) .extMisuse
  let rd : CReg := fld 5 19 w
  let s1 : CSrc := fld 6 13 w
  let s2 : CSrc := fld 6 6 w
  need (decide (fld 6 0 w = 0#6)) .reservedField
  need (decide (s1.toNat < 36)) .reservedSource
  need (decide (s2.toNat < 36)) .reservedSource
  pure (.divu rd s1 s2)

/-- DIVU_IMM (R190). -/
def decDivuImm (w : Nat) (x : Ext) : Except Cause Instr := do
  need (x.e2.isNone) .extMisuse
  let rd : CReg := fld 5 19 w
  let s1 : CSrc := fld 6 13 w
  let imm : Imm 12 := ⟨x.e0, fld 12 0 w⟩
  need (decide (s1.toNat < 36)) .reservedSource
  pure (.divuImm rd s1 imm)

/-- DIVS (R190). -/
def decDivs (w : Nat) (x : Ext) : Except Cause Instr := do
  need (x.e0.isNone && x.e2.isNone) .extMisuse
  let rd : CReg := fld 5 19 w
  let s1 : CSrc := fld 6 13 w
  let s2 : CSrc := fld 6 6 w
  need (decide (fld 6 0 w = 0#6)) .reservedField
  need (decide (s1.toNat < 36)) .reservedSource
  need (decide (s2.toNat < 36)) .reservedSource
  pure (.divs rd s1 s2)

/-- DIVS_IMM (R190). -/
def decDivsImm (w : Nat) (x : Ext) : Except Cause Instr := do
  need (x.e2.isNone) .extMisuse
  let rd : CReg := fld 5 19 w
  let s1 : CSrc := fld 6 13 w
  let imm : Imm 12 := ⟨x.e0, fld 12 0 w⟩
  need (decide (s1.toNat < 36)) .reservedSource
  pure (.divsImm rd s1 imm)

/-- REMU (R190). -/
def decRemu (w : Nat) (x : Ext) : Except Cause Instr := do
  need (x.e0.isNone && x.e2.isNone) .extMisuse
  let rd : CReg := fld 5 19 w
  let s1 : CSrc := fld 6 13 w
  let s2 : CSrc := fld 6 6 w
  need (decide (fld 6 0 w = 0#6)) .reservedField
  need (decide (s1.toNat < 36)) .reservedSource
  need (decide (s2.toNat < 36)) .reservedSource
  pure (.remu rd s1 s2)

/-- REMU_IMM (R190). -/
def decRemuImm (w : Nat) (x : Ext) : Except Cause Instr := do
  need (x.e2.isNone) .extMisuse
  let rd : CReg := fld 5 19 w
  let s1 : CSrc := fld 6 13 w
  let imm : Imm 12 := ⟨x.e0, fld 12 0 w⟩
  need (decide (s1.toNat < 36)) .reservedSource
  pure (.remuImm rd s1 imm)

/-- REMS (R190). -/
def decRems (w : Nat) (x : Ext) : Except Cause Instr := do
  need (x.e0.isNone && x.e2.isNone) .extMisuse
  let rd : CReg := fld 5 19 w
  let s1 : CSrc := fld 6 13 w
  let s2 : CSrc := fld 6 6 w
  need (decide (fld 6 0 w = 0#6)) .reservedField
  need (decide (s1.toNat < 36)) .reservedSource
  need (decide (s2.toNat < 36)) .reservedSource
  pure (.rems rd s1 s2)

/-- REMS_IMM (R190). -/
def decRemsImm (w : Nat) (x : Ext) : Except Cause Instr := do
  need (x.e2.isNone) .extMisuse
  let rd : CReg := fld 5 19 w
  let s1 : CSrc := fld 6 13 w
  let imm : Imm 12 := ⟨x.e0, fld 12 0 w⟩
  need (decide (s1.toNat < 36)) .reservedSource
  pure (.remsImm rd s1 imm)

/-- AND (R190). -/
def decAnd (w : Nat) (x : Ext) : Except Cause Instr := do
  need (x.e0.isNone && x.e2.isNone) .extMisuse
  let rd : CReg := fld 5 19 w
  let s1 : CSrc := fld 6 13 w
  let s2 : CSrc := fld 6 6 w
  need (decide (fld 6 0 w = 0#6)) .reservedField
  need (decide (s1.toNat < 36)) .reservedSource
  need (decide (s2.toNat < 36)) .reservedSource
  pure (.and rd s1 s2)

/-- AND_IMM (R190). -/
def decAndImm (w : Nat) (x : Ext) : Except Cause Instr := do
  need (x.e2.isNone) .extMisuse
  let rd : CReg := fld 5 19 w
  let s1 : CSrc := fld 6 13 w
  let imm : Imm 12 := ⟨x.e0, fld 12 0 w⟩
  need (decide (s1.toNat < 36)) .reservedSource
  pure (.andImm rd s1 imm)

/-- OR (R190). -/
def decOr (w : Nat) (x : Ext) : Except Cause Instr := do
  need (x.e0.isNone && x.e2.isNone) .extMisuse
  let rd : CReg := fld 5 19 w
  let s1 : CSrc := fld 6 13 w
  let s2 : CSrc := fld 6 6 w
  need (decide (fld 6 0 w = 0#6)) .reservedField
  need (decide (s1.toNat < 36)) .reservedSource
  need (decide (s2.toNat < 36)) .reservedSource
  pure (.or rd s1 s2)

/-- OR_IMM (R190). -/
def decOrImm (w : Nat) (x : Ext) : Except Cause Instr := do
  need (x.e2.isNone) .extMisuse
  let rd : CReg := fld 5 19 w
  let s1 : CSrc := fld 6 13 w
  let imm : Imm 12 := ⟨x.e0, fld 12 0 w⟩
  need (decide (s1.toNat < 36)) .reservedSource
  pure (.orImm rd s1 imm)

/-- XOR (R190). -/
def decXor (w : Nat) (x : Ext) : Except Cause Instr := do
  need (x.e0.isNone && x.e2.isNone) .extMisuse
  let rd : CReg := fld 5 19 w
  let s1 : CSrc := fld 6 13 w
  let s2 : CSrc := fld 6 6 w
  need (decide (fld 6 0 w = 0#6)) .reservedField
  need (decide (s1.toNat < 36)) .reservedSource
  need (decide (s2.toNat < 36)) .reservedSource
  pure (.xor rd s1 s2)

/-- XOR_IMM (R190). -/
def decXorImm (w : Nat) (x : Ext) : Except Cause Instr := do
  need (x.e2.isNone) .extMisuse
  let rd : CReg := fld 5 19 w
  let s1 : CSrc := fld 6 13 w
  let imm : Imm 12 := ⟨x.e0, fld 12 0 w⟩
  need (decide (s1.toNat < 36)) .reservedSource
  pure (.xorImm rd s1 imm)

/-- ANDN (R190). -/
def decAndn (w : Nat) (x : Ext) : Except Cause Instr := do
  need (x.e0.isNone && x.e2.isNone) .extMisuse
  let rd : CReg := fld 5 19 w
  let s1 : CSrc := fld 6 13 w
  let s2 : CSrc := fld 6 6 w
  need (decide (fld 6 0 w = 0#6)) .reservedField
  need (decide (s1.toNat < 36)) .reservedSource
  need (decide (s2.toNat < 36)) .reservedSource
  pure (.andn rd s1 s2)

/-- ANDN_IMM (R190). -/
def decAndnImm (w : Nat) (x : Ext) : Except Cause Instr := do
  need (x.e2.isNone) .extMisuse
  let rd : CReg := fld 5 19 w
  let s1 : CSrc := fld 6 13 w
  let imm : Imm 12 := ⟨x.e0, fld 12 0 w⟩
  need (decide (s1.toNat < 36)) .reservedSource
  pure (.andnImm rd s1 imm)

/-- SHL (R190). -/
def decShl (w : Nat) (x : Ext) : Except Cause Instr := do
  need (x.e0.isNone && x.e2.isNone) .extMisuse
  let rd : CReg := fld 5 19 w
  let s1 : CSrc := fld 6 13 w
  let s2 : CSrc := fld 6 6 w
  need (decide (fld 6 0 w = 0#6)) .reservedField
  need (decide (s1.toNat < 36)) .reservedSource
  need (decide (s2.toNat < 36)) .reservedSource
  pure (.shl rd s1 s2)

/-- SHL_IMM (R190). -/
def decShlImm (w : Nat) (x : Ext) : Except Cause Instr := do
  need (x.e2.isNone) .extMisuse
  let rd : CReg := fld 5 19 w
  let s1 : CSrc := fld 6 13 w
  let imm : Imm 12 := ⟨x.e0, fld 12 0 w⟩
  need (decide (s1.toNat < 36)) .reservedSource
  pure (.shlImm rd s1 imm)

/-- SHR (R190). -/
def decShr (w : Nat) (x : Ext) : Except Cause Instr := do
  need (x.e0.isNone && x.e2.isNone) .extMisuse
  let rd : CReg := fld 5 19 w
  let s1 : CSrc := fld 6 13 w
  let s2 : CSrc := fld 6 6 w
  need (decide (fld 6 0 w = 0#6)) .reservedField
  need (decide (s1.toNat < 36)) .reservedSource
  need (decide (s2.toNat < 36)) .reservedSource
  pure (.shr rd s1 s2)

/-- SHR_IMM (R190). -/
def decShrImm (w : Nat) (x : Ext) : Except Cause Instr := do
  need (x.e2.isNone) .extMisuse
  let rd : CReg := fld 5 19 w
  let s1 : CSrc := fld 6 13 w
  let imm : Imm 12 := ⟨x.e0, fld 12 0 w⟩
  need (decide (s1.toNat < 36)) .reservedSource
  pure (.shrImm rd s1 imm)

/-- SAR (R190). -/
def decSar (w : Nat) (x : Ext) : Except Cause Instr := do
  need (x.e0.isNone && x.e2.isNone) .extMisuse
  let rd : CReg := fld 5 19 w
  let s1 : CSrc := fld 6 13 w
  let s2 : CSrc := fld 6 6 w
  need (decide (fld 6 0 w = 0#6)) .reservedField
  need (decide (s1.toNat < 36)) .reservedSource
  need (decide (s2.toNat < 36)) .reservedSource
  pure (.sar rd s1 s2)

/-- SAR_IMM (R190). -/
def decSarImm (w : Nat) (x : Ext) : Except Cause Instr := do
  need (x.e2.isNone) .extMisuse
  let rd : CReg := fld 5 19 w
  let s1 : CSrc := fld 6 13 w
  let imm : Imm 12 := ⟨x.e0, fld 12 0 w⟩
  need (decide (s1.toNat < 36)) .reservedSource
  pure (.sarImm rd s1 imm)

/-- ROTL (R190). -/
def decRotl (w : Nat) (x : Ext) : Except Cause Instr := do
  need (x.e0.isNone && x.e2.isNone) .extMisuse
  let rd : CReg := fld 5 19 w
  let s1 : CSrc := fld 6 13 w
  let s2 : CSrc := fld 6 6 w
  need (decide (fld 6 0 w = 0#6)) .reservedField
  need (decide (s1.toNat < 36)) .reservedSource
  need (decide (s2.toNat < 36)) .reservedSource
  pure (.rotl rd s1 s2)

/-- ROTL_IMM (R190). -/
def decRotlImm (w : Nat) (x : Ext) : Except Cause Instr := do
  need (x.e2.isNone) .extMisuse
  let rd : CReg := fld 5 19 w
  let s1 : CSrc := fld 6 13 w
  let imm : Imm 12 := ⟨x.e0, fld 12 0 w⟩
  need (decide (s1.toNat < 36)) .reservedSource
  pure (.rotlImm rd s1 imm)

/-- MIN (R190). -/
def decMin (w : Nat) (x : Ext) : Except Cause Instr := do
  need (x.e0.isNone && x.e2.isNone) .extMisuse
  let rd : CReg := fld 5 19 w
  let s1 : CSrc := fld 6 13 w
  let s2 : CSrc := fld 6 6 w
  need (decide (fld 6 0 w = 0#6)) .reservedField
  need (decide (s1.toNat < 36)) .reservedSource
  need (decide (s2.toNat < 36)) .reservedSource
  pure (.min rd s1 s2)

/-- MIN_IMM (R190). -/
def decMinImm (w : Nat) (x : Ext) : Except Cause Instr := do
  need (x.e2.isNone) .extMisuse
  let rd : CReg := fld 5 19 w
  let s1 : CSrc := fld 6 13 w
  let imm : Imm 12 := ⟨x.e0, fld 12 0 w⟩
  need (decide (s1.toNat < 36)) .reservedSource
  pure (.minImm rd s1 imm)

/-- MAX (R190). -/
def decMax (w : Nat) (x : Ext) : Except Cause Instr := do
  need (x.e0.isNone && x.e2.isNone) .extMisuse
  let rd : CReg := fld 5 19 w
  let s1 : CSrc := fld 6 13 w
  let s2 : CSrc := fld 6 6 w
  need (decide (fld 6 0 w = 0#6)) .reservedField
  need (decide (s1.toNat < 36)) .reservedSource
  need (decide (s2.toNat < 36)) .reservedSource
  pure (.max rd s1 s2)

/-- MAX_IMM (R190). -/
def decMaxImm (w : Nat) (x : Ext) : Except Cause Instr := do
  need (x.e2.isNone) .extMisuse
  let rd : CReg := fld 5 19 w
  let s1 : CSrc := fld 6 13 w
  let imm : Imm 12 := ⟨x.e0, fld 12 0 w⟩
  need (decide (s1.toNat < 36)) .reservedSource
  pure (.maxImm rd s1 imm)

/-- MINU (R190). -/
def decMinu (w : Nat) (x : Ext) : Except Cause Instr := do
  need (x.e0.isNone && x.e2.isNone) .extMisuse
  let rd : CReg := fld 5 19 w
  let s1 : CSrc := fld 6 13 w
  let s2 : CSrc := fld 6 6 w
  need (decide (fld 6 0 w = 0#6)) .reservedField
  need (decide (s1.toNat < 36)) .reservedSource
  need (decide (s2.toNat < 36)) .reservedSource
  pure (.minu rd s1 s2)

/-- MINU_IMM (R190). -/
def decMinuImm (w : Nat) (x : Ext) : Except Cause Instr := do
  need (x.e2.isNone) .extMisuse
  let rd : CReg := fld 5 19 w
  let s1 : CSrc := fld 6 13 w
  let imm : Imm 12 := ⟨x.e0, fld 12 0 w⟩
  need (decide (s1.toNat < 36)) .reservedSource
  pure (.minuImm rd s1 imm)

/-- MAXU (R190). -/
def decMaxu (w : Nat) (x : Ext) : Except Cause Instr := do
  need (x.e0.isNone && x.e2.isNone) .extMisuse
  let rd : CReg := fld 5 19 w
  let s1 : CSrc := fld 6 13 w
  let s2 : CSrc := fld 6 6 w
  need (decide (fld 6 0 w = 0#6)) .reservedField
  need (decide (s1.toNat < 36)) .reservedSource
  need (decide (s2.toNat < 36)) .reservedSource
  pure (.maxu rd s1 s2)

/-- MAXU_IMM (R190). -/
def decMaxuImm (w : Nat) (x : Ext) : Except Cause Instr := do
  need (x.e2.isNone) .extMisuse
  let rd : CReg := fld 5 19 w
  let s1 : CSrc := fld 6 13 w
  let imm : Imm 12 := ⟨x.e0, fld 12 0 w⟩
  need (decide (s1.toNat < 36)) .reservedSource
  pure (.maxuImm rd s1 imm)

/-- CLZ (R190). -/
def decClz (w : Nat) (x : Ext) : Except Cause Instr := do
  need (x.e0.isNone && x.e2.isNone) .extMisuse
  let rd : CReg := fld 5 19 w
  let s1 : CSrc := fld 6 13 w
  need (decide (fld 13 0 w = 0#13)) .reservedField
  need (decide (s1.toNat < 36)) .reservedSource
  pure (.clz rd s1)

/-- CTZ (R190). -/
def decCtz (w : Nat) (x : Ext) : Except Cause Instr := do
  need (x.e0.isNone && x.e2.isNone) .extMisuse
  let rd : CReg := fld 5 19 w
  let s1 : CSrc := fld 6 13 w
  need (decide (fld 13 0 w = 0#13)) .reservedField
  need (decide (s1.toNat < 36)) .reservedSource
  pure (.ctz rd s1)

/-- POPC (R190). -/
def decPopc (w : Nat) (x : Ext) : Except Cause Instr := do
  need (x.e0.isNone && x.e2.isNone) .extMisuse
  let rd : CReg := fld 5 19 w
  let s1 : CSrc := fld 6 13 w
  need (decide (fld 13 0 w = 0#13)) .reservedField
  need (decide (s1.toNat < 36)) .reservedSource
  pure (.popc rd s1)

/-- SEXT (R190). -/
def decSext (w : Nat) (x : Ext) : Except Cause Instr := do
  need (x.e0.isNone && x.e2.isNone) .extMisuse
  let rd : CReg := fld 5 19 w
  let s1 : CSrc := fld 6 13 w
  let s2 : CSrc := fld 6 6 w
  need (decide (fld 6 0 w = 0#6)) .reservedField
  need (decide (s1.toNat < 36)) .reservedSource
  need (decide (s2.toNat < 36)) .reservedSource
  pure (.sext rd s1 s2)

/-- SEXT_IMM (R190). -/
def decSextImm (w : Nat) (x : Ext) : Except Cause Instr := do
  need (x.e2.isNone) .extMisuse
  let rd : CReg := fld 5 19 w
  let s1 : CSrc := fld 6 13 w
  let imm : Imm 12 := ⟨x.e0, fld 12 0 w⟩
  need (decide (s1.toNat < 36)) .reservedSource
  pure (.sextImm rd s1 imm)

/-- ZEXT (R190). -/
def decZext (w : Nat) (x : Ext) : Except Cause Instr := do
  need (x.e0.isNone && x.e2.isNone) .extMisuse
  let rd : CReg := fld 5 19 w
  let s1 : CSrc := fld 6 13 w
  let s2 : CSrc := fld 6 6 w
  need (decide (fld 6 0 w = 0#6)) .reservedField
  need (decide (s1.toNat < 36)) .reservedSource
  need (decide (s2.toNat < 36)) .reservedSource
  pure (.zext rd s1 s2)

/-- ZEXT_IMM (R190). -/
def decZextImm (w : Nat) (x : Ext) : Except Cause Instr := do
  need (x.e2.isNone) .extMisuse
  let rd : CReg := fld 5 19 w
  let s1 : CSrc := fld 6 13 w
  let imm : Imm 12 := ⟨x.e0, fld 12 0 w⟩
  need (decide (s1.toNat < 36)) .reservedSource
  pure (.zextImm rd s1 imm)

/-- SEL (R192). -/
def decSel (w : Nat) (x : Ext) : Except Cause Instr := do
  need (x.e0.isNone && x.e2.isNone) .extMisuse
  let rd : CReg := fld 5 19 w
  let s1 : CSrc := fld 6 13 w
  let s2 : CSrc := fld 6 6 w
  let s3 : CSrc := fld 6 0 w
  need (decide (fld 1 12 w = 0#1)) .reservedField
  need (decide (s1.toNat < 36)) .reservedSource
  need (decide (s2.toNat < 36)) .reservedSource
  need (decide (s3.toNat < 36)) .reservedSource
  pure (.sel rd s1 s2 s3)

/-- CMP (R191). -/
def decCmp (w : Nat) (x : Ext) : Except Cause Instr := do
  need (x.e0.isNone && x.e2.isNone) .extMisuse
  let rd : CReg := fld 5 19 w
  let s1 : CSrc := fld 6 13 w
  let s2 : CSrc := fld 6 6 w
  let cond := Cond.ofNat? (fld 4 0 w).toNat
  need (cond.isSome) .reservedField
  need (decide (fld 2 4 w = 0#2)) .reservedField
  need (decide (fld 1 12 w = 0#1)) .reservedField
  need (decide (s1.toNat < 36)) .reservedSource
  need (decide (s2.toNat < 36)) .reservedSource
  pure (.cmp rd s1 s2 (cond.getD .eq))

/-- LI (R193). -/
def decLi (w : Nat) (x : Ext) : Except Cause Instr := do
  need (x.e2.isNone) .extMisuse
  let rd : CReg := fld 5 19 w
  let imm : Imm 19 := ⟨x.e0, fld 19 0 w⟩
  pure (.li rd imm)

/-- B (R194). -/
def decB (w : Nat) (x : Ext) : Except Cause Instr := do
  need (x.e2.isNone) .extMisuse
  let off : Imm 24 := ⟨x.e0, fld 24 0 w⟩
  pure (.b off)

/-- BC (R194). -/
def decBc (w : Nat) (x : Ext) : Except Cause Instr := do
  need (x.e2.isNone) .extMisuse
  let cond := Cond.ofNat? (fld 4 20 w).toNat
  let s1 : CSrc := fld 6 14 w
  let s2 : CSrc := fld 6 8 w
  let off : Imm 8 := ⟨x.e0, fld 8 0 w⟩
  need (cond.isSome) .reservedField
  need (decide (s1.toNat < 36)) .reservedSource
  need (decide (s2.toNat < 36)) .reservedSource
  pure (.bc (cond.getD .eq) s1 s2 off)

/-- BR (R194). -/
def decBr (w : Nat) (x : Ext) : Except Cause Instr := do
  need (x.e0.isNone && x.e2.isNone) .extMisuse
  let s1 : CSrc := fld 6 13 w
  need (decide (fld 13 0 w = 0#13)) .reservedField
  need (decide (fld 5 19 w = 0#5)) .reservedField
  need (decide (s1.toNat < 36)) .reservedSource
  pure (.br s1)

/-- CALL (R195). -/
def decCall (w : Nat) (x : Ext) : Except Cause Instr := do
  need (x.e2.isNone) .extMisuse
  let off : Imm 24 := ⟨x.e0, fld 24 0 w⟩
  pure (.call off)

/-- CALLR (R195). -/
def decCallr (w : Nat) (x : Ext) : Except Cause Instr := do
  need (x.e0.isNone && x.e2.isNone) .extMisuse
  let s1 : CSrc := fld 6 13 w
  need (decide (fld 13 0 w = 0#13)) .reservedField
  need (decide (fld 5 19 w = 0#5)) .reservedField
  need (decide (s1.toNat < 36)) .reservedSource
  pure (.callr s1)

/-- RET (R196). -/
def decRet (w : Nat) (x : Ext) : Except Cause Instr := do
  need (x.e0.isNone && x.e2.isNone) .extMisuse
  need (decide (fld 24 0 w = 0#24)) .reservedField
  pure .ret

/-- FRAME (R197). -/
def decFrame (w : Nat) (x : Ext) : Except Cause Instr := do
  need (x.e0.isNone && x.e2.isNone) .extMisuse
  let f : BitVec 7 := fld 7 0 w
  need (decide (fld 17 7 w = 0#17)) .reservedField
  pure (.frame f)

/-- LD (R200). -/
def decLd (w : Nat) (x : Ext) : Except Cause Instr := do
  need (x.e2.isNone) .extMisuse
  let rt : CReg := fld 5 18 w
  let s1 : CSrc := fld 6 12 w
  let sz : BitVec 2 := fld 2 10 w
  let sg : Bool := fld 1 9 w = 1#1
  let off : Imm 9 := ⟨x.e0, fld 9 0 w⟩
  need (decide (¬ (sz = 3#2 ∧ sg = true))) .reservedField
  need (decide (fld 1 23 w = 0#1)) .reservedDestination
  need (decide (s1.toNat < 36)) .reservedSource
  pure (.ld rt s1 sz sg off)

/-- ST (R200). -/
def decSt (w : Nat) (x : Ext) : Except Cause Instr := do
  need (x.e2.isNone) .extMisuse
  let rt : CSrc := fld 6 18 w
  let s1 : CSrc := fld 6 12 w
  let sz : BitVec 2 := fld 2 10 w
  let off : Imm 9 := ⟨x.e0, fld 9 0 w⟩
  need (decide (fld 1 9 w = 0#1)) .reservedField
  need (decide (rt.toNat < 36)) .reservedSource
  need (decide (s1.toNat < 36)) .reservedSource
  pure (.st rt s1 sz off)

/-- AMOADD (R202). -/
def decAmoAdd (w : Nat) (x : Ext) : Except Cause Instr := do
  need (x.e0.isNone && x.e2.isNone) .extMisuse
  let rd : CReg := fld 5 19 w
  let s1 : CSrc := fld 6 13 w
  let s2 : CSrc := fld 6 7 w
  let scope := Scope.ofNat? (fld 3 4 w).toNat
  let wide : Bool := fld 1 3 w = 1#1
  need (scope.isSome) .reservedField
  need (decide (fld 3 0 w = 0#3)) .reservedField
  need (decide (s1.toNat < 36)) .reservedSource
  need (decide (s2.toNat < 36)) .reservedSource
  pure (.amoAdd rd s1 s2 (scope.getD .core) wide)

/-- AMOAND (R202). -/
def decAmoAnd (w : Nat) (x : Ext) : Except Cause Instr := do
  need (x.e0.isNone && x.e2.isNone) .extMisuse
  let rd : CReg := fld 5 19 w
  let s1 : CSrc := fld 6 13 w
  let s2 : CSrc := fld 6 7 w
  let scope := Scope.ofNat? (fld 3 4 w).toNat
  let wide : Bool := fld 1 3 w = 1#1
  need (scope.isSome) .reservedField
  need (decide (fld 3 0 w = 0#3)) .reservedField
  need (decide (s1.toNat < 36)) .reservedSource
  need (decide (s2.toNat < 36)) .reservedSource
  pure (.amoAnd rd s1 s2 (scope.getD .core) wide)

/-- AMOOR (R202). -/
def decAmoOr (w : Nat) (x : Ext) : Except Cause Instr := do
  need (x.e0.isNone && x.e2.isNone) .extMisuse
  let rd : CReg := fld 5 19 w
  let s1 : CSrc := fld 6 13 w
  let s2 : CSrc := fld 6 7 w
  let scope := Scope.ofNat? (fld 3 4 w).toNat
  let wide : Bool := fld 1 3 w = 1#1
  need (scope.isSome) .reservedField
  need (decide (fld 3 0 w = 0#3)) .reservedField
  need (decide (s1.toNat < 36)) .reservedSource
  need (decide (s2.toNat < 36)) .reservedSource
  pure (.amoOr rd s1 s2 (scope.getD .core) wide)

/-- AMOXOR (R202). -/
def decAmoXor (w : Nat) (x : Ext) : Except Cause Instr := do
  need (x.e0.isNone && x.e2.isNone) .extMisuse
  let rd : CReg := fld 5 19 w
  let s1 : CSrc := fld 6 13 w
  let s2 : CSrc := fld 6 7 w
  let scope := Scope.ofNat? (fld 3 4 w).toNat
  let wide : Bool := fld 1 3 w = 1#1
  need (scope.isSome) .reservedField
  need (decide (fld 3 0 w = 0#3)) .reservedField
  need (decide (s1.toNat < 36)) .reservedSource
  need (decide (s2.toNat < 36)) .reservedSource
  pure (.amoXor rd s1 s2 (scope.getD .core) wide)

/-- AMOMIN (R202). -/
def decAmoMin (w : Nat) (x : Ext) : Except Cause Instr := do
  need (x.e0.isNone && x.e2.isNone) .extMisuse
  let rd : CReg := fld 5 19 w
  let s1 : CSrc := fld 6 13 w
  let s2 : CSrc := fld 6 7 w
  let scope := Scope.ofNat? (fld 3 4 w).toNat
  let wide : Bool := fld 1 3 w = 1#1
  need (scope.isSome) .reservedField
  need (decide (fld 3 0 w = 0#3)) .reservedField
  need (decide (s1.toNat < 36)) .reservedSource
  need (decide (s2.toNat < 36)) .reservedSource
  pure (.amoMin rd s1 s2 (scope.getD .core) wide)

/-- AMOMAX (R202). -/
def decAmoMax (w : Nat) (x : Ext) : Except Cause Instr := do
  need (x.e0.isNone && x.e2.isNone) .extMisuse
  let rd : CReg := fld 5 19 w
  let s1 : CSrc := fld 6 13 w
  let s2 : CSrc := fld 6 7 w
  let scope := Scope.ofNat? (fld 3 4 w).toNat
  let wide : Bool := fld 1 3 w = 1#1
  need (scope.isSome) .reservedField
  need (decide (fld 3 0 w = 0#3)) .reservedField
  need (decide (s1.toNat < 36)) .reservedSource
  need (decide (s2.toNat < 36)) .reservedSource
  pure (.amoMax rd s1 s2 (scope.getD .core) wide)

/-- AMOXCH (R202). -/
def decAmoXch (w : Nat) (x : Ext) : Except Cause Instr := do
  need (x.e0.isNone && x.e2.isNone) .extMisuse
  let rd : CReg := fld 5 19 w
  let s1 : CSrc := fld 6 13 w
  let s2 : CSrc := fld 6 7 w
  let scope := Scope.ofNat? (fld 3 4 w).toNat
  let wide : Bool := fld 1 3 w = 1#1
  need (scope.isSome) .reservedField
  need (decide (fld 3 0 w = 0#3)) .reservedField
  need (decide (s1.toNat < 36)) .reservedSource
  need (decide (s2.toNat < 36)) .reservedSource
  pure (.amoXch rd s1 s2 (scope.getD .core) wide)

/-- AMOCAS (R202). -/
def decAmoCas (w : Nat) (x : Ext) : Except Cause Instr := do
  need (x.e0.isNone) .extMisuse
  let rd : CReg := fld 5 19 w
  let s1 : CSrc := fld 6 13 w
  let s2 : CSrc := fld 6 7 w
  let s3 : CSrc := fld 6 21 x.e2w
  let scope := Scope.ofNat? (fld 3 4 w).toNat
  let wide : Bool := fld 1 3 w = 1#1
  need (decide (fld 1 27 x.e2w = 0#1)) .reservedField
  need (scope.isSome) .reservedField
  need (decide (fld 3 0 w = 0#3)) .reservedField
  need (decide (fld 7 14 x.e2w = 0#7)) .reservedField
  need (decide (fld 7 7 x.e2w = 0#7)) .reservedField
  need (decide (fld 7 0 x.e2w = 0#7)) .reservedField
  need (decide (s1.toNat < 36)) .reservedSource
  need (decide (s2.toNat < 36)) .reservedSource
  need (decide (s3.toNat < 36)) .reservedSource
  pure (.amoCas rd s1 s2 s3 (scope.getD .core) wide)

/-- ACQ (R206). -/
def decAcq (w : Nat) (x : Ext) : Except Cause Instr := do
  need (x.e0.isNone && x.e2.isNone) .extMisuse
  let rd : CReg := fld 5 19 w
  let s1 : CSrc := fld 6 13 w
  let s2 : CSrc := fld 6 7 w
  let scope := Scope.ofNat? (fld 3 4 w).toNat
  need (scope.isSome) .reservedField
  need (decide (fld 4 0 w = 0#4)) .reservedField
  need (decide (s1.toNat < 36)) .reservedSource
  need (decide (s2.toNat < 36)) .reservedSource
  pure (.acq rd s1 s2 (scope.getD .core))

/-- REL (R205). -/
def decRel (w : Nat) (x : Ext) : Except Cause Instr := do
  need (x.e0.isNone && x.e2.isNone) .extMisuse
  let rd : CReg := fld 5 19 w
  let s1 : CSrc := fld 6 13 w
  let s2 : CSrc := fld 6 7 w
  let scope := Scope.ofNat? (fld 3 4 w).toNat
  need (scope.isSome) .reservedField
  need (decide (fld 4 0 w = 0#4)) .reservedField
  need (decide (s1.toNat < 36)) .reservedSource
  need (decide (s2.toNat < 36)) .reservedSource
  pure (.rel rd s1 s2 (scope.getD .core))

/-- BIND (R203). -/
def decBind (w : Nat) (x : Ext) : Except Cause Instr := do
  need (x.e0.isNone) .extMisuse
  let s1 : CSrc := fld 6 13 w
  let s2 : CSrc := fld 6 7 w
  let s3 : CSrc := fld 6 21 x.e2w
  let scope := Scope.ofNat? (fld 3 4 w).toNat
  need (decide (fld 1 27 x.e2w = 0#1)) .reservedField
  need (scope.isSome) .reservedField
  need (decide (fld 4 0 w = 0#4)) .reservedField
  need (decide (fld 5 19 w = 0#5)) .reservedField
  need (decide (fld 7 14 x.e2w = 0#7)) .reservedField
  need (decide (fld 7 7 x.e2w = 0#7)) .reservedField
  need (decide (fld 7 0 x.e2w = 0#7)) .reservedField
  need (decide (s1.toNat < 36)) .reservedSource
  need (decide (s2.toNat < 36)) .reservedSource
  need (decide (s3.toNat < 36)) .reservedSource
  pure (.bind s1 s2 s3 (scope.getD .core))

/-- UNBIND (R204). -/
def decUnbind (w : Nat) (x : Ext) : Except Cause Instr := do
  need (x.e0.isNone && x.e2.isNone) .extMisuse
  let s1 : CSrc := fld 6 13 w
  let s2 : CSrc := fld 6 7 w
  let scope := Scope.ofNat? (fld 3 4 w).toNat
  need (scope.isSome) .reservedField
  need (decide (fld 4 0 w = 0#4)) .reservedField
  need (decide (fld 5 19 w = 0#5)) .reservedField
  need (decide (s1.toNat < 36)) .reservedSource
  need (decide (s2.toNat < 36)) .reservedSource
  pure (.unbind s1 s2 (scope.getD .core))

/-- FENCE (R207). -/
def decFence (w : Nat) (x : Ext) : Except Cause Instr := do
  need (x.e0.isNone && x.e2.isNone) .extMisuse
  let scope := Scope.ofNat? (fld 3 4 w).toNat
  need (scope.isSome) .reservedField
  need (decide (fld 4 0 w = 0#4)) .reservedField
  need (decide (fld 17 7 w = 0#17)) .reservedField
  pure (.fence (scope.getD .core))

/-- SETSHAPE (R215). -/
def decSetShape (w : Nat) (x : Ext) : Except Cause Instr := do
  need (x.e0.isNone) .extMisuse
  let h : ShReg := fld 3 19 w
  let s1 : CSrc := fld 6 13 w
  let s2 : CSrc := fld 6 7 w
  let s3 : CSrc := fld 6 21 x.e2w
  let fmt : BitVec 7 := fld 7 0 w
  need (decide (fld 1 27 x.e2w = 0#1)) .reservedField
  need (decide (fld 2 22 w = 0#2)) .reservedField
  need (decide (fld 7 14 x.e2w = 0#7)) .reservedField
  need (decide (fld 7 7 x.e2w = 0#7)) .reservedField
  need (decide (fld 7 0 x.e2w = 0#7)) .reservedField
  need (decide (s1.toNat < 36)) .reservedSource
  need (decide (s2.toNat < 36)) .reservedSource
  need (decide (s3.toNat < 36)) .reservedSource
  pure (.setShape h s1 s2 s3 fmt)

/-- GETSHAPE (R216). -/
def decGetShape (w : Nat) (x : Ext) : Except Cause Instr := do
  need (x.e0.isNone && x.e2.isNone) .extMisuse
  let rd : CReg := fld 5 19 w
  let h : ShReg := fld 3 0 w
  let sl : BitVec 3 := fld 3 3 w
  need (decide (sl.toNat ≤ 4)) .reservedField
  need (decide (fld 13 6 w = 0#13)) .reservedField
  pure (.getShape rd h sl)

/-- THLD (R217). -/
def decThld (w : Nat) (x : Ext) : Except Cause Instr := do
  need (x.e0.isNone && x.e2.isNone) .extMisuse
  let h : ThReg := fld 4 19 w
  let s1 : CSrc := fld 6 13 w
  let off : BitVec 7 := fld 7 0 w
  need (decide (fld 6 7 w = 0#6)) .reservedField
  need (decide (fld 1 23 w = 0#1)) .reservedField
  need (decide (s1.toNat < 36)) .reservedSource
  pure (.thld h s1 off)

/-- THST (R217). -/
def decThst (w : Nat) (x : Ext) : Except Cause Instr := do
  need (x.e0.isNone && x.e2.isNone) .extMisuse
  let h : ThReg := fld 4 19 w
  let s1 : CSrc := fld 6 13 w
  let off : BitVec 7 := fld 7 0 w
  need (decide (fld 6 7 w = 0#6)) .reservedField
  need (decide (fld 1 23 w = 0#1)) .reservedField
  need (decide (s1.toNat < 36)) .reservedSource
  pure (.thst h s1 off)

/-- THSET (R219). -/
def decThset (w : Nat) (x : Ext) : Except Cause Instr := do
  need (x.e0.isNone && x.e2.isNone) .extMisuse
  let h : ThReg := fld 4 19 w
  let fs : BitVec 7 := fld 7 0 w
  let s1 : CSrc := fld 6 13 w
  need (decide (fs.toNat ≤ 14)) .reservedField
  need (decide (fld 6 7 w = 0#6)) .reservedField
  need (decide (fld 1 23 w = 0#1)) .reservedField
  need (decide (s1.toNat < 36)) .reservedSource
  pure (.thset h fs s1)

/-- THGET (R217). -/
def decThget (w : Nat) (x : Ext) : Except Cause Instr := do
  need (x.e0.isNone && x.e2.isNone) .extMisuse
  let rd : CReg := fld 5 19 w
  let h : ThReg := fld 4 7 w
  let fs : BitVec 7 := fld 7 0 w
  need (decide (fld 2 11 w = 0#2)) .reservedField
  need (decide (fs.toNat ≤ 14)) .reservedField
  need (decide (fld 6 13 w = 0#6)) .reservedField
  pure (.thget rd h fs)

/-- SEQL (R221). -/
def decSeql (w : Nat) (x : Ext) : Except Cause Instr := do
  need (x.e0.isNone && x.e2.isNone) .extMisuse
  let n : BitVec 3 := fld 3 0 w
  let s1 : CSrc := fld 6 13 w
  need (decide (n.toNat ≤ 5)) .reservedField
  need (decide (fld 10 3 w = 0#10)) .reservedField
  need (decide (fld 5 19 w = 0#5)) .reservedField
  need (decide (s1.toNat < 36)) .reservedSource
  pure (.seql n s1)

/-- SEQS (R221). -/
def decSeqs (w : Nat) (x : Ext) : Except Cause Instr := do
  need (x.e0.isNone && x.e2.isNone) .extMisuse
  let n : BitVec 3 := fld 3 0 w
  let j : BitVec 2 := fld 2 3 w
  let ak : AReg := fld 5 19 w
  let s1 : CSrc := fld 6 13 w
  need (decide (n.toNat ≤ 5)) .reservedField
  need (decide (fld 8 5 w = 0#8)) .reservedField
  need (decide (s1.toNat < 36)) .reservedSource
  pure (.seqs n j ak s1)

/-- LOOPB (R222). -/
def decLoopb (w : Nat) (x : Ext) : Except Cause Instr := do
  need (x.e0.isNone && x.e2.isNone) .extMisuse
  let lv : BitVec 3 := fld 3 19 w
  let len : BitVec 7 := fld 7 0 w
  need (decide (fld 12 7 w = 0#12)) .reservedField
  need (decide (fld 2 22 w = 0#2)) .reservedField
  pure (.loopb lv len)

/-- LOOPC (R223). -/
def decLoopc (w : Nat) (x : Ext) : Except Cause Instr := do
  need (x.e0.isNone && x.e2.isNone) .extMisuse
  let lv : BitVec 3 := fld 3 19 w
  let len : BitVec 7 := fld 7 0 w
  let s1 : CSrc := fld 6 13 w
  let s2 : CSrc := fld 6 7 w
  need (decide (fld 2 22 w = 0#2)) .reservedField
  need (decide (s1.toNat < 36)) .reservedSource
  need (decide (s2.toNat < 36)) .reservedSource
  pure (.loopc lv len s1 s2)

/-- OVW (R224). -/
def decOvw (w : Nat) (x : Ext) : Except Cause Instr := do
  need (x.e0.isNone && x.e2.isNone) .extMisuse
  let n : BitVec 3 := fld 3 0 w
  need (decide (n.toNat ≤ 5)) .reservedField
  need (decide (fld 21 3 w = 0#21)) .reservedField
  pure (.ovw n)

/-- FOOT (R225). -/
def decFoot (w : Nat) (x : Ext) : Except Cause Instr := do
  need (x.e0.isNone) .extMisuse
  let j : BitVec 2 := fld 2 0 w
  let ak : AReg := fld 5 19 w
  let s1 : CSrc := fld 6 13 w
  let s2 : CSrc := fld 6 7 w
  let s3 : CSrc := fld 6 21 x.e2w
  need (decide (fld 1 27 x.e2w = 0#1)) .reservedField
  need (decide (fld 5 2 w = 0#5)) .reservedField
  need (decide (fld 7 14 x.e2w = 0#7)) .reservedField
  need (decide (fld 7 7 x.e2w = 0#7)) .reservedField
  need (decide (fld 7 0 x.e2w = 0#7)) .reservedField
  need (decide (s1.toNat < 36)) .reservedSource
  need (decide (s2.toNat < 36)) .reservedSource
  need (decide (s3.toNat < 36)) .reservedSource
  pure (.foot j ak s1 s2 s3)

/-- FOOTV (R225). -/
def decFootv (w : Nat) (x : Ext) : Except Cause Instr := do
  need (x.e0.isNone && x.e2.isNone) .extMisuse
  let ak : AReg := fld 5 19 w
  let vs : BitVec 7 := fld 7 0 w
  need (decide (fld 12 7 w = 0#12)) .reservedField
  need (decide (vs.toNat < 72)) .reservedSource
  pure (.footv ak vs)

/-- REGION (R226). -/
def decRegion (w : Nat) (x : Ext) : Except Cause Instr := do
  need (x.e0.isNone) .extMisuse
  let s1 : CSrc := fld 6 13 w
  let s2 : CSrc := fld 6 7 w
  let s3 : CSrc := fld 6 21 x.e2w
  let s4 : CSrc := fld 6 14 x.e2w
  need (decide (fld 1 27 x.e2w = 0#1)) .reservedField
  need (decide (fld 1 20 x.e2w = 0#1)) .reservedField
  need (decide (fld 6 1 w = 0#6)) .reservedField
  need (decide (fld 5 19 w = 0#5)) .reservedField
  need (decide (fld 7 7 x.e2w = 0#7)) .reservedField
  need (decide (fld 7 0 x.e2w = 0#7)) .reservedField
  need (decide (s1.toNat < 36)) .reservedSource
  need (decide (s2.toNat < 36)) .reservedSource
  need (decide (s3.toNat < 36)) .reservedSource
  need (decide (s4.toNat < 36)) .reservedSource
  pure (.region s1 s2 s3 s4)

/-- REGION_END (R226). DESIGN CHOICE (log 95): REGION.end takes no extra operands, so an EXT lane of kind 0b0010, of zeros too,
is ext-misuse (R158). -/
def decRegionEnd (w : Nat) (x : Ext) : Except Cause Instr := do
  need (x.e0.isNone && x.e2.isNone) .extMisuse
  need (decide (fld 23 1 w = 0#23)) .reservedField
  pure .regionEnd

/-- EXIT (R227). -/
def decExitI (w : Nat) (x : Ext) : Except Cause Instr := do
  need (x.e0.isNone && x.e2.isNone) .extMisuse
  need (decide (fld 24 0 w = 0#24)) .reservedField
  pure .exitI

/-- YIELD (R228). -/
def decYieldI (w : Nat) (x : Ext) : Except Cause Instr := do
  need (x.e0.isNone && x.e2.isNone) .extMisuse
  need (decide (fld 24 0 w = 0#24)) .reservedField
  pure .yieldI

/-- LOCQ (R229). -/
def decLocq (w : Nat) (x : Ext) : Except Cause Instr := do
  need (x.e0.isNone && x.e2.isNone) .extMisuse
  let rd : CReg := fld 5 19 w
  let s1 : CSrc := fld 6 13 w
  need (decide (fld 13 0 w = 0#13)) .reservedField
  need (decide (s1.toNat < 36)) .reservedSource
  pure (.locq rd s1)

/-- CSRR (R230). -/
def decCsrr (w : Nat) (x : Ext) : Except Cause Instr := do
  need (x.e0.isNone && x.e2.isNone) .extMisuse
  let rd : CReg := fld 5 19 w
  let csr : BitVec 12 := fld 12 1 w
  need (decide (fld 1 0 w = 0#1)) .reservedField
  need (decide (fld 6 13 w = 0#6)) .reservedField
  pure (.csrr rd csr)

/-- CSRW (R230). -/
def decCsrw (w : Nat) (x : Ext) : Except Cause Instr := do
  need (x.e0.isNone && x.e2.isNone) .extMisuse
  let csr : BitVec 12 := fld 12 1 w
  let s1 : CSrc := fld 6 13 w
  need (decide (fld 1 0 w = 0#1)) .reservedField
  need (decide (fld 5 19 w = 0#5)) .reservedField
  need (decide (s1.toNat < 36)) .reservedSource
  pure (.csrw csr s1)

/-- TRAP (R198). -/
def decTrap (w : Nat) (x : Ext) : Except Cause Instr := do
  need (x.e0.isNone && x.e2.isNone) .extMisuse
  let s1 : CSrc := fld 6 13 w
  let code : BitVec 7 := fld 7 0 w
  need (decide (fld 6 7 w = 0#6)) .reservedField
  need (decide (fld 5 19 w = 0#5)) .reservedField
  need (decide (s1.toNat < 36)) .reservedSource
  pure (.trap s1 code)

/-- ERET (R199). -/
def decEret (w : Nat) (x : Ext) : Except Cause Instr := do
  need (x.e0.isNone && x.e2.isNone) .extMisuse
  need (decide (fld 24 0 w = 0#24)) .reservedField
  pure .eret

/-- WAITMEM (R231). -/
def decWaitmem (w : Nat) (x : Ext) : Except Cause Instr := do
  need (x.e0.isNone && x.e2.isNone) .extMisuse
  let rd : CReg := fld 5 19 w
  let s1 : CSrc := fld 6 13 w
  let s2 : CSrc := fld 6 7 w
  let scope := Scope.ofNat? (fld 3 0 w).toNat
  need (scope.isSome) .reservedField
  need (decide (fld 4 3 w = 0#4)) .reservedField
  need (decide (s1.toNat < 36)) .reservedSource
  need (decide (s2.toNat < 36)) .reservedSource
  pure (.waitmem rd s1 s2 (scope.getD .core))

/-- SCSTOP_CYC (R234). -/
def decScstopCyc (w : Nat) (x : Ext) : Except Cause Instr := do
  need (x.e0.isNone) .extMisuse
  let s1 : CSrc := fld 6 13 w
  let s2 : CSrc := fld 6 7 w
  let s3 : CSrc := fld 6 21 x.e2w
  need (decide (fld 1 27 x.e2w = 0#1)) .reservedField
  need (decide (fld 6 1 w = 0#6)) .reservedField
  need (decide (fld 5 19 w = 0#5)) .reservedField
  need (decide (fld 7 14 x.e2w = 0#7)) .reservedField
  need (decide (fld 7 7 x.e2w = 0#7)) .reservedField
  need (decide (fld 7 0 x.e2w = 0#7)) .reservedField
  need (decide (s1.toNat < 36)) .reservedSource
  need (decide (s2.toNat < 36)) .reservedSource
  need (decide (s3.toNat < 36)) .reservedSource
  pure (.scstopCyc s1 s2 s3)

/-- SCSTOP_BEAT (R234). -/
def decScstopBeat (w : Nat) (x : Ext) : Except Cause Instr := do
  need (x.e0.isNone) .extMisuse
  let s1 : CSrc := fld 6 13 w
  let s2 : CSrc := fld 6 7 w
  let s3 : CSrc := fld 6 21 x.e2w
  need (decide (fld 1 27 x.e2w = 0#1)) .reservedField
  need (decide (fld 6 1 w = 0#6)) .reservedField
  need (decide (fld 5 19 w = 0#5)) .reservedField
  need (decide (fld 7 14 x.e2w = 0#7)) .reservedField
  need (decide (fld 7 7 x.e2w = 0#7)) .reservedField
  need (decide (fld 7 0 x.e2w = 0#7)) .reservedField
  need (decide (s1.toNat < 36)) .reservedSource
  need (decide (s2.toNat < 36)) .reservedSource
  need (decide (s3.toNat < 36)) .reservedSource
  pure (.scstopBeat s1 s2 s3)

/-- SCOUT (R235). -/
def decScout (w : Nat) (x : Ext) : Except Cause Instr := do
  need (x.e0.isNone) .extMisuse
  let rd : CReg := fld 5 19 w
  let s1 : CSrc := fld 6 13 w
  let s2 : CSrc := fld 6 7 w
  let s3 : CSrc := fld 6 21 x.e2w
  let s4 : CSrc := fld 6 14 x.e2w
  let spad : Bool := fld 1 0 w = 1#1
  need (decide (fld 1 27 x.e2w = 0#1)) .reservedField
  need (decide (fld 1 20 x.e2w = 0#1)) .reservedField
  need (decide (fld 6 1 w = 0#6)) .reservedField
  need (decide (fld 7 7 x.e2w = 0#7)) .reservedField
  need (decide (fld 7 0 x.e2w = 0#7)) .reservedField
  need (decide (s1.toNat < 36)) .reservedSource
  need (decide (s2.toNat < 36)) .reservedSource
  need (decide (s3.toNat < 36)) .reservedSource
  need (decide (s4.toNat < 36)) .reservedSource
  pure (.scout rd s1 s2 s3 s4 spad)

/-- SCIN (R474). -/
def decScin (w : Nat) (x : Ext) : Except Cause Instr := do
  need (x.e0.isNone) .extMisuse
  let rd : CReg := fld 5 19 w
  let s1 : CSrc := fld 6 13 w
  let s2 : CSrc := fld 6 7 w
  let s3 : CSrc := fld 6 21 x.e2w
  let spad : Bool := fld 1 0 w = 1#1
  need (decide (fld 1 27 x.e2w = 0#1)) .reservedField
  need (decide (fld 6 1 w = 0#6)) .reservedField
  need (decide (fld 7 14 x.e2w = 0#7)) .reservedField
  need (decide (fld 7 7 x.e2w = 0#7)) .reservedField
  need (decide (fld 7 0 x.e2w = 0#7)) .reservedField
  need (decide (s1.toNat < 36)) .reservedSource
  need (decide (s2.toNat < 36)) .reservedSource
  need (decide (s3.toNat < 36)) .reservedSource
  pure (.scin rd s1 s2 s3 spad)

/-- SCGO (R235). -/
def decScgo (w : Nat) (x : Ext) : Except Cause Instr := do
  need (x.e0.isNone && x.e2.isNone) .extMisuse
  let s1 : CSrc := fld 6 13 w
  let s2 : CSrc := fld 6 7 w
  need (decide (fld 7 0 w = 0#7)) .reservedField
  need (decide (fld 5 19 w = 0#5)) .reservedField
  need (decide (s1.toNat < 36)) .reservedSource
  need (decide (s2.toNat < 36)) .reservedSource
  pure (.scgo s1 s2)

/-- SCOWN (R471). -/
def decScown (w : Nat) (x : Ext) : Except Cause Instr := do
  need (x.e0.isNone) .extMisuse
  let s1 : CSrc := fld 6 13 w
  let s2 : CSrc := fld 6 7 w
  let s3 : CSrc := fld 6 21 x.e2w
  need (decide (fld 1 27 x.e2w = 0#1)) .reservedField
  need (decide (fld 7 0 w = 0#7)) .reservedField
  need (decide (fld 5 19 w = 0#5)) .reservedField
  need (decide (fld 7 14 x.e2w = 0#7)) .reservedField
  need (decide (fld 7 7 x.e2w = 0#7)) .reservedField
  need (decide (fld 7 0 x.e2w = 0#7)) .reservedField
  need (decide (s1.toNat < 36)) .reservedSource
  need (decide (s2.toNat < 36)) .reservedSource
  need (decide (s3.toNat < 36)) .reservedSource
  pure (.scown s1 s2 s3)

/-- DIAGINJ_PROD (R377). -/
def decDiaginjProd (w : Nat) (x : Ext) : Except Cause Instr := do
  need (x.e0.isNone) .extMisuse
  let s1 : CSrc := fld 6 13 w
  let s2 : CSrc := fld 6 7 w
  let s3 : CSrc := fld 6 21 x.e2w
  need (decide (fld 1 27 x.e2w = 0#1)) .reservedField
  need (decide (fld 5 2 w = 0#5)) .reservedField
  need (decide (fld 5 19 w = 0#5)) .reservedField
  need (decide (fld 7 14 x.e2w = 0#7)) .reservedField
  need (decide (fld 7 7 x.e2w = 0#7)) .reservedField
  need (decide (fld 7 0 x.e2w = 0#7)) .reservedField
  need (decide (s1.toNat < 36)) .reservedSource
  need (decide (s2.toNat < 36)) .reservedSource
  need (decide (s3.toNat < 36)) .reservedSource
  pure (.diaginjProd s1 s2 s3)

/-- DIAGINJ_ACC (R236). -/
def decDiaginjAcc (w : Nat) (x : Ext) : Except Cause Instr := do
  need (x.e0.isNone) .extMisuse
  let s1 : CSrc := fld 6 13 w
  let s2 : CSrc := fld 6 7 w
  let s3 : CSrc := fld 6 21 x.e2w
  need (decide (fld 1 27 x.e2w = 0#1)) .reservedField
  need (decide (fld 5 2 w = 0#5)) .reservedField
  need (decide (fld 5 19 w = 0#5)) .reservedField
  need (decide (fld 7 14 x.e2w = 0#7)) .reservedField
  need (decide (fld 7 7 x.e2w = 0#7)) .reservedField
  need (decide (fld 7 0 x.e2w = 0#7)) .reservedField
  need (decide (s1.toNat < 36)) .reservedSource
  need (decide (s2.toNat < 36)) .reservedSource
  need (decide (s3.toNat < 36)) .reservedSource
  pure (.diaginjAcc s1 s2 s3)

/-- DIAGINJ_VREG (R236). -/
def decDiaginjVreg (w : Nat) (x : Ext) : Except Cause Instr := do
  need (x.e0.isNone) .extMisuse
  let s1 : CSrc := fld 6 13 w
  let s2 : CSrc := fld 6 7 w
  let s3 : CSrc := fld 6 21 x.e2w
  need (decide (fld 1 27 x.e2w = 0#1)) .reservedField
  need (decide (fld 5 2 w = 0#5)) .reservedField
  need (decide (fld 5 19 w = 0#5)) .reservedField
  need (decide (fld 7 14 x.e2w = 0#7)) .reservedField
  need (decide (fld 7 7 x.e2w = 0#7)) .reservedField
  need (decide (fld 7 0 x.e2w = 0#7)) .reservedField
  need (decide (s1.toNat < 36)) .reservedSource
  need (decide (s2.toNat < 36)) .reservedSource
  need (decide (s3.toNat < 36)) .reservedSource
  pure (.diaginjVreg s1 s2 s3)

/-- DIAGINJ_SPAD (R236). -/
def decDiaginjSpad (w : Nat) (x : Ext) : Except Cause Instr := do
  need (x.e0.isNone) .extMisuse
  let s1 : CSrc := fld 6 13 w
  let s2 : CSrc := fld 6 7 w
  let s3 : CSrc := fld 6 21 x.e2w
  need (decide (fld 1 27 x.e2w = 0#1)) .reservedField
  need (decide (fld 5 2 w = 0#5)) .reservedField
  need (decide (fld 5 19 w = 0#5)) .reservedField
  need (decide (fld 7 14 x.e2w = 0#7)) .reservedField
  need (decide (fld 7 7 x.e2w = 0#7)) .reservedField
  need (decide (fld 7 0 x.e2w = 0#7)) .reservedField
  need (decide (s1.toNat < 36)) .reservedSource
  need (decide (s2.toNat < 36)) .reservedSource
  need (decide (s3.toNat < 36)) .reservedSource
  pure (.diaginjSpad s1 s2 s3)

/-- TLBINV (R237). -/
def decTlbinv (w : Nat) (x : Ext) : Except Cause Instr := do
  need (x.e0.isNone && x.e2.isNone) .extMisuse
  let kind : BitVec 2 := fld 2 0 w
  let s1 : CSrc := fld 6 13 w
  let s2 : CSrc := fld 6 7 w
  need (decide (kind.toNat ≤ 2)) .reservedField
  need (decide (fld 5 2 w = 0#5)) .reservedField
  need (decide (fld 5 19 w = 0#5)) .reservedField
  need (decide (s1.toNat < 36)) .reservedSource
  need (decide (s2.toNat < 36)) .reservedSource
  pure (.tlbinv kind s1 s2)

/-- KISSUE (R238). -/
def decKissue (w : Nat) (x : Ext) : Except Cause Instr := do
  need (x.e0.isNone && x.e2.isNone) .extMisuse
  let rd : CReg := fld 5 19 w
  let s1 : CSrc := fld 6 13 w
  let s2 : CSrc := fld 6 7 w
  need (decide (fld 7 0 w = 0#7)) .reservedField
  need (decide (s1.toNat < 36)) .reservedSource
  need (decide (s2.toNat < 36)) .reservedSource
  pure (.kissue rd s1 s2)

/-- SXFER (R238). -/
def decSxfer (w : Nat) (x : Ext) : Except Cause Instr := do
  need (x.e0.isNone && x.e2.isNone) .extMisuse
  let rd : CReg := fld 5 19 w
  let s1 : CSrc := fld 6 13 w
  need (decide (fld 13 0 w = 0#13)) .reservedField
  need (decide (s1.toNat < 36)) .reservedSource
  pure (.sxfer rd s1)

/-- CANCEL (R239). -/
def decCancel (w : Nat) (x : Ext) : Except Cause Instr := do
  need (x.e0.isNone && x.e2.isNone) .extMisuse
  let rd : CReg := fld 5 19 w
  let s1 : CSrc := fld 6 13 w
  let lvl : BitVec 3 := fld 3 0 w
  need (decide (1 ≤ lvl.toNat ∧ lvl.toNat ≤ 4)) .reservedField
  need (decide (fld 10 3 w = 0#10)) .reservedField
  need (decide (s1.toNat < 36)) .reservedSource
  pure (.cancel rd s1 lvl)

/-- FRAMESET (R240). -/
def decFrameset (w : Nat) (x : Ext) : Except Cause Instr := do
  need (x.e0.isNone && x.e2.isNone) .extMisuse
  let s1 : CSrc := fld 6 13 w
  let s2 : CSrc := fld 6 7 w
  let slot : BitVec 4 := fld 4 0 w
  need (decide (fld 3 4 w = 0#3)) .reservedField
  need (decide (fld 5 19 w = 0#5)) .reservedField
  need (decide (s1.toNat < 36)) .reservedSource
  need (decide (s2.toNat < 36)) .reservedSource
  pure (.frameset s1 s2 slot)

/-- AADD (R315). -/
def decAadd (w : Nat) (x : Ext) : Except Cause Instr := do
  need (x.e0.isNone && x.e2.isNone) .extMisuse
  let ad : AReg := fld 5 19 w
  let s1 : ASrc := fld 6 13 w
  let s2 : ASrc := fld 6 6 w
  need (decide (fld 6 0 w = 0#6)) .reservedField
  need (decide (s1.toNat < 36)) .reservedSource
  need (decide (s2.toNat < 36)) .reservedSource
  pure (.aadd ad s1 s2)

/-- AADD_IMM (R315). -/
def decAaddImm (w : Nat) (x : Ext) : Except Cause Instr := do
  need (x.e2.isNone) .extMisuse
  let ad : AReg := fld 5 19 w
  let s1 : ASrc := fld 6 13 w
  let imm : Imm 12 := ⟨x.e0, fld 12 0 w⟩
  need (decide (s1.toNat < 36)) .reservedSource
  pure (.aaddImm ad s1 imm)

/-- AMOV (R316). -/
def decAmov (w : Nat) (x : Ext) : Except Cause Instr := do
  need (x.e0.isNone && x.e2.isNone) .extMisuse
  let ad : AReg := fld 5 19 w
  let s1 : ASrc := fld 6 13 w
  need (decide (fld 13 0 w = 0#13)) .reservedField
  need (decide (s1.toNat < 36)) .reservedSource
  pure (.amov ad s1)

/-- AMOV_CTRL (R316). -/
def decAmovCtrl (w : Nat) (x : Ext) : Except Cause Instr := do
  need (x.e0.isNone) .extMisuse
  let ad : AReg := fld 5 19 w
  let e1 : CSrc := fld 6 21 x.e2w
  need (decide (fld 1 27 x.e2w = 0#1)) .reservedField
  need (decide (fld 19 0 w = 0#19)) .reservedField
  need (decide (fld 7 14 x.e2w = 0#7)) .reservedField
  need (decide (fld 7 7 x.e2w = 0#7)) .reservedField
  need (decide (fld 7 0 x.e2w = 0#7)) .reservedField
  need (decide (e1.toNat < 32)) .reservedSource
  pure (.amovCtrl ad e1)

/-- ALI (R317). -/
def decAli (w : Nat) (x : Ext) : Except Cause Instr := do
  need (x.e2.isNone) .extMisuse
  let ad : AReg := fld 5 19 w
  let imm : Imm 19 := ⟨x.e0, fld 19 0 w⟩
  pure (.ali ad imm)

/-- AMUL (R315). -/
def decAmul (w : Nat) (x : Ext) : Except Cause Instr := do
  need (x.e0.isNone && x.e2.isNone) .extMisuse
  let ad : AReg := fld 5 19 w
  let s1 : ASrc := fld 6 13 w
  let s2 : ASrc := fld 6 6 w
  need (decide (fld 6 0 w = 0#6)) .reservedField
  need (decide (s1.toNat < 36)) .reservedSource
  need (decide (s2.toNat < 36)) .reservedSource
  pure (.amul ad s1 s2)

/-- AMUL_IMM (R315). -/
def decAmulImm (w : Nat) (x : Ext) : Except Cause Instr := do
  need (x.e2.isNone) .extMisuse
  let ad : AReg := fld 5 19 w
  let s1 : ASrc := fld 6 13 w
  let imm : Imm 12 := ⟨x.e0, fld 12 0 w⟩
  need (decide (s1.toNat < 36)) .reservedSource
  pure (.amulImm ad s1 imm)

/-- ASHL (R315). -/
def decAshl (w : Nat) (x : Ext) : Except Cause Instr := do
  need (x.e0.isNone && x.e2.isNone) .extMisuse
  let ad : AReg := fld 5 19 w
  let s1 : ASrc := fld 6 13 w
  let s2 : ASrc := fld 6 6 w
  need (decide (fld 6 0 w = 0#6)) .reservedField
  need (decide (s1.toNat < 36)) .reservedSource
  need (decide (s2.toNat < 36)) .reservedSource
  pure (.ashl ad s1 s2)

/-- ASHL_IMM (R315). -/
def decAshlImm (w : Nat) (x : Ext) : Except Cause Instr := do
  need (x.e2.isNone) .extMisuse
  let ad : AReg := fld 5 19 w
  let s1 : ASrc := fld 6 13 w
  let imm : Imm 12 := ⟨x.e0, fld 12 0 w⟩
  need (decide (s1.toNat < 36)) .reservedSource
  pure (.ashlImm ad s1 imm)

/-- AAND (R315). -/
def decAand (w : Nat) (x : Ext) : Except Cause Instr := do
  need (x.e0.isNone && x.e2.isNone) .extMisuse
  let ad : AReg := fld 5 19 w
  let s1 : ASrc := fld 6 13 w
  let s2 : ASrc := fld 6 6 w
  need (decide (fld 6 0 w = 0#6)) .reservedField
  need (decide (s1.toNat < 36)) .reservedSource
  need (decide (s2.toNat < 36)) .reservedSource
  pure (.aand ad s1 s2)

/-- AAND_IMM (R315). -/
def decAandImm (w : Nat) (x : Ext) : Except Cause Instr := do
  need (x.e2.isNone) .extMisuse
  let ad : AReg := fld 5 19 w
  let s1 : ASrc := fld 6 13 w
  let imm : Imm 12 := ⟨x.e0, fld 12 0 w⟩
  need (decide (s1.toNat < 36)) .reservedSource
  pure (.aandImm ad s1 imm)

/-- ARD (R318). -/
def decArd (w : Nat) (x : Ext) : Except Cause Instr := do
  need (x.e2.isNone) .extMisuse
  let q : QReg := fld 3 21 w
  let s1 : ASrc := fld 6 15 w
  let off : Imm 15 := ⟨x.e0, fld 15 0 w⟩
  need (decide (q.toNat ≤ 3)) .reservedField
  need (decide (s1.toNat < 36)) .reservedSource
  pure (.ard q s1 off)

/-- AWR (R318). -/
def decAwr (w : Nat) (x : Ext) : Except Cause Instr := do
  need (x.e2.isNone) .extMisuse
  let q : QReg := fld 3 21 w
  let s1 : ASrc := fld 6 15 w
  let off : Imm 15 := ⟨x.e0, fld 15 0 w⟩
  need (decide (q.toNat ≥ 4)) .reservedField
  need (decide (s1.toNat < 36)) .reservedSource
  pure (.awr q s1 off)

/-- ARDG (R319). -/
def decArdg (w : Nat) (x : Ext) : Except Cause Instr := do
  need (x.e0.isNone && x.e2.isNone) .extMisuse
  let q : QReg := fld 3 19 w
  let s1 : ASrc := fld 6 13 w
  let qi : QReg := fld 3 7 w
  let ew : BitVec 2 := fld 2 0 w
  need (decide (fld 3 10 w = 0#3)) .reservedField
  need (decide (q.toNat ≤ 3)) .reservedField
  need (decide (qi.toNat ≥ 4)) .reservedField
  need (decide (fld 5 2 w = 0#5)) .reservedField
  need (decide (fld 2 22 w = 0#2)) .reservedField
  need (decide (s1.toNat < 36)) .reservedSource
  pure (.ardg q s1 qi ew)

/-- AWRS (R320). -/
def decAwrs (w : Nat) (x : Ext) : Except Cause Instr := do
  need (x.e0.isNone && x.e2.isNone) .extMisuse
  let s1 : ASrc := fld 6 13 w
  let qd : QReg := fld 3 19 w
  let qi : QReg := fld 3 7 w
  need (decide (fld 3 10 w = 0#3)) .reservedField
  need (decide (qd.toNat ≥ 4)) .reservedField
  need (decide (qi.toNat ≥ 4)) .reservedField
  need (decide (qd ≠ qi)) .reservedField
  need (decide (fld 7 0 w = 0#7)) .reservedField
  need (decide (fld 2 22 w = 0#2)) .reservedField
  need (decide (s1.toNat < 36)) .reservedSource
  pure (.awrs s1 qd qi)

/-- ASTREAM (R321). -/
def decAstream (w : Nat) (x : Ext) : Except Cause Instr := do
  need (x.e0.isNone && x.e2.isNone) .extMisuse
  let q : QReg := fld 3 19 w
  let n : BitVec 6 := fld 6 13 w
  let lv : BitVec 2 := fld 2 0 w
  need (decide (n.toNat ≤ 23)) .reservedField
  need (decide (fld 11 2 w = 0#11)) .reservedField
  need (decide (fld 2 22 w = 0#2)) .reservedField
  pure (.astream q n lv)

/-- AUNBIND (R324). -/
def decAunbind (w : Nat) (x : Ext) : Except Cause Instr := do
  need (x.e0.isNone && x.e2.isNone) .extMisuse
  let q : QReg := fld 3 19 w
  need (decide (fld 19 0 w = 0#19)) .reservedField
  need (decide (fld 2 22 w = 0#2)) .reservedField
  pure (.aunbind q)

/-- ATILE (R326). -/
def decAtile (w : Nat) (x : Ext) : Except Cause Instr := do
  need (x.e0.isNone && x.e2.isNone) .extMisuse
  let t : TsReg := fld 4 19 w
  let s1 : ASrc := fld 6 13 w
  let s2 : ASrc := fld 6 7 w
  let fmt : BitVec 7 := fld 7 0 w
  need (decide (fld 1 23 w = 0#1)) .reservedField
  need (decide (s1.toNat < 36)) .reservedSource
  need (decide (s2.toNat < 36)) .reservedSource
  pure (.atile t s1 s2 fmt)

/-- APLN (R327). -/
def decApln (w : Nat) (x : Ext) : Except Cause Instr := do
  need (x.e0.isNone && x.e2.isNone) .extMisuse
  let td : TsReg := fld 4 19 w
  let ts : TsReg := fld 4 13 w
  need (decide (fld 2 17 w = 0#2)) .reservedField
  need (decide (fld 13 0 w = 0#13)) .reservedField
  need (decide (fld 1 23 w = 0#1)) .reservedField
  pure (.apln td ts)

/-- AUNPLN (R328). -/
def decAunpln (w : Nat) (x : Ext) : Except Cause Instr := do
  need (x.e0.isNone && x.e2.isNone) .extMisuse
  let td : TsReg := fld 4 19 w
  let ts : TsReg := fld 4 13 w
  let rm : BitVec 3 := fld 3 0 w
  need (decide (fld 2 17 w = 0#2)) .reservedField
  need (decide (fld 10 3 w = 0#10)) .reservedField
  need (decide (fld 1 23 w = 0#1)) .reservedField
  pure (.aunpln td ts rm)

/-- ACB (R329). -/
def decAcb (w : Nat) (x : Ext) : Except Cause Instr := do
  need (x.e0.isNone && x.e2.isNone) .extMisuse
  let c : CbReg := fld 3 19 w
  let s1 : ASrc := fld 6 13 w
  let s2 : ASrc := fld 6 7 w
  let size : BitVec 4 := fld 4 0 w
  need (decide (fld 1 4 w = 0#1)) .reservedField
  need (decide (fld 1 6 w = 0#1)) .reservedField
  need (decide (fld 2 22 w = 0#2)) .reservedField
  need (decide (s1.toNat < 36)) .reservedSource
  need (decide (s2.toNat < 36)) .reservedSource
  pure (.acb c s1 s2 size)

/-- ACB_GET (R330). -/
def decAcbGet (w : Nat) (x : Ext) : Except Cause Instr := do
  need (x.e0.isNone && x.e2.isNone) .extMisuse
  let ad : AReg := fld 5 19 w
  let c : CbReg := fld 3 13 w
  need (decide (fld 5 0 w = 0#5)) .reservedField
  need (decide (fld 7 6 w = 0#7)) .reservedField
  need (decide (fld 3 16 w = 0#3)) .reservedField
  pure (.acbGet ad c)

/-- ACBREL (R331). -/
def decAcbRel (w : Nat) (x : Ext) : Except Cause Instr := do
  need (x.e0.isNone && x.e2.isNone) .extMisuse
  let c : CbReg := fld 3 19 w
  need (decide (fld 19 0 w = 0#19)) .reservedField
  need (decide (fld 2 22 w = 0#2)) .reservedField
  pure (.acbRel c)

/-- VADD (R249). -/
def decVadd (w : Nat) (x : Ext) : Except Cause Instr := do
  need (x.e0.isNone && x.e2.isNone) .extMisuse
  let vd : VDst := fld 7 17 w
  let vs1 : VSrc := fld 7 10 w
  let vs2 : VSrc := fld 7 3 w
  let rm : BitVec 3 := fld 3 0 w
  need (decide (vd.toNat < 69)) .reservedDestination
  need (decide (vs1.toNat < 72)) .reservedSource
  need (decide (vs2.toNat < 72)) .reservedSource
  pure (.vadd vd vs1 vs2 rm)

/-- VSUB (R249). -/
def decVsub (w : Nat) (x : Ext) : Except Cause Instr := do
  need (x.e0.isNone && x.e2.isNone) .extMisuse
  let vd : VDst := fld 7 17 w
  let vs1 : VSrc := fld 7 10 w
  let vs2 : VSrc := fld 7 3 w
  let rm : BitVec 3 := fld 3 0 w
  need (decide (vd.toNat < 69)) .reservedDestination
  need (decide (vs1.toNat < 72)) .reservedSource
  need (decide (vs2.toNat < 72)) .reservedSource
  pure (.vsub vd vs1 vs2 rm)

/-- VMUL (R249). -/
def decVmul (w : Nat) (x : Ext) : Except Cause Instr := do
  need (x.e0.isNone && x.e2.isNone) .extMisuse
  let vd : VDst := fld 7 17 w
  let vs1 : VSrc := fld 7 10 w
  let vs2 : VSrc := fld 7 3 w
  let rm : BitVec 3 := fld 3 0 w
  need (decide (vd.toNat < 69)) .reservedDestination
  need (decide (vs1.toNat < 72)) .reservedSource
  need (decide (vs2.toNat < 72)) .reservedSource
  pure (.vmul vd vs1 vs2 rm)

/-- VMULH (R249). -/
def decVmulh (w : Nat) (x : Ext) : Except Cause Instr := do
  need (x.e0.isNone && x.e2.isNone) .extMisuse
  let vd : VDst := fld 7 17 w
  let vs1 : VSrc := fld 7 10 w
  let vs2 : VSrc := fld 7 3 w
  need (decide (fld 3 0 w = 0#3)) .reservedField
  need (decide (vd.toNat < 69)) .reservedDestination
  need (decide (vs1.toNat < 72)) .reservedSource
  need (decide (vs2.toNat < 72)) .reservedSource
  pure (.vmulh vd vs1 vs2)

/-- VMA (R252). -/
def decVma (w : Nat) (x : Ext) : Except Cause Instr := do
  need (x.e0.isNone) .extMisuse
  let vd : VDst := fld 7 17 w
  let vs1 : VSrc := fld 7 10 w
  let vs2 : VSrc := fld 7 3 w
  let rm : BitVec 3 := fld 3 0 w
  let c : Option VSrc := x.e2.map fun e => fld 7 21 e.toNat
  need (decide (fld 7 14 x.e2w = 0#7)) .reservedField
  need (decide (fld 7 7 x.e2w = 0#7)) .reservedField
  need (decide (fld 7 0 x.e2w = 0#7)) .reservedField
  need (decide (x.e2.isNone ∨ fld 7 14 x.e2w = 0#7)) .reservedField
  need (decide (x.e2.isNone ∨ fld 7 7 x.e2w = 0#7)) .reservedField
  need (decide (x.e2.isNone ∨ fld 7 0 x.e2w = 0#7)) .reservedField
  need (decide (vd.toNat < 69)) .reservedDestination
  need (decide (vs1.toNat < 72)) .reservedSource
  need (decide (vs2.toNat < 72)) .reservedSource
  need (c.all fun e => decide (e.toNat < 72)) .reservedSource
  pure (.vma vd vs1 vs2 rm c)

/-- VDIV (R253). -/
def decVdiv (w : Nat) (x : Ext) : Except Cause Instr := do
  need (x.e0.isNone && x.e2.isNone) .extMisuse
  let vd : VDst := fld 7 17 w
  let vs1 : VSrc := fld 7 10 w
  let vs2 : VSrc := fld 7 3 w
  let rm : BitVec 3 := fld 3 0 w
  need (decide (vd.toNat < 69)) .reservedDestination
  need (decide (vs1.toNat < 72)) .reservedSource
  need (decide (vs2.toNat < 72)) .reservedSource
  pure (.vdiv vd vs1 vs2 rm)

/-- VSQRT (R253). -/
def decVsqrt (w : Nat) (x : Ext) : Except Cause Instr := do
  need (x.e0.isNone && x.e2.isNone) .extMisuse
  let vd : VDst := fld 7 17 w
  let vs1 : VSrc := fld 7 10 w
  let rm : BitVec 3 := fld 3 0 w
  need (decide (fld 7 3 w = 0#7)) .reservedField
  need (decide (vd.toNat < 69)) .reservedDestination
  need (decide (vs1.toNat < 72)) .reservedSource
  pure (.vsqrt vd vs1 rm)

/-- VMIN (R251). -/
def decVmin (w : Nat) (x : Ext) : Except Cause Instr := do
  need (x.e0.isNone && x.e2.isNone) .extMisuse
  let vd : VDst := fld 7 17 w
  let vs1 : VSrc := fld 7 10 w
  let vs2 : VSrc := fld 7 3 w
  need (decide (fld 3 0 w = 0#3)) .reservedField
  need (decide (vd.toNat < 69)) .reservedDestination
  need (decide (vs1.toNat < 72)) .reservedSource
  need (decide (vs2.toNat < 72)) .reservedSource
  pure (.vmin vd vs1 vs2)

/-- VMAX (R251). -/
def decVmax (w : Nat) (x : Ext) : Except Cause Instr := do
  need (x.e0.isNone && x.e2.isNone) .extMisuse
  let vd : VDst := fld 7 17 w
  let vs1 : VSrc := fld 7 10 w
  let vs2 : VSrc := fld 7 3 w
  need (decide (fld 3 0 w = 0#3)) .reservedField
  need (decide (vd.toNat < 69)) .reservedDestination
  need (decide (vs1.toNat < 72)) .reservedSource
  need (decide (vs2.toNat < 72)) .reservedSource
  pure (.vmax vd vs1 vs2)

/-- VABS (R249). -/
def decVabs (w : Nat) (x : Ext) : Except Cause Instr := do
  need (x.e0.isNone && x.e2.isNone) .extMisuse
  let vd : VDst := fld 7 17 w
  let vs1 : VSrc := fld 7 10 w
  need (decide (fld 10 0 w = 0#10)) .reservedField
  need (decide (vd.toNat < 69)) .reservedDestination
  need (decide (vs1.toNat < 72)) .reservedSource
  pure (.vabs vd vs1)

/-- VNEG (R249). -/
def decVneg (w : Nat) (x : Ext) : Except Cause Instr := do
  need (x.e0.isNone && x.e2.isNone) .extMisuse
  let vd : VDst := fld 7 17 w
  let vs1 : VSrc := fld 7 10 w
  need (decide (fld 10 0 w = 0#10)) .reservedField
  need (decide (vd.toNat < 69)) .reservedDestination
  need (decide (vs1.toNat < 72)) .reservedSource
  pure (.vneg vd vs1)

/-- VSHL (R249). -/
def decVshl (w : Nat) (x : Ext) : Except Cause Instr := do
  need (x.e0.isNone && x.e2.isNone) .extMisuse
  let vd : VDst := fld 7 17 w
  let vs1 : VSrc := fld 7 10 w
  let vs2 : VSrc := fld 7 3 w
  need (decide (fld 3 0 w = 0#3)) .reservedField
  need (decide (vd.toNat < 69)) .reservedDestination
  need (decide (vs1.toNat < 72)) .reservedSource
  need (decide (vs2.toNat < 72)) .reservedSource
  pure (.vshl vd vs1 vs2)

/-- VSHR (R249). -/
def decVshr (w : Nat) (x : Ext) : Except Cause Instr := do
  need (x.e0.isNone && x.e2.isNone) .extMisuse
  let vd : VDst := fld 7 17 w
  let vs1 : VSrc := fld 7 10 w
  let vs2 : VSrc := fld 7 3 w
  need (decide (fld 3 0 w = 0#3)) .reservedField
  need (decide (vd.toNat < 69)) .reservedDestination
  need (decide (vs1.toNat < 72)) .reservedSource
  need (decide (vs2.toNat < 72)) .reservedSource
  pure (.vshr vd vs1 vs2)

/-- VSAR (R249). -/
def decVsar (w : Nat) (x : Ext) : Except Cause Instr := do
  need (x.e0.isNone && x.e2.isNone) .extMisuse
  let vd : VDst := fld 7 17 w
  let vs1 : VSrc := fld 7 10 w
  let vs2 : VSrc := fld 7 3 w
  need (decide (fld 3 0 w = 0#3)) .reservedField
  need (decide (vd.toNat < 69)) .reservedDestination
  need (decide (vs1.toNat < 72)) .reservedSource
  need (decide (vs2.toNat < 72)) .reservedSource
  pure (.vsar vd vs1 vs2)

/-- VAND (R249). -/
def decVand (w : Nat) (x : Ext) : Except Cause Instr := do
  need (x.e0.isNone && x.e2.isNone) .extMisuse
  let vd : VDst := fld 7 17 w
  let vs1 : VSrc := fld 7 10 w
  let vs2 : VSrc := fld 7 3 w
  need (decide (fld 3 0 w = 0#3)) .reservedField
  need (decide (vd.toNat < 69)) .reservedDestination
  need (decide (vs1.toNat < 72)) .reservedSource
  need (decide (vs2.toNat < 72)) .reservedSource
  pure (.vand vd vs1 vs2)

/-- VOR (R249). -/
def decVor (w : Nat) (x : Ext) : Except Cause Instr := do
  need (x.e0.isNone && x.e2.isNone) .extMisuse
  let vd : VDst := fld 7 17 w
  let vs1 : VSrc := fld 7 10 w
  let vs2 : VSrc := fld 7 3 w
  need (decide (fld 3 0 w = 0#3)) .reservedField
  need (decide (vd.toNat < 69)) .reservedDestination
  need (decide (vs1.toNat < 72)) .reservedSource
  need (decide (vs2.toNat < 72)) .reservedSource
  pure (.vor vd vs1 vs2)

/-- VXOR (R249). -/
def decVxor (w : Nat) (x : Ext) : Except Cause Instr := do
  need (x.e0.isNone && x.e2.isNone) .extMisuse
  let vd : VDst := fld 7 17 w
  let vs1 : VSrc := fld 7 10 w
  let vs2 : VSrc := fld 7 3 w
  need (decide (fld 3 0 w = 0#3)) .reservedField
  need (decide (vd.toNat < 69)) .reservedDestination
  need (decide (vs1.toNat < 72)) .reservedSource
  need (decide (vs2.toNat < 72)) .reservedSource
  pure (.vxor vd vs1 vs2)

/-- VNOT (R249). -/
def decVnot (w : Nat) (x : Ext) : Except Cause Instr := do
  need (x.e0.isNone && x.e2.isNone) .extMisuse
  let vd : VDst := fld 7 17 w
  let vs1 : VSrc := fld 7 10 w
  need (decide (fld 10 0 w = 0#10)) .reservedField
  need (decide (vd.toNat < 69)) .reservedDestination
  need (decide (vs1.toNat < 72)) .reservedSource
  pure (.vnot vd vs1)

/-- VPOPC (R249). -/
def decVpopc (w : Nat) (x : Ext) : Except Cause Instr := do
  need (x.e0.isNone && x.e2.isNone) .extMisuse
  let vd : VDst := fld 7 17 w
  let vs1 : VSrc := fld 7 10 w
  need (decide (fld 10 0 w = 0#10)) .reservedField
  need (decide (vd.toNat < 69)) .reservedDestination
  need (decide (vs1.toNat < 72)) .reservedSource
  pure (.vpopc vd vs1)

/-- VCLZ (R249). -/
def decVclz (w : Nat) (x : Ext) : Except Cause Instr := do
  need (x.e0.isNone && x.e2.isNone) .extMisuse
  let vd : VDst := fld 7 17 w
  let vs1 : VSrc := fld 7 10 w
  need (decide (fld 10 0 w = 0#10)) .reservedField
  need (decide (vd.toNat < 69)) .reservedDestination
  need (decide (vs1.toNat < 72)) .reservedSource
  pure (.vclz vd vs1)

/-- VEXP (R253). -/
def decVexp (w : Nat) (x : Ext) : Except Cause Instr := do
  need (x.e0.isNone && x.e2.isNone) .extMisuse
  let vd : VDst := fld 7 17 w
  let vs1 : VSrc := fld 7 10 w
  let rm : BitVec 3 := fld 3 0 w
  need (decide (fld 7 3 w = 0#7)) .reservedField
  need (decide (vd.toNat < 69)) .reservedDestination
  need (decide (vs1.toNat < 72)) .reservedSource
  pure (.vexp vd vs1 rm)

/-- VEXP2 (R253). -/
def decVexp2 (w : Nat) (x : Ext) : Except Cause Instr := do
  need (x.e0.isNone && x.e2.isNone) .extMisuse
  let vd : VDst := fld 7 17 w
  let vs1 : VSrc := fld 7 10 w
  let rm : BitVec 3 := fld 3 0 w
  need (decide (fld 7 3 w = 0#7)) .reservedField
  need (decide (vd.toNat < 69)) .reservedDestination
  need (decide (vs1.toNat < 72)) .reservedSource
  pure (.vexp2 vd vs1 rm)

/-- VLOG (R253). -/
def decVlog (w : Nat) (x : Ext) : Except Cause Instr := do
  need (x.e0.isNone && x.e2.isNone) .extMisuse
  let vd : VDst := fld 7 17 w
  let vs1 : VSrc := fld 7 10 w
  let rm : BitVec 3 := fld 3 0 w
  need (decide (fld 7 3 w = 0#7)) .reservedField
  need (decide (vd.toNat < 69)) .reservedDestination
  need (decide (vs1.toNat < 72)) .reservedSource
  pure (.vlog vd vs1 rm)

/-- VLOG2 (R253). -/
def decVlog2 (w : Nat) (x : Ext) : Except Cause Instr := do
  need (x.e0.isNone && x.e2.isNone) .extMisuse
  let vd : VDst := fld 7 17 w
  let vs1 : VSrc := fld 7 10 w
  let rm : BitVec 3 := fld 3 0 w
  need (decide (fld 7 3 w = 0#7)) .reservedField
  need (decide (vd.toNat < 69)) .reservedDestination
  need (decide (vs1.toNat < 72)) .reservedSource
  pure (.vlog2 vd vs1 rm)

/-- VSIN (R253). -/
def decVsin (w : Nat) (x : Ext) : Except Cause Instr := do
  need (x.e0.isNone && x.e2.isNone) .extMisuse
  let vd : VDst := fld 7 17 w
  let vs1 : VSrc := fld 7 10 w
  let rm : BitVec 3 := fld 3 0 w
  need (decide (fld 7 3 w = 0#7)) .reservedField
  need (decide (vd.toNat < 69)) .reservedDestination
  need (decide (vs1.toNat < 72)) .reservedSource
  pure (.vsin vd vs1 rm)

/-- VCOS (R253). -/
def decVcos (w : Nat) (x : Ext) : Except Cause Instr := do
  need (x.e0.isNone && x.e2.isNone) .extMisuse
  let vd : VDst := fld 7 17 w
  let vs1 : VSrc := fld 7 10 w
  let rm : BitVec 3 := fld 3 0 w
  need (decide (fld 7 3 w = 0#7)) .reservedField
  need (decide (vd.toNat < 69)) .reservedDestination
  need (decide (vs1.toNat < 72)) .reservedSource
  pure (.vcos vd vs1 rm)

/-- VTANH (R253). -/
def decVtanh (w : Nat) (x : Ext) : Except Cause Instr := do
  need (x.e0.isNone && x.e2.isNone) .extMisuse
  let vd : VDst := fld 7 17 w
  let vs1 : VSrc := fld 7 10 w
  let rm : BitVec 3 := fld 3 0 w
  need (decide (fld 7 3 w = 0#7)) .reservedField
  need (decide (vd.toNat < 69)) .reservedDestination
  need (decide (vs1.toNat < 72)) .reservedSource
  pure (.vtanh vd vs1 rm)

/-- VERF (R253). -/
def decVerf (w : Nat) (x : Ext) : Except Cause Instr := do
  need (x.e0.isNone && x.e2.isNone) .extMisuse
  let vd : VDst := fld 7 17 w
  let vs1 : VSrc := fld 7 10 w
  let rm : BitVec 3 := fld 3 0 w
  need (decide (fld 7 3 w = 0#7)) .reservedField
  need (decide (vd.toNat < 69)) .reservedDestination
  need (decide (vs1.toNat < 72)) .reservedSource
  pure (.verf vd vs1 rm)

/-- VRCP (R253). -/
def decVrcp (w : Nat) (x : Ext) : Except Cause Instr := do
  need (x.e0.isNone && x.e2.isNone) .extMisuse
  let vd : VDst := fld 7 17 w
  let vs1 : VSrc := fld 7 10 w
  let rm : BitVec 3 := fld 3 0 w
  need (decide (fld 7 3 w = 0#7)) .reservedField
  need (decide (vd.toNat < 69)) .reservedDestination
  need (decide (vs1.toNat < 72)) .reservedSource
  pure (.vrcp vd vs1 rm)

/-- VRSQRT (R253). -/
def decVrsqrt (w : Nat) (x : Ext) : Except Cause Instr := do
  need (x.e0.isNone && x.e2.isNone) .extMisuse
  let vd : VDst := fld 7 17 w
  let vs1 : VSrc := fld 7 10 w
  let rm : BitVec 3 := fld 3 0 w
  need (decide (fld 7 3 w = 0#7)) .reservedField
  need (decide (vd.toNat < 69)) .reservedDestination
  need (decide (vs1.toNat < 72)) .reservedSource
  pure (.vrsqrt vd vs1 rm)

/-- VCVT (R254). -/
def decVcvt (w : Nat) (x : Ext) : Except Cause Instr := do
  need (x.e0.isNone && x.e2.isNone) .extMisuse
  let vd : VDst := fld 7 17 w
  let vs1 : VSrc := fld 7 10 w
  let part : BitVec 3 := fld 3 7 w
  let t : BitVec 4 := fld 4 3 w
  let rm : BitVec 3 := fld 3 0 w
  need (decide (t.toNat ≤ 10)) .reservedField
  need (decide (vd.toNat < 69)) .reservedDestination
  need (decide (vs1.toNat < 72)) .reservedSource
  pure (.vcvt vd vs1 part t rm)

/-- VSCALE (R255). -/
def decVscale (w : Nat) (x : Ext) : Except Cause Instr := do
  need (x.e0.isNone && x.e2.isNone) .extMisuse
  let vd : VDst := fld 7 17 w
  let vs1 : VSrc := fld 7 10 w
  let val : BitVec 8 := fld 8 0 w
  need (decide (fld 1 9 w = 0#1)) .reservedField
  need (decide (vd.toNat < 69)) .reservedDestination
  need (decide (vs1.toNat < 72)) .reservedSource
  pure (.vscale vd vs1 val)

/-- VSCALE_ADD (R255). -/
def decVscaleAdd (w : Nat) (x : Ext) : Except Cause Instr := do
  need (x.e0.isNone && x.e2.isNone) .extMisuse
  let vd : VDst := fld 7 17 w
  let vs1 : VSrc := fld 7 10 w
  let val : BitVec 8 := fld 8 0 w
  need (decide (fld 1 9 w = 0#1)) .reservedField
  need (decide (vd.toNat < 69)) .reservedDestination
  need (decide (vs1.toNat < 72)) .reservedSource
  pure (.vscaleAdd vd vs1 val)

/-- VTAG (R256). -/
def decVtag (w : Nat) (x : Ext) : Except Cause Instr := do
  need (x.e0.isNone && x.e2.isNone) .extMisuse
  let vd : VDst := fld 7 17 w
  let vs1 : VSrc := fld 7 10 w
  let fmt : BitVec 7 := fld 7 0 w
  need (decide (fld 3 7 w = 0#3)) .reservedField
  need (decide (vd.toNat < 69)) .reservedDestination
  need (decide (vs1.toNat < 72)) .reservedSource
  pure (.vtag vd vs1 fmt)

/-- VSEED (R257). -/
def decVseed (w : Nat) (x : Ext) : Except Cause Instr := do
  need (x.e0.isNone && x.e2.isNone) .extMisuse
  let xs : CSrc := fld 6 10 w
  need (decide (fld 10 0 w = 0#10)) .reservedField
  need (decide (fld 8 16 w = 0#8)) .reservedField
  need (decide (xs.toNat < 32)) .reservedSource
  pure (.vseed xs)

/-- VUNT5 (R258). -/
def decVunt5 (w : Nat) (x : Ext) : Except Cause Instr := do
  need (x.e0.isNone && x.e2.isNone) .extMisuse
  let vd : VDst := fld 7 17 w
  let vs1 : VSrc := fld 7 10 w
  let chk : Bool := fld 1 6 w = 1#1
  let part : BitVec 3 := fld 3 3 w
  need (decide (fld 3 0 w = 0#3)) .reservedField
  need (decide (fld 3 7 w = 0#3)) .reservedField
  need (decide (vd.toNat < 69)) .reservedDestination
  need (decide (vs1.toNat < 72)) .reservedSource
  pure (.vunt5 vd vs1 chk part)

/-- VUN4O (R259). -/
def decVun4o (w : Nat) (x : Ext) : Except Cause Instr := do
  need (x.e0.isNone && x.e2.isNone) .extMisuse
  let vd : VDst := fld 7 17 w
  let vs1 : VSrc := fld 7 10 w
  let part : BitVec 3 := fld 3 7 w
  let t : BitVec 4 := fld 4 3 w
  let rm : BitVec 3 := fld 3 0 w
  need (decide (t.toNat ≤ 3)) .reservedField
  need (decide (vd.toNat < 69)) .reservedDestination
  need (decide (vs1.toNat < 72)) .reservedSource
  pure (.vun4o vd vs1 part t rm)

/-- VPK (R260). -/
def decVpk (w : Nat) (x : Ext) : Except Cause Instr := do
  need (x.e0.isNone && x.e2.isNone) .extMisuse
  let vd : VDst := fld 7 17 w
  let vs1 : VSrc := fld 7 10 w
  let part : BitVec 4 := fld 4 6 w
  let t : BitVec 3 := fld 3 3 w
  let rm : BitVec 3 := fld 3 0 w
  need (decide (t.toNat ≤ 2)) .reservedField
  need (decide (vd.toNat < 69)) .reservedDestination
  need (decide (vs1.toNat < 72)) .reservedSource
  pure (.vpk vd vs1 part t rm)

/-- VTADD (R261). -/
def decVtadd (w : Nat) (x : Ext) : Except Cause Instr := do
  need (x.e0.isNone && x.e2.isNone) .extMisuse
  let vd : VDst := fld 7 17 w
  let vs1 : VSrc := fld 7 10 w
  let vs2 : VSrc := fld 7 3 w
  let rm : BitVec 3 := fld 3 0 w
  need (decide (vd.toNat < 69)) .reservedDestination
  need (decide (vs1.toNat < 72)) .reservedSource
  need (decide (vs2.toNat < 72)) .reservedSource
  pure (.vtadd vd vs1 vs2 rm)

/-- VRSUM (R262). -/
def decVrsum (w : Nat) (x : Ext) : Except Cause Instr := do
  need (x.e0.isNone && x.e2.isNone) .extMisuse
  let vd : VDst := fld 7 17 w
  let vs1 : VSrc := fld 7 10 w
  let rm : BitVec 3 := fld 3 0 w
  need (decide (fld 7 3 w = 0#7)) .reservedField
  need (decide (vd.toNat < 69)) .reservedDestination
  need (decide (vs1.toNat < 72)) .reservedSource
  pure (.vrsum vd vs1 rm)

/-- VRMAX (R262). -/
def decVrmax (w : Nat) (x : Ext) : Except Cause Instr := do
  need (x.e0.isNone && x.e2.isNone) .extMisuse
  let vd : VDst := fld 7 17 w
  let vs1 : VSrc := fld 7 10 w
  need (decide (fld 10 0 w = 0#10)) .reservedField
  need (decide (vd.toNat < 69)) .reservedDestination
  need (decide (vs1.toNat < 72)) .reservedSource
  pure (.vrmax vd vs1)

/-- VRMIN (R262). -/
def decVrmin (w : Nat) (x : Ext) : Except Cause Instr := do
  need (x.e0.isNone && x.e2.isNone) .extMisuse
  let vd : VDst := fld 7 17 w
  let vs1 : VSrc := fld 7 10 w
  need (decide (fld 10 0 w = 0#10)) .reservedField
  need (decide (vd.toNat < 69)) .reservedDestination
  need (decide (vs1.toNat < 72)) .reservedSource
  pure (.vrmin vd vs1)

/-- VSHUF (R264). -/
def decVshuf (w : Nat) (x : Ext) : Except Cause Instr := do
  need (x.e0.isNone && x.e2.isNone) .extMisuse
  let vd : VDst := fld 7 17 w
  let vs1 : VSrc := fld 7 10 w
  let vs2 : VSrc := fld 7 3 w
  need (decide (fld 3 0 w = 0#3)) .reservedField
  need (decide (vd.toNat < 69)) .reservedDestination
  need (decide (vs1.toNat < 72)) .reservedSource
  need (decide (vs2.toNat < 72)) .reservedSource
  pure (.vshuf vd vs1 vs2)

/-- VSLIDE (R265). -/
def decVslide (w : Nat) (x : Ext) : Except Cause Instr := do
  need (x.e0.isNone && x.e2.isNone) .extMisuse
  let vd : VDst := fld 7 17 w
  let vs1 : VSrc := fld 7 10 w
  let s : BitVec 10 := fld 10 0 w
  need (decide (vd.toNat < 69)) .reservedDestination
  need (decide (vs1.toNat < 72)) .reservedSource
  pure (.vslide vd vs1 s)

/-- VBCAST (R265). -/
def decVbcast (w : Nat) (x : Ext) : Except Cause Instr := do
  need (x.e0.isNone && x.e2.isNone) .extMisuse
  let vd : VDst := fld 7 17 w
  let vs1 : VSrc := fld 7 10 w
  let i : BitVec 8 := fld 8 0 w
  need (decide (fld 2 8 w = 0#2)) .reservedField
  need (decide (vd.toNat < 69)) .reservedDestination
  need (decide (vs1.toNat < 72)) .reservedSource
  pure (.vbcast vd vs1 i)

/-- VSPLAT (R266). -/
def decVsplat (w : Nat) (x : Ext) : Except Cause Instr := do
  need (x.e0.isNone && x.e2.isNone) .extMisuse
  let vd : VDst := fld 7 17 w
  let xs : CSrc := fld 6 10 w
  let fmt : BitVec 7 := fld 7 0 w
  need (decide (fld 3 7 w = 0#3)) .reservedField
  need (decide (fld 1 16 w = 0#1)) .reservedField
  need (decide (vd.toNat < 69)) .reservedDestination
  need (decide (xs.toNat < 32)) .reservedSource
  pure (.vsplat vd xs fmt)

/-- VEXTR (R267). -/
def decVextr (w : Nat) (x : Ext) : Except Cause Instr := do
  need (x.e0.isNone && x.e2.isNone) .extMisuse
  let xd : CReg := fld 5 17 w
  let vs1 : VSrc := fld 7 10 w
  let i : BitVec 8 := fld 8 0 w
  need (decide (fld 2 8 w = 0#2)) .reservedField
  need (decide (fld 2 22 w = 0#2)) .reservedField
  need (decide (vs1.toNat < 72)) .reservedSource
  pure (.vextr xd vs1 i)

/-- VMOV (R263). -/
def decVmov (w : Nat) (x : Ext) : Except Cause Instr := do
  need (x.e0.isNone && x.e2.isNone) .extMisuse
  let vd : VDst := fld 7 17 w
  let vs1 : VSrc := fld 7 10 w
  need (decide (fld 10 0 w = 0#10)) .reservedField
  need (decide (vd.toNat < 69)) .reservedDestination
  need (decide (vs1.toNat < 72)) .reservedSource
  pure (.vmov vd vs1)

/-- VLI (R268). -/
def decVli (w : Nat) (x : Ext) : Except Cause Instr := do
  need (x.e2.isNone) .extMisuse
  let vd : VDst := fld 7 17 w
  let imm : Imm 17 := ⟨x.e0, fld 17 0 w⟩
  need (decide (vd.toNat < 69)) .reservedDestination
  pure (.vli vd imm)

/-- VCMP (R269). -/
def decVcmp (w : Nat) (x : Ext) : Except Cause Instr := do
  need (x.e0.isNone && x.e2.isNone) .extMisuse
  let vs1 : VSrc := fld 7 17 w
  let vs2 : VSrc := fld 7 10 w
  let cond : BitVec 3 := fld 3 0 w
  need (decide (cond.toNat ≤ 6)) .reservedField
  need (decide (fld 7 3 w = 0#7)) .reservedField
  need (decide (vs1.toNat < 72)) .reservedSource
  need (decide (vs2.toNat < 72)) .reservedSource
  pure (.vcmp vs1 vs2 cond)

/-- VMINV (R270). -/
def decVminv (w : Nat) (x : Ext) : Except Cause Instr := do
  need (x.e0.isNone && x.e2.isNone) .extMisuse
  need (decide (fld 24 0 w = 0#24)) .reservedField
  pure .vminv

/-- VMPOP (R270). -/
def decVmpop (w : Nat) (x : Ext) : Except Cause Instr := do
  need (x.e0.isNone && x.e2.isNone) .extMisuse
  let n : BitVec 4 := fld 4 0 w
  need (decide (fld 20 4 w = 0#20)) .reservedField
  pure (.vmpop n)

/-- VSKIP (R271). -/
def decVskip (w : Nat) (x : Ext) : Except Cause Instr := do
  need (x.e2.isNone) .extMisuse
  let off : Imm 24 := ⟨x.e0, fld 24 0 w⟩
  pure (.vskip off)

/-- VMGET (R270). -/
def decVmget (w : Nat) (x : Ext) : Except Cause Instr := do
  need (x.e0.isNone && x.e2.isNone) .extMisuse
  let vd : VDst := fld 7 17 w
  let d : BitVec 4 := fld 4 0 w
  need (decide (fld 13 4 w = 0#13)) .reservedField
  need (decide (vd.toNat < 69)) .reservedDestination
  pure (.vmget vd d)

/-- VPARK (R273). -/
def decVpark (w : Nat) (x : Ext) : Except Cause Instr := do
  need (x.e0.isNone && x.e2.isNone) .extMisuse
  let vr : BitVec 6 := fld 6 17 w
  need (decide (fld 17 0 w = 0#17)) .reservedField
  need (decide (fld 1 23 w = 0#1)) .reservedDestination
  pure (.vpark vr)

/-- VUNPARK (R274). -/
def decVunpark (w : Nat) (x : Ext) : Except Cause Instr := do
  need (x.e0.isNone && x.e2.isNone) .extMisuse
  let vr : BitVec 6 := fld 6 17 w
  need (decide (fld 17 0 w = 0#17)) .reservedField
  need (decide (fld 1 23 w = 0#1)) .reservedDestination
  pure (.vunpark vr)

/-- VPUSHM (R275). -/
def decVpushm (w : Nat) (x : Ext) : Except Cause Instr := do
  need (x.e0.isNone && x.e2.isNone) .extMisuse
  let vf : BitVec 6 := fld 6 17 w
  let vl : BitVec 6 := fld 6 10 w
  need (decide (vf.toNat + 64 * (fld 1 23 w).toNat ≤ vl.toNat + 64 * (fld 1 16 w).toNat)) .reservedField
  need (decide (fld 10 0 w = 0#10)) .reservedField
  need (decide (fld 1 16 w = 0#1)) .reservedSource
  need (decide (fld 1 23 w = 0#1)) .reservedDestination
  pure (.vpushm vf vl)

/-- VPOPM (R275). -/
def decVpopm (w : Nat) (x : Ext) : Except Cause Instr := do
  need (x.e0.isNone && x.e2.isNone) .extMisuse
  let vf : BitVec 6 := fld 6 17 w
  let vl : BitVec 6 := fld 6 10 w
  need (decide (vf.toNat + 64 * (fld 1 23 w).toNat ≤ vl.toNat + 64 * (fld 1 16 w).toNat)) .reservedField
  need (decide (fld 10 0 w = 0#10)) .reservedField
  need (decide (fld 1 16 w = 0#1)) .reservedSource
  need (decide (fld 1 23 w = 0#1)) .reservedDestination
  pure (.vpopm vf vl)

/-- VSETSH (R272). -/
def decVsetsh (w : Nat) (x : Ext) : Except Cause Instr := do
  need (x.e0.isNone && x.e2.isNone) .extMisuse
  let h : ShReg := fld 3 0 w
  need (decide (fld 21 3 w = 0#21)) .reservedField
  pure (.vsetsh h)

/-- MLEASE (R289). -/
def decMlease (w : Nat) (x : Ext) : Except Cause Instr := do
  need (x.e0.isNone && x.e2.isNone) .extMisuse
  let q : BitVec 4 := fld 4 20 w
  let tok : Tok := if fld 1 19 w = 1#1 then some (fld 3 16 w) else none
  need (decide (fld 1 19 w = 1#1 ∨ fld 3 16 w = 0#3)) .reservedField
  need (decide (fld 16 0 w = 0#16)) .reservedField
  pure (.mlease q tok)

/-- MFREE (R294). -/
def decMfree (w : Nat) (x : Ext) : Except Cause Instr := do
  need (x.e0.isNone && x.e2.isNone) .extMisuse
  let q : BitVec 4 := fld 4 20 w
  let tok : Tok := if fld 1 19 w = 1#1 then some (fld 3 16 w) else none
  need (decide (fld 1 19 w = 1#1 ∨ fld 3 16 w = 0#3)) .reservedField
  need (decide (fld 16 0 w = 0#16)) .reservedField
  pure (.mfree q tok)

/-- MMA (R297). -/
def decMma (w : Nat) (x : Ext) : Except Cause Instr := do
  need (x.e0.isNone && x.e2.isNone) .extMisuse
  let ta : TsReg := fld 4 20 w
  let tb : TsReg := fld 4 16 w
  let h : ShReg := fld 3 13 w
  let rm : BitVec 3 := fld 3 10 w
  let tok : Tok := if fld 1 9 w = 1#1 then some (fld 3 6 w) else none
  need (decide (fld 1 9 w = 1#1 ∨ fld 3 6 w = 0#3)) .reservedField
  need (decide (fld 6 0 w = 0#6)) .reservedField
  pure (.mma ta tb h rm tok)

/-- MMAH (R298). -/
def decMmah (w : Nat) (x : Ext) : Except Cause Instr := do
  need (x.e0.isNone) .extMisuse
  let ta : TsReg := fld 4 20 w
  let tb : TsReg := fld 4 16 w
  let h : ShReg := fld 3 13 w
  let rm : BitVec 3 := fld 3 10 w
  let tok : Tok := if fld 1 9 w = 1#1 then some (fld 3 6 w) else none
  let which : Bool := fld 1 4 w = 1#1
  let ts : TsReg := fld 4 0 w
  let e1 : CSrc := fld 6 21 x.e2w
  let e2 : CSrc := fld 6 14 x.e2w
  need (decide (fld 1 9 w = 1#1 ∨ fld 3 6 w = 0#3)) .reservedField
  need (decide (fld 1 27 x.e2w = 0#1)) .reservedField
  need (decide (fld 1 20 x.e2w = 0#1)) .reservedField
  need (decide (fld 1 5 w = 0#1)) .reservedField
  need (decide (fld 7 7 x.e2w = 0#7)) .reservedField
  need (decide (fld 7 0 x.e2w = 0#7)) .reservedField
  need (decide (e1.toNat < 32)) .reservedSource
  need (decide (e2.toNat < 32)) .reservedSource
  pure (.mmah ta tb h rm tok which ts e1 e2)

/-- MMACK (R299). -/
def decMmack (w : Nat) (x : Ext) : Except Cause Instr := do
  need (x.e0.isNone && x.e2.isNone) .extMisuse
  let ta : TsReg := fld 4 20 w
  let tb : TsReg := fld 4 16 w
  let h : ShReg := fld 3 13 w
  let rm : BitVec 3 := fld 3 10 w
  let tok : Tok := if fld 1 9 w = 1#1 then some (fld 3 6 w) else none
  need (decide (fld 1 9 w = 1#1 ∨ fld 3 6 w = 0#3)) .reservedField
  need (decide (fld 6 0 w = 0#6)) .reservedField
  pure (.mmack ta tb h rm tok)

/-- MMABX (R300). -/
def decMmabx (w : Nat) (x : Ext) : Except Cause Instr := do
  need (x.e0.isNone && x.e2.isNone) .extMisuse
  let ta : TsReg := fld 4 20 w
  let tb : TsReg := fld 4 16 w
  let h : ShReg := fld 3 13 w
  let tok : Tok := if fld 1 9 w = 1#1 then some (fld 3 6 w) else none
  need (decide (fld 1 9 w = 1#1 ∨ fld 3 6 w = 0#3)) .reservedField
  need (decide (fld 6 0 w = 0#6)) .reservedField
  need (decide (fld 3 10 w = 0#3)) .reservedField
  pure (.mmabx ta tb h tok)

/-- MMABA (R300). -/
def decMmaba (w : Nat) (x : Ext) : Except Cause Instr := do
  need (x.e0.isNone && x.e2.isNone) .extMisuse
  let ta : TsReg := fld 4 20 w
  let tb : TsReg := fld 4 16 w
  let h : ShReg := fld 3 13 w
  let tok : Tok := if fld 1 9 w = 1#1 then some (fld 3 6 w) else none
  need (decide (fld 1 9 w = 1#1 ∨ fld 3 6 w = 0#3)) .reservedField
  need (decide (fld 6 0 w = 0#6)) .reservedField
  need (decide (fld 3 10 w = 0#3)) .reservedField
  pure (.mmaba ta tb h tok)

/-- MCLR (R301). -/
def decMclr (w : Nat) (x : Ext) : Except Cause Instr := do
  need (x.e0.isNone && x.e2.isNone) .extMisuse
  let h : ShReg := fld 3 13 w
  let tok : Tok := if fld 1 9 w = 1#1 then some (fld 3 6 w) else none
  need (decide (fld 1 9 w = 1#1 ∨ fld 3 6 w = 0#3)) .reservedField
  need (decide (fld 5 1 w = 0#5)) .reservedField
  need (decide (fld 3 10 w = 0#3)) .reservedField
  need (decide (fld 8 16 w = 0#8)) .reservedField
  pure (.mclr h tok)

/-- MCLR_ALL (R301). -/
def decMclrAll (w : Nat) (x : Ext) : Except Cause Instr := do
  need (x.e0.isNone && x.e2.isNone) .extMisuse
  let h : ShReg := fld 3 13 w
  let tok : Tok := if fld 1 9 w = 1#1 then some (fld 3 6 w) else none
  need (decide (fld 1 9 w = 1#1 ∨ fld 3 6 w = 0#3)) .reservedField
  need (decide (fld 5 1 w = 0#5)) .reservedField
  need (decide (fld 3 10 w = 0#3)) .reservedField
  need (decide (fld 8 16 w = 0#8)) .reservedField
  pure (.mclrAll h tok)

/-- MLDACC (R302). -/
def decMldacc (w : Nat) (x : Ext) : Except Cause Instr := do
  need (x.e0.isNone && x.e2.isNone) .extMisuse
  let ta : TsReg := fld 4 20 w
  let h : ShReg := fld 3 13 w
  let tok : Tok := if fld 1 9 w = 1#1 then some (fld 3 6 w) else none
  need (decide (fld 1 9 w = 1#1 ∨ fld 3 6 w = 0#3)) .reservedField
  need (decide (fld 6 0 w = 0#6)) .reservedField
  need (decide (fld 3 10 w = 0#3)) .reservedField
  need (decide (fld 4 16 w = 0#4)) .reservedField
  pure (.mldacc ta h tok)

/-- MSTACC (R303). -/
def decMstacc (w : Nat) (x : Ext) : Except Cause Instr := do
  need (x.e0.isNone && x.e2.isNone) .extMisuse
  let ta : TsReg := fld 4 20 w
  let h : ShReg := fld 3 13 w
  let rm : BitVec 3 := fld 3 10 w
  let tok : Tok := if fld 1 9 w = 1#1 then some (fld 3 6 w) else none
  need (decide (fld 1 9 w = 1#1 ∨ fld 3 6 w = 0#3)) .reservedField
  need (decide (fld 6 0 w = 0#6)) .reservedField
  need (decide (fld 4 16 w = 0#4)) .reservedField
  pure (.mstacc ta h rm tok)

/-- MCHK (R304). -/
def decMchk (w : Nat) (x : Ext) : Except Cause Instr := do
  need (x.e0.isNone && x.e2.isNone) .extMisuse
  let ta : TsReg := fld 4 20 w
  let h : ShReg := fld 3 13 w
  let rm : BitVec 3 := fld 3 10 w
  let tok : Tok := if fld 1 9 w = 1#1 then some (fld 3 6 w) else none
  need (decide (fld 1 9 w = 1#1 ∨ fld 3 6 w = 0#3)) .reservedField
  need (decide (fld 6 0 w = 0#6)) .reservedField
  need (decide (fld 4 16 w = 0#4)) .reservedField
  pure (.mchk ta h rm tok)

/-- MSEED (R305). -/
def decMseed (w : Nat) (x : Ext) : Except Cause Instr := do
  need (x.e0.isNone && x.e2.isNone) .extMisuse
  let q : BitVec 4 := fld 4 20 w
  let xs : CSrc := fld 6 0 w
  let tok : Tok := if fld 1 9 w = 1#1 then some (fld 3 6 w) else none
  need (decide (fld 1 9 w = 1#1 ∨ fld 3 6 w = 0#3)) .reservedField
  need (decide (fld 10 10 w = 0#10)) .reservedField
  need (decide (xs.toNat < 32)) .reservedSource
  pure (.mseed q xs tok)

/-- XCOPY_LD (R339). -/
def decXcopyLd (w : Nat) (x : Ext) : Except Cause Instr := do
  need (x.e0.isNone) .extMisuse
  let t : TsReg := fld 4 20 w
  let h : ThReg := fld 4 16 w
  let tok : Tok := if fld 1 11 w = 1#1 then some (fld 3 8 w) else none
  let fl : Fl := if fld 1 7 w = 1#1 then some (fld 5 2 w) else none
  let e1 : CSrc := fld 6 21 x.e2w
  let e2 : CSrc := fld 6 14 x.e2w
  let e3 : CSrc := fld 6 7 x.e2w
  let e4 : CSrc := fld 6 0 x.e2w
  need (decide (fld 1 11 w = 1#1 ∨ fld 3 8 w = 0#3)) .reservedField
  need (decide (fld 1 7 w = 1#1 ∨ fld 5 2 w = 0#5)) .reservedField
  need (decide (fld 1 27 x.e2w = 0#1)) .reservedField
  need (decide (fld 1 20 x.e2w = 0#1)) .reservedField
  need (decide (fld 1 13 x.e2w = 0#1)) .reservedField
  need (decide (fld 1 6 x.e2w = 0#1)) .reservedField
  need (decide (fld 2 0 w = 0#2)) .reservedField
  need (decide (fld 2 14 w = 0#2)) .reservedField
  need (decide (e1.toNat < 32)) .reservedSource
  need (decide (e2.toNat < 32)) .reservedSource
  need (decide (e3.toNat < 32)) .reservedSource
  need (decide (e4.toNat < 32)) .reservedSource
  pure (.xcopyLd t h tok fl e1 e2 e3 e4)

/-- XCOPY_ST (R339). -/
def decXcopySt (w : Nat) (x : Ext) : Except Cause Instr := do
  need (x.e0.isNone) .extMisuse
  let t : TsReg := fld 4 20 w
  let h : ThReg := fld 4 16 w
  let tok : Tok := if fld 1 11 w = 1#1 then some (fld 3 8 w) else none
  let fl : Fl := if fld 1 7 w = 1#1 then some (fld 5 2 w) else none
  let e1 : CSrc := fld 6 21 x.e2w
  let e2 : CSrc := fld 6 14 x.e2w
  let e3 : CSrc := fld 6 7 x.e2w
  let e4 : CSrc := fld 6 0 x.e2w
  need (decide (fld 1 11 w = 1#1 ∨ fld 3 8 w = 0#3)) .reservedField
  need (decide (fld 1 7 w = 1#1 ∨ fld 5 2 w = 0#5)) .reservedField
  need (decide (fld 1 27 x.e2w = 0#1)) .reservedField
  need (decide (fld 1 20 x.e2w = 0#1)) .reservedField
  need (decide (fld 1 13 x.e2w = 0#1)) .reservedField
  need (decide (fld 1 6 x.e2w = 0#1)) .reservedField
  need (decide (fld 2 0 w = 0#2)) .reservedField
  need (decide (fld 2 14 w = 0#2)) .reservedField
  need (decide (e1.toNat < 32)) .reservedSource
  need (decide (e2.toNat < 32)) .reservedSource
  need (decide (e3.toNat < 32)) .reservedSource
  need (decide (e4.toNat < 32)) .reservedSource
  pure (.xcopySt t h tok fl e1 e2 e3 e4)

/-- XCOPY_SS (R339). -/
def decXcopySs (w : Nat) (x : Ext) : Except Cause Instr := do
  need (x.e0.isNone) .extMisuse
  let td : TsReg := fld 4 20 w
  let ts : TsReg := fld 4 16 w
  let tok : Tok := if fld 1 11 w = 1#1 then some (fld 3 8 w) else none
  let fl : Fl := if fld 1 7 w = 1#1 then some (fld 5 2 w) else none
  need (decide (fld 1 11 w = 1#1 ∨ fld 3 8 w = 0#3)) .reservedField
  need (decide (fld 1 7 w = 1#1 ∨ fld 5 2 w = 0#5)) .reservedField
  need (decide (fld 2 0 w = 0#2)) .reservedField
  need (decide (fld 2 14 w = 0#2)) .reservedField
  need (decide (fld 7 21 x.e2w = 0#7)) .reservedField
  need (decide (fld 7 14 x.e2w = 0#7)) .reservedField
  need (decide (fld 7 7 x.e2w = 0#7)) .reservedField
  need (decide (fld 7 0 x.e2w = 0#7)) .reservedField
  pure (.xcopySs td ts tok fl)

/-- XCOPYS (R341). -/
def decXcopys (w : Nat) (x : Ext) : Except Cause Instr := do
  need (x.e0.isNone) .extMisuse
  let t : TsReg := fld 4 20 w
  let h : ThReg := fld 4 16 w
  let tok : Tok := if fld 1 11 w = 1#1 then some (fld 3 8 w) else none
  let fl : Fl := if fld 1 7 w = 1#1 then some (fld 5 2 w) else none
  let e1 : CSrc := fld 6 21 x.e2w
  let e2 : CSrc := fld 6 14 x.e2w
  need (decide (fld 1 11 w = 1#1 ∨ fld 3 8 w = 0#3)) .reservedField
  need (decide (fld 1 7 w = 1#1 ∨ fld 5 2 w = 0#5)) .reservedField
  need (decide (fld 1 27 x.e2w = 0#1)) .reservedField
  need (decide (fld 1 20 x.e2w = 0#1)) .reservedField
  need (decide (fld 2 0 w = 0#2)) .reservedField
  need (decide (fld 4 12 w = 0#4)) .reservedField
  need (decide (fld 7 7 x.e2w = 0#7)) .reservedField
  need (decide (fld 7 0 x.e2w = 0#7)) .reservedField
  need (decide (e1.toNat < 32)) .reservedSource
  need (decide (e2.toNat < 32)) .reservedSource
  pure (.xcopys t h tok fl e1 e2)

/-- XCB (R342). -/
def decXcb (w : Nat) (x : Ext) : Except Cause Instr := do
  need (x.e0.isNone) .extMisuse
  let c : CbReg := fld 3 20 w
  let h : ThReg := fld 4 16 w
  let tok : Tok := if fld 1 11 w = 1#1 then some (fld 3 8 w) else none
  let fl : Fl := if fld 1 7 w = 1#1 then some (fld 5 2 w) else none
  let e1 : CSrc := fld 6 21 x.e2w
  let e2 : CSrc := fld 6 14 x.e2w
  let e3 : CSrc := fld 6 7 x.e2w
  let e4 : CSrc := fld 6 0 x.e2w
  need (decide (fld 1 11 w = 1#1 ∨ fld 3 8 w = 0#3)) .reservedField
  need (decide (fld 1 7 w = 1#1 ∨ fld 5 2 w = 0#5)) .reservedField
  need (decide (fld 1 27 x.e2w = 0#1)) .reservedField
  need (decide (fld 1 20 x.e2w = 0#1)) .reservedField
  need (decide (fld 1 13 x.e2w = 0#1)) .reservedField
  need (decide (fld 1 6 x.e2w = 0#1)) .reservedField
  need (decide (fld 2 0 w = 0#2)) .reservedField
  need (decide (fld 4 12 w = 0#4)) .reservedField
  need (decide (fld 1 23 w = 0#1)) .reservedField
  need (decide (e1.toNat < 32)) .reservedSource
  need (decide (e2.toNat < 32)) .reservedSource
  need (decide (e3.toNat < 32)) .reservedSource
  need (decide (e4.toNat < 32)) .reservedSource
  pure (.xcb c h tok fl e1 e2 e3 e4)

/-- XHOST (R343). -/
def decXhost (w : Nat) (x : Ext) : Except Cause Instr := do
  need (x.e0.isNone) .extMisuse
  let t : TsReg := fld 4 20 w
  let dir : Bool := fld 1 12 w = 1#1
  let tok : Tok := if fld 1 11 w = 1#1 then some (fld 3 8 w) else none
  let fl : Fl := if fld 1 7 w = 1#1 then some (fld 5 2 w) else none
  let e1 : CSrc := fld 6 21 x.e2w
  let e2 : CSrc := fld 6 14 x.e2w
  let e3 : CSrc := fld 6 7 x.e2w
  need (decide (fld 1 11 w = 1#1 ∨ fld 3 8 w = 0#3)) .reservedField
  need (decide (fld 1 7 w = 1#1 ∨ fld 5 2 w = 0#5)) .reservedField
  need (decide (fld 1 27 x.e2w = 0#1)) .reservedField
  need (decide (fld 1 20 x.e2w = 0#1)) .reservedField
  need (decide (fld 1 13 x.e2w = 0#1)) .reservedField
  need (decide (fld 2 0 w = 0#2)) .reservedField
  need (decide (fld 7 13 w = 0#7)) .reservedField
  need (decide (fld 7 0 x.e2w = 0#7)) .reservedField
  need (decide (e1.toNat < 32)) .reservedSource
  need (decide (e2.toNat < 32)) .reservedSource
  need (decide (e3.toNat < 32)) .reservedSource
  pure (.xhost t dir tok fl e1 e2 e3)

/-- XPEER (R346). -/
def decXpeer (w : Nat) (x : Ext) : Except Cause Instr := do
  need (x.e0.isNone) .extMisuse
  let t : TsReg := fld 4 20 w
  let dir : Bool := fld 1 12 w = 1#1
  let tok : Tok := if fld 1 11 w = 1#1 then some (fld 3 8 w) else none
  let fl : Fl := if fld 1 7 w = 1#1 then some (fld 5 2 w) else none
  let e1 : CSrc := fld 6 21 x.e2w
  need (decide (fld 1 11 w = 1#1 ∨ fld 3 8 w = 0#3)) .reservedField
  need (decide (fld 1 7 w = 1#1 ∨ fld 5 2 w = 0#5)) .reservedField
  need (decide (fld 1 27 x.e2w = 0#1)) .reservedField
  need (decide (fld 2 0 w = 0#2)) .reservedField
  need (decide (fld 7 13 w = 0#7)) .reservedField
  need (decide (fld 7 14 x.e2w = 0#7)) .reservedField
  need (decide (fld 7 7 x.e2w = 0#7)) .reservedField
  need (decide (fld 7 0 x.e2w = 0#7)) .reservedField
  need (decide (e1.toNat < 32)) .reservedSource
  pure (.xpeer t dir tok fl e1)

/-- XCOLL (R348). -/
def decXcoll (w : Nat) (x : Ext) : Except Cause Instr := do
  need (x.e0.isNone) .extMisuse
  let t : TsReg := fld 4 20 w
  let rm : BitVec 3 := fld 3 16 w
  let op : BitVec 2 := fld 2 12 w
  let tok : Tok := if fld 1 11 w = 1#1 then some (fld 3 8 w) else none
  let fl : Fl := if fld 1 7 w = 1#1 then some (fld 5 2 w) else none
  let e1 : CSrc := fld 6 21 x.e2w
  let e2 : CSrc := fld 6 14 x.e2w
  need (decide (fld 1 11 w = 1#1 ∨ fld 3 8 w = 0#3)) .reservedField
  need (decide (fld 1 7 w = 1#1 ∨ fld 5 2 w = 0#5)) .reservedField
  need (decide (fld 1 27 x.e2w = 0#1)) .reservedField
  need (decide (fld 1 20 x.e2w = 0#1)) .reservedField
  need (decide (op.toNat ≤ 2)) .reservedField
  need (decide (fld 2 0 w = 0#2)) .reservedField
  need (decide (fld 2 14 w = 0#2)) .reservedField
  need (decide (fld 1 19 w = 0#1)) .reservedField
  need (decide (fld 7 7 x.e2w = 0#7)) .reservedField
  need (decide (fld 7 0 x.e2w = 0#7)) .reservedField
  need (decide (e1.toNat < 32)) .reservedSource
  need (decide (e2.toNat < 32)) .reservedSource
  pure (.xcoll t rm op tok fl e1 e2)

/-- XGATH (R349). -/
def decXgath (w : Nat) (x : Ext) : Except Cause Instr := do
  need (x.e0.isNone) .extMisuse
  let q : QReg := fld 3 20 w
  let h : ThReg := fld 4 16 w
  let t : TsReg := fld 4 12 w
  let tok : Tok := if fld 1 11 w = 1#1 then some (fld 3 8 w) else none
  let fl : Fl := if fld 1 7 w = 1#1 then some (fld 5 2 w) else none
  let e1 : CSrc := fld 6 21 x.e2w
  let e2 : CSrc := fld 6 14 x.e2w
  need (decide (fld 1 23 w = 0#1)) .reservedField
  need (decide (fld 1 11 w = 1#1 ∨ fld 3 8 w = 0#3)) .reservedField
  need (decide (fld 1 7 w = 1#1 ∨ fld 5 2 w = 0#5)) .reservedField
  need (decide (fld 1 27 x.e2w = 0#1)) .reservedField
  need (decide (fld 1 20 x.e2w = 0#1)) .reservedField
  need (decide (q.toNat ≤ 3)) .reservedField
  need (decide (fld 2 0 w = 0#2)) .reservedField
  need (decide (fld 7 7 x.e2w = 0#7)) .reservedField
  need (decide (fld 7 0 x.e2w = 0#7)) .reservedField
  need (decide (e1.toNat < 32)) .reservedSource
  need (decide (e2.toNat < 32)) .reservedSource
  pure (.xgath q h t tok fl e1 e2)

/-- XPF (R350). -/
def decXpf (w : Nat) (x : Ext) : Except Cause Instr := do
  need (x.e0.isNone) .extMisuse
  let h : ThReg := fld 4 16 w
  let e1 : CSrc := fld 6 21 x.e2w
  let e2 : CSrc := fld 6 14 x.e2w
  let e3 : CSrc := fld 6 7 x.e2w
  let e4 : CSrc := fld 6 0 x.e2w
  need (decide (fld 1 27 x.e2w = 0#1)) .reservedField
  need (decide (fld 1 20 x.e2w = 0#1)) .reservedField
  need (decide (fld 1 13 x.e2w = 0#1)) .reservedField
  need (decide (fld 1 6 x.e2w = 0#1)) .reservedField
  need (decide (fld 16 0 w = 0#16)) .reservedField
  need (decide (fld 4 20 w = 0#4)) .reservedField
  need (decide (e1.toNat < 32)) .reservedSource
  need (decide (e2.toNat < 32)) .reservedSource
  need (decide (e3.toNat < 32)) .reservedSource
  need (decide (e4.toNat < 32)) .reservedSource
  pure (.xpf h e1 e2 e3 e4)

/-- XFENCE (R347). -/
def decXfence (w : Nat) (x : Ext) : Except Cause Instr := do
  need (x.e0.isNone && x.e2.isNone) .extMisuse
  let scope := Scope.ofNat? (fld 3 20 w).toNat
  let tok : Tok := if fld 1 11 w = 1#1 then some (fld 3 8 w) else none
  let fl : Fl := if fld 1 7 w = 1#1 then some (fld 5 2 w) else none
  need (scope.isSome) .reservedField
  need (decide (fld 1 11 w = 1#1 ∨ fld 3 8 w = 0#3)) .reservedField
  need (decide (fld 1 7 w = 1#1 ∨ fld 5 2 w = 0#5)) .reservedField
  need (decide (fld 2 0 w = 0#2)) .reservedField
  need (decide (fld 8 12 w = 0#8)) .reservedField
  need (decide (fld 1 23 w = 0#1)) .reservedField
  pure (.xfence (scope.getD .core) tok fl)


/-- The control engine's opcode map (05 R180). -/
def decodeControl (w : Nat) (x : Ext) : Except Cause Instr :=
  match w / 16777216 % 256 with
  | 0x00 => decNop .c w x
  | 0x01 => if fld 1 12 w = 0#1 then decAdd w x else decAddImm w x
  | 0x02 => if fld 1 12 w = 0#1 then decSub w x else decSubImm w x
  | 0x03 => if fld 1 12 w = 0#1 then decMul w x else decMulImm w x
  | 0x04 => if fld 1 12 w = 0#1 then decMulhu w x else decMulhuImm w x
  | 0x05 => if fld 1 12 w = 0#1 then decMulhs w x else decMulhsImm w x
  | 0x06 => if fld 1 12 w = 0#1 then decDivu w x else decDivuImm w x
  | 0x07 => if fld 1 12 w = 0#1 then decDivs w x else decDivsImm w x
  | 0x08 => if fld 1 12 w = 0#1 then decRemu w x else decRemuImm w x
  | 0x09 => if fld 1 12 w = 0#1 then decRems w x else decRemsImm w x
  | 0x0A => if fld 1 12 w = 0#1 then decAnd w x else decAndImm w x
  | 0x0B => if fld 1 12 w = 0#1 then decOr w x else decOrImm w x
  | 0x0C => if fld 1 12 w = 0#1 then decXor w x else decXorImm w x
  | 0x0D => if fld 1 12 w = 0#1 then decAndn w x else decAndnImm w x
  | 0x0E => if fld 1 12 w = 0#1 then decShl w x else decShlImm w x
  | 0x0F => if fld 1 12 w = 0#1 then decShr w x else decShrImm w x
  | 0x10 => if fld 1 12 w = 0#1 then decSar w x else decSarImm w x
  | 0x11 => if fld 1 12 w = 0#1 then decRotl w x else decRotlImm w x
  | 0x12 => if fld 1 12 w = 0#1 then decMin w x else decMinImm w x
  | 0x13 => if fld 1 12 w = 0#1 then decMax w x else decMaxImm w x
  | 0x14 => if fld 1 12 w = 0#1 then decMinu w x else decMinuImm w x
  | 0x15 => if fld 1 12 w = 0#1 then decMaxu w x else decMaxuImm w x
  | 0x16 => decClz w x
  | 0x17 => decCtz w x
  | 0x18 => decPopc w x
  | 0x19 => if fld 1 12 w = 0#1 then decSext w x else decSextImm w x
  | 0x1A => if fld 1 12 w = 0#1 then decZext w x else decZextImm w x
  | 0x1B => decSel w x
  | 0x1C => decCmp w x
  | 0x1D => decLi w x
  | 0x20 => decB w x
  | 0x21 => decBc w x
  | 0x22 => decBr w x
  | 0x23 => decCall w x
  | 0x24 => decCallr w x
  | 0x25 => decRet w x
  | 0x26 => decFrame w x
  | 0x28 => decLd w x
  | 0x29 => decSt w x
  | 0x2A => decAmoAdd w x
  | 0x2B => decAmoAnd w x
  | 0x2C => decAmoOr w x
  | 0x2D => decAmoXor w x
  | 0x2E => decAmoMin w x
  | 0x2F => decAmoMax w x
  | 0x30 => decAmoXch w x
  | 0x31 => decAmoCas w x
  | 0x32 => decAcq w x
  | 0x33 => decRel w x
  | 0x34 => decBind w x
  | 0x35 => decUnbind w x
  | 0x36 => decFence w x
  | 0x38 => decSetShape w x
  | 0x39 => decGetShape w x
  | 0x3A => decThld w x
  | 0x3B => decThst w x
  | 0x3C => decThset w x
  | 0x3D => decThget w x
  | 0x40 => decSeql w x
  | 0x41 => decSeqs w x
  | 0x42 => decLoopb w x
  | 0x43 => decLoopc w x
  | 0x44 => decOvw w x
  | 0x45 => decFoot w x
  | 0x46 => decFootv w x
  | 0x47 => if fld 1 0 w = 0#1 then decRegion w x else decRegionEnd w x
  | 0x48 => decExitI w x
  | 0x49 => decYieldI w x
  | 0x4A => decLocq w x
  | 0x4B => decCsrr w x
  | 0x4C => decCsrw w x
  | 0x4D => decTrap w x
  | 0x4E => decEret w x
  | 0x4F => decWaitmem w x
  | 0x50 => if fld 1 0 w = 0#1 then decScstopCyc w x else decScstopBeat w x
  | 0x51 => decScout w x
  | 0x52 => decScin w x
  | 0x53 => decScgo w x
  | 0x54 => decScown w x
  | 0x55 => if fld 2 0 w = 0#2 then decDiaginjProd w x else if fld 2 0 w = 1#2 then decDiaginjAcc w x else if fld 2 0 w = 2#2 then decDiaginjVreg w x else decDiaginjSpad w x
  | 0x56 => decTlbinv w x
  | 0x57 => decKissue w x
  | 0x58 => decSxfer w x
  | 0x59 => decCancel w x
  | 0x5A => decFrameset w x
  | 0xF8 => decEndE .c w x
  | 0xF9 => decFinc .c w x
  | 0xFA => decFwait .c w x
  | 0xFB => decFset .c w x
  | 0xFC => decKwait .c w x
  | _ => throw .illegalOpcode

/-- The access engine's opcode map (05 R180). -/
def decodeAccess (w : Nat) (x : Ext) : Except Cause Instr :=
  match w / 16777216 % 256 with
  | 0x00 => decNop .a w x
  | 0x01 => if fld 1 12 w = 0#1 then decAadd w x else decAaddImm w x
  | 0x02 => if x.e2.isSome then decAmovCtrl w x else decAmov w x
  | 0x03 => decAli w x
  | 0x04 => if fld 1 12 w = 0#1 then decAmul w x else decAmulImm w x
  | 0x05 => if fld 1 12 w = 0#1 then decAshl w x else decAshlImm w x
  | 0x06 => if fld 1 12 w = 0#1 then decAand w x else decAandImm w x
  | 0x08 => decArd w x
  | 0x09 => decAwr w x
  | 0x0A => decArdg w x
  | 0x0B => decAwrs w x
  | 0x0C => decAstream w x
  | 0x0D => decAunbind w x
  | 0x10 => decAtile w x
  | 0x11 => decApln w x
  | 0x12 => decAunpln w x
  | 0x13 => if fld 2 5 w = 0#2 then decAcb w x else if fld 2 5 w = 1#2 then decAcbGet w x else decReserved false x
  | 0x14 => decAcbRel w x
  | 0xF8 => decEndE .a w x
  | 0xF9 => decFinc .a w x
  | 0xFA => decFwait .a w x
  | 0xFB => decFset .a w x
  | 0xFC => decKwait .a w x
  | _ => throw .illegalOpcode

/-- The vector engine's opcode map (05 R180). -/
def decodeVector (w : Nat) (x : Ext) : Except Cause Instr :=
  match w / 16777216 % 256 with
  | 0x00 => decNop .v w x
  | 0x01 => decVadd w x
  | 0x02 => decVsub w x
  | 0x03 => decVmul w x
  | 0x04 => decVmulh w x
  | 0x05 => decVma w x
  | 0x06 => decVdiv w x
  | 0x07 => decVsqrt w x
  | 0x08 => decVmin w x
  | 0x09 => decVmax w x
  | 0x0A => decVabs w x
  | 0x0B => decVneg w x
  | 0x0C => decVshl w x
  | 0x0D => decVshr w x
  | 0x0E => decVsar w x
  | 0x0F => decVand w x
  | 0x10 => decVor w x
  | 0x11 => decVxor w x
  | 0x12 => decVnot w x
  | 0x13 => decVpopc w x
  | 0x14 => decVclz w x
  | 0x18 => decVexp w x
  | 0x19 => decVexp2 w x
  | 0x1A => decVlog w x
  | 0x1B => decVlog2 w x
  | 0x1C => decVsin w x
  | 0x1D => decVcos w x
  | 0x1E => decVtanh w x
  | 0x1F => decVerf w x
  | 0x20 => decVrcp w x
  | 0x21 => decVrsqrt w x
  | 0x22 => decVcvt w x
  | 0x23 => if fld 1 8 w = 0#1 then decVscale w x else decVscaleAdd w x
  | 0x24 => decVtag w x
  | 0x25 => decVseed w x
  | 0x26 => decVunt5 w x
  | 0x27 => decVun4o w x
  | 0x28 => decVpk w x
  | 0x29 => decVtadd w x
  | 0x2A => decVrsum w x
  | 0x2B => decVrmax w x
  | 0x2C => decVrmin w x
  | 0x30 => decVshuf w x
  | 0x31 => decVslide w x
  | 0x32 => decVbcast w x
  | 0x33 => decVsplat w x
  | 0x34 => decVextr w x
  | 0x35 => decVmov w x
  | 0x36 => decVli w x
  | 0x38 => decVcmp w x
  | 0x39 => decVminv w x
  | 0x3A => decVmpop w x
  | 0x3B => decVskip w x
  | 0x3C => decVmget w x
  | 0x3D => decVpark w x
  | 0x3E => decVunpark w x
  | 0x3F => decVpushm w x
  | 0x40 => decVpopm w x
  | 0x41 => decVsetsh w x
  | 0xF8 => decEndE .v w x
  | 0xF9 => decFinc .v w x
  | 0xFA => decFwait .v w x
  | 0xFB => decFset .v w x
  | 0xFC => decKwait .v w x
  | _ => throw .illegalOpcode

/-- The matrix engine's opcode map (05 R180). -/
def decodeMatrix (w : Nat) (x : Ext) : Except Cause Instr :=
  match w / 16777216 % 256 with
  | 0x00 => decNop .m w x
  | 0x01 => decMlease w x
  | 0x02 => decMfree w x
  | 0x03 => decMma w x
  | 0x04 => decMmah w x
  | 0x05 => decMmack w x
  | 0x06 => decMmabx w x
  | 0x07 => decMmaba w x
  | 0x08 => if fld 1 0 w = 0#1 then decMclr w x else decMclrAll w x
  | 0x09 => decMldacc w x
  | 0x0A => decMstacc w x
  | 0x0B => decMchk w x
  | 0x0C => decMseed w x
  | 0xF8 => decEndE .m w x
  | 0xF9 => decFinc .m w x
  | 0xFA => decFwait .m w x
  | 0xFB => decFset .m w x
  | 0xFC => decKwait .m w x
  | _ => throw .illegalOpcode

/-- The copy engine's opcode map (05 R180). -/
def decodeCopy (w : Nat) (x : Ext) : Except Cause Instr :=
  match w / 16777216 % 256 with
  | 0x00 => decNop .x w x
  | 0x01 => if fld 2 12 w = 0#2 then decXcopyLd w x else if fld 2 12 w = 1#2 then decXcopySt w x else if fld 2 12 w = 2#2 then decXcopySs w x else decReserved true x
  | 0x02 => decXcopys w x
  | 0x03 => decXcb w x
  | 0x04 => decXhost w x
  | 0x05 => decXpeer w x
  | 0x06 => decXcoll w x
  | 0x07 => decXgath w x
  | 0x08 => decXpf w x
  | 0x09 => decXfence w x
  | 0xF8 => decEndE .x w x
  | 0xF9 => decFinc .x w x
  | 0xFA => decFwait .x w x
  | 0xFB => decFset .x w x
  | 0xFC => decKwait .x w x
  | _ => throw .illegalOpcode

/-- One instruction lane of an engine, with what its EXT lanes supply. -/
def decodeLane (e : Engine) (w : Nat) (x : Ext) : Except Cause Instr :=
  match e with
  | .c => decodeControl w x
  | .a => decodeAccess w x
  | .v => decodeVector w x
  | .m => decodeMatrix w x
  | .x => decodeCopy w x

/-- The EXT lanes of one instruction, in their order: what they supply, the modifiers, and whether they break R158 or the
static part of R160 (ext-misuse): FIRST with LAST and a LEVEL of 6 or 7 break it outside a loop too, where the fields are
otherwise ignored (DEDUCED, log 96). A reserved kind is ext-kind (05 R162). `prev` is one more than the last kind met. -/
def readExts : List Nat → Nat → Ext → Mods → Bool → Except Cause (Ext × Mods × Bool)
  | [], _, x, m, bad => pure (x, m, bad)
  | w :: ws, prev, x, m, bad =>
    match w / 268435456 % 16 with
    | 0 => readExts ws 1 { x with e0 := some (fld 28 0 w) } m (bad || decide (prev > 0))
    | 1 =>
      let n := Mods.ofBits w
      readExts ws 2 x n (bad || decide (prev > 1) || (n.first && n.last) || decide (n.level.toNat > 5))
    | 2 => readExts ws 3 { x with e2 := some (fld 28 0 w) } m (bad || decide (prev > 2))
    | _ => throw .extKind

/-- A reserved bit of a modifier lane is not zero (05 R160, R168). -/
def modsReserved (ws : List Nat) : Bool :=
  ws.any fun w => w / 268435456 % 16 = 1 && decide (fld 11 0 w ≠ 0#11)

/-- An opcode that its engine's map marks ill (05 R180). -/
def illegalOp (e : Engine) (w : Nat) : Bool :=
  match decodeLane e w Ext.none with
  | .error .illegalOpcode => true
  | _ => false

/-- Decode an instruction from its EXT lanes and its own lane, in the order of causes of 05 R183. -/
def decodeInstr (e : Engine) (exts : List Nat) (w : Nat) : Except Cause (Instr × Mods) := do
  let (x, m, bad) ← readExts exts 0 Ext.none Mods.none false
  need (!illegalOp e w) .illegalOpcode
  need (!bad) .extMisuse
  let i ← match decodeLane e w x with
    | .error .extMisuse => throw .extMisuse
    | .error c => if modsReserved exts then throw .reservedField else throw c
    | .ok i => pure i
  need (!modsReserved exts) .reservedField
  pure (i, m)

/-- What the encoder answers: the engine's kind, the lane's word and the EXT fields that go with it. -/
structure Enc where
  engine : Engine
  word   : Nat
  e0     : Option (BitVec 28)
  e2     : Option (BitVec 28)
  deriving DecidableEq, Repr

/-- The EXT fields as the decoder takes them. -/
def Enc.ext (n : Enc) : Ext := ⟨n.e0, n.e2⟩

/-- The four extra operand fields (05 R161). -/
def encE (a b c d : Nat) : BitVec 28 := BitVec.ofNat 28 (a * 2097152 + b * 16384 + c * 128 + d)

/-- No EXT lane is needed when every extra operand names x0 (06 R189). -/
def optE (e : BitVec 28) : Option (BitVec 28) := if e = 0#28 then none else some e

/-- The encoding of a lane (05 R173-R180); none for a step that is no lane. -/
def encode : Instr → Option Enc
  | .nop e => some ⟨e, 0, none, none⟩
  | .endE e => some ⟨e, 4160749568, none, none⟩
  | .finc e f n => some ⟨e, 4177526784 + f.toNat * 524288 + n.low.toNat * 1, n.high, none⟩
  | .fwait e f sub n => some ⟨e, 4194304000 + f.toNat * 524288 + sub.toNat * 262144 + n.low.toNat * 1, n.high, none⟩
  | .fset e f n => some ⟨e, 4211081216 + f.toNat * 524288 + n.low.toNat * 1, n.high, none⟩
  | .kwait e k n => some ⟨e, 4227858432 + k.toNat * 2097152 + n.low.toNat * 32768, n.high, none⟩
  | .add rd s1 s2 => some ⟨.c, 16777216 + rd.toNat * 524288 + s1.toNat * 8192 + s2.toNat * 64, none, none⟩
  | .addImm rd s1 imm => some ⟨.c, 16781312 + rd.toNat * 524288 + s1.toNat * 8192 + imm.low.toNat * 1, imm.high, none⟩
  | .sub rd s1 s2 => some ⟨.c, 33554432 + rd.toNat * 524288 + s1.toNat * 8192 + s2.toNat * 64, none, none⟩
  | .subImm rd s1 imm => some ⟨.c, 33558528 + rd.toNat * 524288 + s1.toNat * 8192 + imm.low.toNat * 1, imm.high, none⟩
  | .mul rd s1 s2 => some ⟨.c, 50331648 + rd.toNat * 524288 + s1.toNat * 8192 + s2.toNat * 64, none, none⟩
  | .mulImm rd s1 imm => some ⟨.c, 50335744 + rd.toNat * 524288 + s1.toNat * 8192 + imm.low.toNat * 1, imm.high, none⟩
  | .mulhu rd s1 s2 => some ⟨.c, 67108864 + rd.toNat * 524288 + s1.toNat * 8192 + s2.toNat * 64, none, none⟩
  | .mulhuImm rd s1 imm => some ⟨.c, 67112960 + rd.toNat * 524288 + s1.toNat * 8192 + imm.low.toNat * 1, imm.high, none⟩
  | .mulhs rd s1 s2 => some ⟨.c, 83886080 + rd.toNat * 524288 + s1.toNat * 8192 + s2.toNat * 64, none, none⟩
  | .mulhsImm rd s1 imm => some ⟨.c, 83890176 + rd.toNat * 524288 + s1.toNat * 8192 + imm.low.toNat * 1, imm.high, none⟩
  | .divu rd s1 s2 => some ⟨.c, 100663296 + rd.toNat * 524288 + s1.toNat * 8192 + s2.toNat * 64, none, none⟩
  | .divuImm rd s1 imm => some ⟨.c, 100667392 + rd.toNat * 524288 + s1.toNat * 8192 + imm.low.toNat * 1, imm.high, none⟩
  | .divs rd s1 s2 => some ⟨.c, 117440512 + rd.toNat * 524288 + s1.toNat * 8192 + s2.toNat * 64, none, none⟩
  | .divsImm rd s1 imm => some ⟨.c, 117444608 + rd.toNat * 524288 + s1.toNat * 8192 + imm.low.toNat * 1, imm.high, none⟩
  | .remu rd s1 s2 => some ⟨.c, 134217728 + rd.toNat * 524288 + s1.toNat * 8192 + s2.toNat * 64, none, none⟩
  | .remuImm rd s1 imm => some ⟨.c, 134221824 + rd.toNat * 524288 + s1.toNat * 8192 + imm.low.toNat * 1, imm.high, none⟩
  | .rems rd s1 s2 => some ⟨.c, 150994944 + rd.toNat * 524288 + s1.toNat * 8192 + s2.toNat * 64, none, none⟩
  | .remsImm rd s1 imm => some ⟨.c, 150999040 + rd.toNat * 524288 + s1.toNat * 8192 + imm.low.toNat * 1, imm.high, none⟩
  | .and rd s1 s2 => some ⟨.c, 167772160 + rd.toNat * 524288 + s1.toNat * 8192 + s2.toNat * 64, none, none⟩
  | .andImm rd s1 imm => some ⟨.c, 167776256 + rd.toNat * 524288 + s1.toNat * 8192 + imm.low.toNat * 1, imm.high, none⟩
  | .or rd s1 s2 => some ⟨.c, 184549376 + rd.toNat * 524288 + s1.toNat * 8192 + s2.toNat * 64, none, none⟩
  | .orImm rd s1 imm => some ⟨.c, 184553472 + rd.toNat * 524288 + s1.toNat * 8192 + imm.low.toNat * 1, imm.high, none⟩
  | .xor rd s1 s2 => some ⟨.c, 201326592 + rd.toNat * 524288 + s1.toNat * 8192 + s2.toNat * 64, none, none⟩
  | .xorImm rd s1 imm => some ⟨.c, 201330688 + rd.toNat * 524288 + s1.toNat * 8192 + imm.low.toNat * 1, imm.high, none⟩
  | .andn rd s1 s2 => some ⟨.c, 218103808 + rd.toNat * 524288 + s1.toNat * 8192 + s2.toNat * 64, none, none⟩
  | .andnImm rd s1 imm => some ⟨.c, 218107904 + rd.toNat * 524288 + s1.toNat * 8192 + imm.low.toNat * 1, imm.high, none⟩
  | .shl rd s1 s2 => some ⟨.c, 234881024 + rd.toNat * 524288 + s1.toNat * 8192 + s2.toNat * 64, none, none⟩
  | .shlImm rd s1 imm => some ⟨.c, 234885120 + rd.toNat * 524288 + s1.toNat * 8192 + imm.low.toNat * 1, imm.high, none⟩
  | .shr rd s1 s2 => some ⟨.c, 251658240 + rd.toNat * 524288 + s1.toNat * 8192 + s2.toNat * 64, none, none⟩
  | .shrImm rd s1 imm => some ⟨.c, 251662336 + rd.toNat * 524288 + s1.toNat * 8192 + imm.low.toNat * 1, imm.high, none⟩
  | .sar rd s1 s2 => some ⟨.c, 268435456 + rd.toNat * 524288 + s1.toNat * 8192 + s2.toNat * 64, none, none⟩
  | .sarImm rd s1 imm => some ⟨.c, 268439552 + rd.toNat * 524288 + s1.toNat * 8192 + imm.low.toNat * 1, imm.high, none⟩
  | .rotl rd s1 s2 => some ⟨.c, 285212672 + rd.toNat * 524288 + s1.toNat * 8192 + s2.toNat * 64, none, none⟩
  | .rotlImm rd s1 imm => some ⟨.c, 285216768 + rd.toNat * 524288 + s1.toNat * 8192 + imm.low.toNat * 1, imm.high, none⟩
  | .min rd s1 s2 => some ⟨.c, 301989888 + rd.toNat * 524288 + s1.toNat * 8192 + s2.toNat * 64, none, none⟩
  | .minImm rd s1 imm => some ⟨.c, 301993984 + rd.toNat * 524288 + s1.toNat * 8192 + imm.low.toNat * 1, imm.high, none⟩
  | .max rd s1 s2 => some ⟨.c, 318767104 + rd.toNat * 524288 + s1.toNat * 8192 + s2.toNat * 64, none, none⟩
  | .maxImm rd s1 imm => some ⟨.c, 318771200 + rd.toNat * 524288 + s1.toNat * 8192 + imm.low.toNat * 1, imm.high, none⟩
  | .minu rd s1 s2 => some ⟨.c, 335544320 + rd.toNat * 524288 + s1.toNat * 8192 + s2.toNat * 64, none, none⟩
  | .minuImm rd s1 imm => some ⟨.c, 335548416 + rd.toNat * 524288 + s1.toNat * 8192 + imm.low.toNat * 1, imm.high, none⟩
  | .maxu rd s1 s2 => some ⟨.c, 352321536 + rd.toNat * 524288 + s1.toNat * 8192 + s2.toNat * 64, none, none⟩
  | .maxuImm rd s1 imm => some ⟨.c, 352325632 + rd.toNat * 524288 + s1.toNat * 8192 + imm.low.toNat * 1, imm.high, none⟩
  | .clz rd s1 => some ⟨.c, 369098752 + rd.toNat * 524288 + s1.toNat * 8192, none, none⟩
  | .ctz rd s1 => some ⟨.c, 385875968 + rd.toNat * 524288 + s1.toNat * 8192, none, none⟩
  | .popc rd s1 => some ⟨.c, 402653184 + rd.toNat * 524288 + s1.toNat * 8192, none, none⟩
  | .sext rd s1 s2 => some ⟨.c, 419430400 + rd.toNat * 524288 + s1.toNat * 8192 + s2.toNat * 64, none, none⟩
  | .sextImm rd s1 imm => some ⟨.c, 419434496 + rd.toNat * 524288 + s1.toNat * 8192 + imm.low.toNat * 1, imm.high, none⟩
  | .zext rd s1 s2 => some ⟨.c, 436207616 + rd.toNat * 524288 + s1.toNat * 8192 + s2.toNat * 64, none, none⟩
  | .zextImm rd s1 imm => some ⟨.c, 436211712 + rd.toNat * 524288 + s1.toNat * 8192 + imm.low.toNat * 1, imm.high, none⟩
  | .sel rd s1 s2 s3 => some ⟨.c, 452984832 + rd.toNat * 524288 + s1.toNat * 8192 + s2.toNat * 64 + s3.toNat * 1, none, none⟩
  | .cmp rd s1 s2 cond => some ⟨.c, 469762048 + rd.toNat * 524288 + s1.toNat * 8192 + s2.toNat * 64 + cond.toNat * 1, none, none⟩
  | .li rd imm => some ⟨.c, 486539264 + rd.toNat * 524288 + imm.low.toNat * 1, imm.high, none⟩
  | .b off => some ⟨.c, 536870912 + off.low.toNat * 1, off.high, none⟩
  | .bc cond s1 s2 off => some ⟨.c, 553648128 + cond.toNat * 1048576 + s1.toNat * 16384 + s2.toNat * 256 + off.low.toNat * 1, off.high, none⟩
  | .br s1 => some ⟨.c, 570425344 + s1.toNat * 8192, none, none⟩
  | .call off => some ⟨.c, 587202560 + off.low.toNat * 1, off.high, none⟩
  | .callr s1 => some ⟨.c, 603979776 + s1.toNat * 8192, none, none⟩
  | .ret => some ⟨.c, 620756992, none, none⟩
  | .frame f => some ⟨.c, 637534208 + f.toNat * 1, none, none⟩
  | .ld rt s1 sz sg off => some ⟨.c, 671088640 + rt.toNat * 262144 + s1.toNat * 4096 + sz.toNat * 1024 + sg.toNat * 512 + off.low.toNat * 1, off.high, none⟩
  | .st rt s1 sz off => some ⟨.c, 687865856 + rt.toNat * 262144 + s1.toNat * 4096 + sz.toNat * 1024 + off.low.toNat * 1, off.high, none⟩
  | .amoAdd rd s1 s2 scope wide => some ⟨.c, 704643072 + rd.toNat * 524288 + s1.toNat * 8192 + s2.toNat * 128 + scope.toNat * 16 + wide.toNat * 8, none, none⟩
  | .amoAnd rd s1 s2 scope wide => some ⟨.c, 721420288 + rd.toNat * 524288 + s1.toNat * 8192 + s2.toNat * 128 + scope.toNat * 16 + wide.toNat * 8, none, none⟩
  | .amoOr rd s1 s2 scope wide => some ⟨.c, 738197504 + rd.toNat * 524288 + s1.toNat * 8192 + s2.toNat * 128 + scope.toNat * 16 + wide.toNat * 8, none, none⟩
  | .amoXor rd s1 s2 scope wide => some ⟨.c, 754974720 + rd.toNat * 524288 + s1.toNat * 8192 + s2.toNat * 128 + scope.toNat * 16 + wide.toNat * 8, none, none⟩
  | .amoMin rd s1 s2 scope wide => some ⟨.c, 771751936 + rd.toNat * 524288 + s1.toNat * 8192 + s2.toNat * 128 + scope.toNat * 16 + wide.toNat * 8, none, none⟩
  | .amoMax rd s1 s2 scope wide => some ⟨.c, 788529152 + rd.toNat * 524288 + s1.toNat * 8192 + s2.toNat * 128 + scope.toNat * 16 + wide.toNat * 8, none, none⟩
  | .amoXch rd s1 s2 scope wide => some ⟨.c, 805306368 + rd.toNat * 524288 + s1.toNat * 8192 + s2.toNat * 128 + scope.toNat * 16 + wide.toNat * 8, none, none⟩
  | .amoCas rd s1 s2 s3 scope wide => some ⟨.c, 822083584 + rd.toNat * 524288 + s1.toNat * 8192 + s2.toNat * 128 + scope.toNat * 16 + wide.toNat * 8, none, optE (encE s3.toNat 0 0 0)⟩
  | .acq rd s1 s2 scope => some ⟨.c, 838860800 + rd.toNat * 524288 + s1.toNat * 8192 + s2.toNat * 128 + scope.toNat * 16, none, none⟩
  | .rel rd s1 s2 scope => some ⟨.c, 855638016 + rd.toNat * 524288 + s1.toNat * 8192 + s2.toNat * 128 + scope.toNat * 16, none, none⟩
  | .bind s1 s2 s3 scope => some ⟨.c, 872415232 + s1.toNat * 8192 + s2.toNat * 128 + scope.toNat * 16, none, optE (encE s3.toNat 0 0 0)⟩
  | .unbind s1 s2 scope => some ⟨.c, 889192448 + s1.toNat * 8192 + s2.toNat * 128 + scope.toNat * 16, none, none⟩
  | .fence scope => some ⟨.c, 905969664 + scope.toNat * 16, none, none⟩
  | .setShape h s1 s2 s3 fmt => some ⟨.c, 939524096 + h.toNat * 524288 + s1.toNat * 8192 + s2.toNat * 128 + fmt.toNat * 1, none, optE (encE s3.toNat 0 0 0)⟩
  | .getShape rd h sl => some ⟨.c, 956301312 + rd.toNat * 524288 + h.toNat * 1 + sl.toNat * 8, none, none⟩
  | .thld h s1 off => some ⟨.c, 973078528 + h.toNat * 524288 + s1.toNat * 8192 + off.toNat * 1, none, none⟩
  | .thst h s1 off => some ⟨.c, 989855744 + h.toNat * 524288 + s1.toNat * 8192 + off.toNat * 1, none, none⟩
  | .thset h fs s1 => some ⟨.c, 1006632960 + h.toNat * 524288 + fs.toNat * 1 + s1.toNat * 8192, none, none⟩
  | .thget rd h fs => some ⟨.c, 1023410176 + rd.toNat * 524288 + h.toNat * 128 + fs.toNat * 1, none, none⟩
  | .seql n s1 => some ⟨.c, 1073741824 + n.toNat * 1 + s1.toNat * 8192, none, none⟩
  | .seqs n j ak s1 => some ⟨.c, 1090519040 + n.toNat * 1 + j.toNat * 8 + ak.toNat * 524288 + s1.toNat * 8192, none, none⟩
  | .loopb lv len => some ⟨.c, 1107296256 + lv.toNat * 524288 + len.toNat * 1, none, none⟩
  | .loopc lv len s1 s2 => some ⟨.c, 1124073472 + lv.toNat * 524288 + len.toNat * 1 + s1.toNat * 8192 + s2.toNat * 128, none, none⟩
  | .ovw n => some ⟨.c, 1140850688 + n.toNat * 1, none, none⟩
  | .foot j ak s1 s2 s3 => some ⟨.c, 1157627904 + j.toNat * 1 + ak.toNat * 524288 + s1.toNat * 8192 + s2.toNat * 128, none, optE (encE s3.toNat 0 0 0)⟩
  | .footv ak vs => some ⟨.c, 1174405120 + ak.toNat * 524288 + vs.toNat * 1, none, none⟩
  | .region s1 s2 s3 s4 => some ⟨.c, 1191182336 + s1.toNat * 8192 + s2.toNat * 128, none, optE (encE s3.toNat s4.toNat 0 0)⟩
  | .regionEnd => some ⟨.c, 1191182337, none, none⟩
  | .exitI => some ⟨.c, 1207959552, none, none⟩
  | .yieldI => some ⟨.c, 1224736768, none, none⟩
  | .locq rd s1 => some ⟨.c, 1241513984 + rd.toNat * 524288 + s1.toNat * 8192, none, none⟩
  | .csrr rd csr => some ⟨.c, 1258291200 + rd.toNat * 524288 + csr.toNat * 2, none, none⟩
  | .csrw csr s1 => some ⟨.c, 1275068416 + csr.toNat * 2 + s1.toNat * 8192, none, none⟩
  | .trap s1 code => some ⟨.c, 1291845632 + s1.toNat * 8192 + code.toNat * 1, none, none⟩
  | .eret => some ⟨.c, 1308622848, none, none⟩
  | .waitmem rd s1 s2 scope => some ⟨.c, 1325400064 + rd.toNat * 524288 + s1.toNat * 8192 + s2.toNat * 128 + scope.toNat * 1, none, none⟩
  | .scstopCyc s1 s2 s3 => some ⟨.c, 1342177280 + s1.toNat * 8192 + s2.toNat * 128, none, optE (encE s3.toNat 0 0 0)⟩
  | .scstopBeat s1 s2 s3 => some ⟨.c, 1342177281 + s1.toNat * 8192 + s2.toNat * 128, none, optE (encE s3.toNat 0 0 0)⟩
  | .scout rd s1 s2 s3 s4 spad => some ⟨.c, 1358954496 + rd.toNat * 524288 + s1.toNat * 8192 + s2.toNat * 128 + spad.toNat * 1, none, optE (encE s3.toNat s4.toNat 0 0)⟩
  | .scin rd s1 s2 s3 spad => some ⟨.c, 1375731712 + rd.toNat * 524288 + s1.toNat * 8192 + s2.toNat * 128 + spad.toNat * 1, none, optE (encE s3.toNat 0 0 0)⟩
  | .scgo s1 s2 => some ⟨.c, 1392508928 + s1.toNat * 8192 + s2.toNat * 128, none, none⟩
  | .scown s1 s2 s3 => some ⟨.c, 1409286144 + s1.toNat * 8192 + s2.toNat * 128, none, optE (encE s3.toNat 0 0 0)⟩
  | .diaginjProd s1 s2 s3 => some ⟨.c, 1426063360 + s1.toNat * 8192 + s2.toNat * 128, none, optE (encE s3.toNat 0 0 0)⟩
  | .diaginjAcc s1 s2 s3 => some ⟨.c, 1426063361 + s1.toNat * 8192 + s2.toNat * 128, none, optE (encE s3.toNat 0 0 0)⟩
  | .diaginjVreg s1 s2 s3 => some ⟨.c, 1426063362 + s1.toNat * 8192 + s2.toNat * 128, none, optE (encE s3.toNat 0 0 0)⟩
  | .diaginjSpad s1 s2 s3 => some ⟨.c, 1426063363 + s1.toNat * 8192 + s2.toNat * 128, none, optE (encE s3.toNat 0 0 0)⟩
  | .tlbinv kind s1 s2 => some ⟨.c, 1442840576 + kind.toNat * 1 + s1.toNat * 8192 + s2.toNat * 128, none, none⟩
  | .kissue rd s1 s2 => some ⟨.c, 1459617792 + rd.toNat * 524288 + s1.toNat * 8192 + s2.toNat * 128, none, none⟩
  | .sxfer rd s1 => some ⟨.c, 1476395008 + rd.toNat * 524288 + s1.toNat * 8192, none, none⟩
  | .cancel rd s1 lvl => some ⟨.c, 1493172224 + rd.toNat * 524288 + s1.toNat * 8192 + lvl.toNat * 1, none, none⟩
  | .frameset s1 s2 slot => some ⟨.c, 1509949440 + s1.toNat * 8192 + s2.toNat * 128 + slot.toNat * 1, none, none⟩
  | .aadd ad s1 s2 => some ⟨.a, 16777216 + ad.toNat * 524288 + s1.toNat * 8192 + s2.toNat * 64, none, none⟩
  | .aaddImm ad s1 imm => some ⟨.a, 16781312 + ad.toNat * 524288 + s1.toNat * 8192 + imm.low.toNat * 1, imm.high, none⟩
  | .amov ad s1 => some ⟨.a, 33554432 + ad.toNat * 524288 + s1.toNat * 8192, none, none⟩
  | .amovCtrl ad e1 => some ⟨.a, 33554432 + ad.toNat * 524288, none, some (encE e1.toNat 0 0 0)⟩
  | .ali ad imm => some ⟨.a, 50331648 + ad.toNat * 524288 + imm.low.toNat * 1, imm.high, none⟩
  | .amul ad s1 s2 => some ⟨.a, 67108864 + ad.toNat * 524288 + s1.toNat * 8192 + s2.toNat * 64, none, none⟩
  | .amulImm ad s1 imm => some ⟨.a, 67112960 + ad.toNat * 524288 + s1.toNat * 8192 + imm.low.toNat * 1, imm.high, none⟩
  | .ashl ad s1 s2 => some ⟨.a, 83886080 + ad.toNat * 524288 + s1.toNat * 8192 + s2.toNat * 64, none, none⟩
  | .ashlImm ad s1 imm => some ⟨.a, 83890176 + ad.toNat * 524288 + s1.toNat * 8192 + imm.low.toNat * 1, imm.high, none⟩
  | .aand ad s1 s2 => some ⟨.a, 100663296 + ad.toNat * 524288 + s1.toNat * 8192 + s2.toNat * 64, none, none⟩
  | .aandImm ad s1 imm => some ⟨.a, 100667392 + ad.toNat * 524288 + s1.toNat * 8192 + imm.low.toNat * 1, imm.high, none⟩
  | .ard q s1 off => some ⟨.a, 134217728 + q.toNat * 2097152 + s1.toNat * 32768 + off.low.toNat * 1, off.high, none⟩
  | .awr q s1 off => some ⟨.a, 150994944 + q.toNat * 2097152 + s1.toNat * 32768 + off.low.toNat * 1, off.high, none⟩
  | .ardg q s1 qi ew => some ⟨.a, 167772160 + q.toNat * 524288 + s1.toNat * 8192 + qi.toNat * 128 + ew.toNat * 1, none, none⟩
  | .awrs s1 qd qi => some ⟨.a, 184549376 + s1.toNat * 8192 + qd.toNat * 524288 + qi.toNat * 128, none, none⟩
  | .astream q n lv => some ⟨.a, 201326592 + q.toNat * 524288 + n.toNat * 8192 + lv.toNat * 1, none, none⟩
  | .aunbind q => some ⟨.a, 218103808 + q.toNat * 524288, none, none⟩
  | .atile t s1 s2 fmt => some ⟨.a, 268435456 + t.toNat * 524288 + s1.toNat * 8192 + s2.toNat * 128 + fmt.toNat * 1, none, none⟩
  | .apln td ts => some ⟨.a, 285212672 + td.toNat * 524288 + ts.toNat * 8192, none, none⟩
  | .aunpln td ts rm => some ⟨.a, 301989888 + td.toNat * 524288 + ts.toNat * 8192 + rm.toNat * 1, none, none⟩
  | .acb c s1 s2 size => some ⟨.a, 318767104 + c.toNat * 524288 + s1.toNat * 8192 + s2.toNat * 128 + size.toNat * 1, none, none⟩
  | .acbGet ad c => some ⟨.a, 318767136 + ad.toNat * 524288 + c.toNat * 8192, none, none⟩
  | .acbRel c => some ⟨.a, 335544320 + c.toNat * 524288, none, none⟩
  | .vadd vd vs1 vs2 rm => some ⟨.v, 16777216 + vd.toNat * 131072 + vs1.toNat * 1024 + vs2.toNat * 8 + rm.toNat * 1, none, none⟩
  | .vsub vd vs1 vs2 rm => some ⟨.v, 33554432 + vd.toNat * 131072 + vs1.toNat * 1024 + vs2.toNat * 8 + rm.toNat * 1, none, none⟩
  | .vmul vd vs1 vs2 rm => some ⟨.v, 50331648 + vd.toNat * 131072 + vs1.toNat * 1024 + vs2.toNat * 8 + rm.toNat * 1, none, none⟩
  | .vmulh vd vs1 vs2 => some ⟨.v, 67108864 + vd.toNat * 131072 + vs1.toNat * 1024 + vs2.toNat * 8, none, none⟩
  | .vma vd vs1 vs2 rm c => some ⟨.v, 83886080 + vd.toNat * 131072 + vs1.toNat * 1024 + vs2.toNat * 8 + rm.toNat * 1, none, c.map fun e => BitVec.ofNat 28 (e.toNat * 2097152)⟩
  | .vdiv vd vs1 vs2 rm => some ⟨.v, 100663296 + vd.toNat * 131072 + vs1.toNat * 1024 + vs2.toNat * 8 + rm.toNat * 1, none, none⟩
  | .vsqrt vd vs1 rm => some ⟨.v, 117440512 + vd.toNat * 131072 + vs1.toNat * 1024 + rm.toNat * 1, none, none⟩
  | .vmin vd vs1 vs2 => some ⟨.v, 134217728 + vd.toNat * 131072 + vs1.toNat * 1024 + vs2.toNat * 8, none, none⟩
  | .vmax vd vs1 vs2 => some ⟨.v, 150994944 + vd.toNat * 131072 + vs1.toNat * 1024 + vs2.toNat * 8, none, none⟩
  | .vabs vd vs1 => some ⟨.v, 167772160 + vd.toNat * 131072 + vs1.toNat * 1024, none, none⟩
  | .vneg vd vs1 => some ⟨.v, 184549376 + vd.toNat * 131072 + vs1.toNat * 1024, none, none⟩
  | .vshl vd vs1 vs2 => some ⟨.v, 201326592 + vd.toNat * 131072 + vs1.toNat * 1024 + vs2.toNat * 8, none, none⟩
  | .vshr vd vs1 vs2 => some ⟨.v, 218103808 + vd.toNat * 131072 + vs1.toNat * 1024 + vs2.toNat * 8, none, none⟩
  | .vsar vd vs1 vs2 => some ⟨.v, 234881024 + vd.toNat * 131072 + vs1.toNat * 1024 + vs2.toNat * 8, none, none⟩
  | .vand vd vs1 vs2 => some ⟨.v, 251658240 + vd.toNat * 131072 + vs1.toNat * 1024 + vs2.toNat * 8, none, none⟩
  | .vor vd vs1 vs2 => some ⟨.v, 268435456 + vd.toNat * 131072 + vs1.toNat * 1024 + vs2.toNat * 8, none, none⟩
  | .vxor vd vs1 vs2 => some ⟨.v, 285212672 + vd.toNat * 131072 + vs1.toNat * 1024 + vs2.toNat * 8, none, none⟩
  | .vnot vd vs1 => some ⟨.v, 301989888 + vd.toNat * 131072 + vs1.toNat * 1024, none, none⟩
  | .vpopc vd vs1 => some ⟨.v, 318767104 + vd.toNat * 131072 + vs1.toNat * 1024, none, none⟩
  | .vclz vd vs1 => some ⟨.v, 335544320 + vd.toNat * 131072 + vs1.toNat * 1024, none, none⟩
  | .vexp vd vs1 rm => some ⟨.v, 402653184 + vd.toNat * 131072 + vs1.toNat * 1024 + rm.toNat * 1, none, none⟩
  | .vexp2 vd vs1 rm => some ⟨.v, 419430400 + vd.toNat * 131072 + vs1.toNat * 1024 + rm.toNat * 1, none, none⟩
  | .vlog vd vs1 rm => some ⟨.v, 436207616 + vd.toNat * 131072 + vs1.toNat * 1024 + rm.toNat * 1, none, none⟩
  | .vlog2 vd vs1 rm => some ⟨.v, 452984832 + vd.toNat * 131072 + vs1.toNat * 1024 + rm.toNat * 1, none, none⟩
  | .vsin vd vs1 rm => some ⟨.v, 469762048 + vd.toNat * 131072 + vs1.toNat * 1024 + rm.toNat * 1, none, none⟩
  | .vcos vd vs1 rm => some ⟨.v, 486539264 + vd.toNat * 131072 + vs1.toNat * 1024 + rm.toNat * 1, none, none⟩
  | .vtanh vd vs1 rm => some ⟨.v, 503316480 + vd.toNat * 131072 + vs1.toNat * 1024 + rm.toNat * 1, none, none⟩
  | .verf vd vs1 rm => some ⟨.v, 520093696 + vd.toNat * 131072 + vs1.toNat * 1024 + rm.toNat * 1, none, none⟩
  | .vrcp vd vs1 rm => some ⟨.v, 536870912 + vd.toNat * 131072 + vs1.toNat * 1024 + rm.toNat * 1, none, none⟩
  | .vrsqrt vd vs1 rm => some ⟨.v, 553648128 + vd.toNat * 131072 + vs1.toNat * 1024 + rm.toNat * 1, none, none⟩
  | .vcvt vd vs1 part t rm => some ⟨.v, 570425344 + vd.toNat * 131072 + vs1.toNat * 1024 + part.toNat * 128 + t.toNat * 8 + rm.toNat * 1, none, none⟩
  | .vscale vd vs1 val => some ⟨.v, 587202560 + vd.toNat * 131072 + vs1.toNat * 1024 + val.toNat * 1, none, none⟩
  | .vscaleAdd vd vs1 val => some ⟨.v, 587202816 + vd.toNat * 131072 + vs1.toNat * 1024 + val.toNat * 1, none, none⟩
  | .vtag vd vs1 fmt => some ⟨.v, 603979776 + vd.toNat * 131072 + vs1.toNat * 1024 + fmt.toNat * 1, none, none⟩
  | .vseed xs => some ⟨.v, 620756992 + xs.toNat * 1024, none, none⟩
  | .vunt5 vd vs1 chk part => some ⟨.v, 637534208 + vd.toNat * 131072 + vs1.toNat * 1024 + chk.toNat * 64 + part.toNat * 8, none, none⟩
  | .vun4o vd vs1 part t rm => some ⟨.v, 654311424 + vd.toNat * 131072 + vs1.toNat * 1024 + part.toNat * 128 + t.toNat * 8 + rm.toNat * 1, none, none⟩
  | .vpk vd vs1 part t rm => some ⟨.v, 671088640 + vd.toNat * 131072 + vs1.toNat * 1024 + part.toNat * 64 + t.toNat * 8 + rm.toNat * 1, none, none⟩
  | .vtadd vd vs1 vs2 rm => some ⟨.v, 687865856 + vd.toNat * 131072 + vs1.toNat * 1024 + vs2.toNat * 8 + rm.toNat * 1, none, none⟩
  | .vrsum vd vs1 rm => some ⟨.v, 704643072 + vd.toNat * 131072 + vs1.toNat * 1024 + rm.toNat * 1, none, none⟩
  | .vrmax vd vs1 => some ⟨.v, 721420288 + vd.toNat * 131072 + vs1.toNat * 1024, none, none⟩
  | .vrmin vd vs1 => some ⟨.v, 738197504 + vd.toNat * 131072 + vs1.toNat * 1024, none, none⟩
  | .vshuf vd vs1 vs2 => some ⟨.v, 805306368 + vd.toNat * 131072 + vs1.toNat * 1024 + vs2.toNat * 8, none, none⟩
  | .vslide vd vs1 s => some ⟨.v, 822083584 + vd.toNat * 131072 + vs1.toNat * 1024 + s.toNat * 1, none, none⟩
  | .vbcast vd vs1 i => some ⟨.v, 838860800 + vd.toNat * 131072 + vs1.toNat * 1024 + i.toNat * 1, none, none⟩
  | .vsplat vd xs fmt => some ⟨.v, 855638016 + vd.toNat * 131072 + xs.toNat * 1024 + fmt.toNat * 1, none, none⟩
  | .vextr xd vs1 i => some ⟨.v, 872415232 + xd.toNat * 131072 + vs1.toNat * 1024 + i.toNat * 1, none, none⟩
  | .vmov vd vs1 => some ⟨.v, 889192448 + vd.toNat * 131072 + vs1.toNat * 1024, none, none⟩
  | .vli vd imm => some ⟨.v, 905969664 + vd.toNat * 131072 + imm.low.toNat * 1, imm.high, none⟩
  | .vcmp vs1 vs2 cond => some ⟨.v, 939524096 + vs1.toNat * 131072 + vs2.toNat * 1024 + cond.toNat * 1, none, none⟩
  | .vminv => some ⟨.v, 956301312, none, none⟩
  | .vmpop n => some ⟨.v, 973078528 + n.toNat * 1, none, none⟩
  | .vskip off => some ⟨.v, 989855744 + off.low.toNat * 1, off.high, none⟩
  | .vmget vd d => some ⟨.v, 1006632960 + vd.toNat * 131072 + d.toNat * 1, none, none⟩
  | .vpark vr => some ⟨.v, 1023410176 + vr.toNat * 131072, none, none⟩
  | .vunpark vr => some ⟨.v, 1040187392 + vr.toNat * 131072, none, none⟩
  | .vpushm vf vl => some ⟨.v, 1056964608 + vf.toNat * 131072 + vl.toNat * 1024, none, none⟩
  | .vpopm vf vl => some ⟨.v, 1073741824 + vf.toNat * 131072 + vl.toNat * 1024, none, none⟩
  | .vsetsh h => some ⟨.v, 1090519040 + h.toNat * 1, none, none⟩
  | .mlease q tok => some ⟨.m, 16777216 + q.toNat * 1048576 + encTok tok * 65536, none, none⟩
  | .mfree q tok => some ⟨.m, 33554432 + q.toNat * 1048576 + encTok tok * 65536, none, none⟩
  | .mma ta tb h rm tok => some ⟨.m, 50331648 + ta.toNat * 1048576 + tb.toNat * 65536 + h.toNat * 8192 + rm.toNat * 1024 + encTok tok * 64, none, none⟩
  | .mmah ta tb h rm tok which ts e1 e2 => some ⟨.m, 67108864 + ta.toNat * 1048576 + tb.toNat * 65536 + h.toNat * 8192 + rm.toNat * 1024 + encTok tok * 64 + which.toNat * 16 + ts.toNat * 1, none, optE (encE e1.toNat e2.toNat 0 0)⟩
  | .mmack ta tb h rm tok => some ⟨.m, 83886080 + ta.toNat * 1048576 + tb.toNat * 65536 + h.toNat * 8192 + rm.toNat * 1024 + encTok tok * 64, none, none⟩
  | .mmabx ta tb h tok => some ⟨.m, 100663296 + ta.toNat * 1048576 + tb.toNat * 65536 + h.toNat * 8192 + encTok tok * 64, none, none⟩
  | .mmaba ta tb h tok => some ⟨.m, 117440512 + ta.toNat * 1048576 + tb.toNat * 65536 + h.toNat * 8192 + encTok tok * 64, none, none⟩
  | .mclr h tok => some ⟨.m, 134217728 + h.toNat * 8192 + encTok tok * 64, none, none⟩
  | .mclrAll h tok => some ⟨.m, 134217729 + h.toNat * 8192 + encTok tok * 64, none, none⟩
  | .mldacc ta h tok => some ⟨.m, 150994944 + ta.toNat * 1048576 + h.toNat * 8192 + encTok tok * 64, none, none⟩
  | .mstacc ta h rm tok => some ⟨.m, 167772160 + ta.toNat * 1048576 + h.toNat * 8192 + rm.toNat * 1024 + encTok tok * 64, none, none⟩
  | .mchk ta h rm tok => some ⟨.m, 184549376 + ta.toNat * 1048576 + h.toNat * 8192 + rm.toNat * 1024 + encTok tok * 64, none, none⟩
  | .mseed q xs tok => some ⟨.m, 201326592 + q.toNat * 1048576 + xs.toNat * 1 + encTok tok * 64, none, none⟩
  | .xcopyLd t h tok fl e1 e2 e3 e4 => some ⟨.x, 16777216 + t.toNat * 1048576 + h.toNat * 65536 + encTok tok * 256 + encFl fl * 4, none, optE (encE e1.toNat e2.toNat e3.toNat e4.toNat)⟩
  | .xcopySt t h tok fl e1 e2 e3 e4 => some ⟨.x, 16781312 + t.toNat * 1048576 + h.toNat * 65536 + encTok tok * 256 + encFl fl * 4, none, optE (encE e1.toNat e2.toNat e3.toNat e4.toNat)⟩
  | .xcopySs td ts tok fl => some ⟨.x, 16785408 + td.toNat * 1048576 + ts.toNat * 65536 + encTok tok * 256 + encFl fl * 4, none, none⟩
  | .xcopys t h tok fl e1 e2 => some ⟨.x, 33554432 + t.toNat * 1048576 + h.toNat * 65536 + encTok tok * 256 + encFl fl * 4, none, optE (encE e1.toNat e2.toNat 0 0)⟩
  | .xcb c h tok fl e1 e2 e3 e4 => some ⟨.x, 50331648 + c.toNat * 1048576 + h.toNat * 65536 + encTok tok * 256 + encFl fl * 4, none, optE (encE e1.toNat e2.toNat e3.toNat e4.toNat)⟩
  | .xhost t dir tok fl e1 e2 e3 => some ⟨.x, 67108864 + t.toNat * 1048576 + dir.toNat * 4096 + encTok tok * 256 + encFl fl * 4, none, optE (encE e1.toNat e2.toNat e3.toNat 0)⟩
  | .xpeer t dir tok fl e1 => some ⟨.x, 83886080 + t.toNat * 1048576 + dir.toNat * 4096 + encTok tok * 256 + encFl fl * 4, none, optE (encE e1.toNat 0 0 0)⟩
  | .xcoll t rm op tok fl e1 e2 => some ⟨.x, 100663296 + t.toNat * 1048576 + rm.toNat * 65536 + op.toNat * 4096 + encTok tok * 256 + encFl fl * 4, none, optE (encE e1.toNat e2.toNat 0 0)⟩
  | .xgath q h t tok fl e1 e2 => some ⟨.x, 117440512 + q.toNat * 1048576 + h.toNat * 65536 + t.toNat * 4096 + encTok tok * 256 + encFl fl * 4, none, optE (encE e1.toNat e2.toNat 0 0)⟩
  | .xpf h e1 e2 e3 e4 => some ⟨.x, 134217728 + h.toNat * 65536, none, optE (encE e1.toNat e2.toNat e3.toNat e4.toNat)⟩
  | .xfence scope tok fl => some ⟨.x, 150994944 + scope.toNat * 1048576 + encTok tok * 256 + encFl fl * 4, none, none⟩
  | _ => none

/-- The EXT lanes of an encoding, in ascending kind (05 R158, R159, R161). -/
def Enc.extWords (n : Enc) : List Nat :=
  (match n.e0 with | some h => [h.toNat] | none => []) ++
  (match n.e2 with | some h => [536870912 + h.toNat] | none => [])

/-- The words of an instruction, its EXT lanes first. -/
def encodeWords (i : Instr) : Option (Engine × List Nat) :=
  (encode i).map fun n => (n.engine, n.extWords ++ [n.word])

/-- Little-endian value of bytes (00 R6). -/
def leNat : Bytes → Nat
  | [] => 0
  | b :: bs => b.toNat + 256 * leNat bs

/-- The `n` low bytes of a number, least significant first (00 R6). -/
def natLe : Nat → Nat → Bytes
  | 0, _ => []
  | n + 1, v => BitVec.ofNat 8 v :: natLe n (v / 256)

/-- The kind nibble of an engine's lanes (05 R153). -/
def Engine.kind : Engine → Nat
  | .c => 1 | .a => 2 | .v => 3 | .m => 4 | .x => 5

/-- The engine a kind nibble names (05 R153). -/
def Engine.ofKind? : Nat → Option Engine
  | 1 => some .c | 2 => some .a | 3 => some .v | 4 => some .m | 5 => some .x | _ => none

/-- The engine that takes a lone word whose line header is not given: the first, in the order C, A, V, M, X, whose decoder
accepts it. DESIGN CHOICE (log 8): the table numbers a word's bits without its kind nibble, and the opcode maps of the five
engines overlap. -/
def tableEngine (w : Nat) : Engine :=
  match [Engine.c, .a, .v, .m, .x].find? fun e => (decodeLane e w Ext.none).isOk with
  | some e => e
  | none => .c

/-- The instruction read from a lone lane word (05 R172): the word as its four little-endian bytes, decoded without EXT
lanes. -/
def decodeTableWord (nbits w : Nat) : Option Instr :=
  let bytes := natLe 4 (w % 2 ^ nbits)
  match decodeLane (tableEngine (leNat bytes)) (leNat bytes) Ext.none with
  | .ok i => some i
  | .error _ => none

end Sys2Proof
end

