-- ==== Sys2Proof/Machine/Formats.lean ====
section
/-! DEFINITION. Number formats, rounding and conversion (chapter 03): decoding each format to an exact value, the seven
rounding modes, exact sums, products, quotients and roots, conversions, the stochastic generator. -/

namespace Sys2Proof.Machine

open Sys2Proof

/-! ### Format codes (03 R89, 07 R241) -/

/-- Whether a format code is assigned. -/
def fmtOk (c : Nat) : Bool := c ≤ 5 || c == 8 || c == 9 || c == 10 || (0x10 ≤ c && c ≤ 0x15)
/-- The class I of 07 R246. -/
def fmtI (c : Nat) : Bool := 1 ≤ c && c ≤ 5
/-- The class F8. -/
def fmtF8 (c : Nat) : Bool := c == 0x10 || c == 0x11
/-- The class F. -/
def fmtF (c : Nat) : Bool := 0x12 ≤ c && c ≤ 0x15

/-- Width(fmt) of 07 R241. -/
def fmtWidth (c : Nat) : Nat :=
  if c = 3 ∨ c = 0x12 ∨ c = 0x13 then 16 else if c = 4 ∨ c = 0x14 then 32 else if c = 5 ∨ c = 0x15 then 64 else 8

/-- Elements per block (03 R89); RAW counts as 64 (02 R51). -/
def fmtCap (c : Nat) : Nat :=
  if c = 8 then 128 else if c = 9 then 320 else if c = 10 then 512 else 512 / fmtWidth c

/-- Significand planes p (03 R89). -/
def fmtPlanes (c : Nat) : Nat :=
  match c with
  | 1 => 8 | 2 => 8 | 3 => 16 | 4 => 32 | 5 => 64 | 8 => 4 | 9 => 1 | 10 => 1
  | 0x10 => 4 | 0x11 => 3 | 0x12 => 11 | 0x13 => 8 | 0x14 => 24 | 0x15 => 53 | _ => 0

/-- Beats G = ceil(p/4) (03 R89). -/
def fmtBeats (c : Nat) : Nat := (fmtPlanes c + 3) / 4

/-- Exponent and fraction bits of a floating format (03 R97). -/
def fmtExp (c : Nat) : Nat :=
  match c with | 0x10 => 4 | 0x11 => 5 | 0x12 => 5 | 0x13 => 8 | 0x14 => 8 | _ => 11
/-- Fraction bits. -/
def fmtFrac (c : Nat) : Nat :=
  match c with | 0x10 => 3 | 0x11 => 2 | 0x12 => 10 | 0x13 => 7 | 0x14 => 23 | _ => 52
/-- Bias. -/
def fmtBias (c : Nat) : Int := ((2 ^ (fmtExp c - 1) - 1 : Nat) : Int)

/-- The smallest value of an integer format or TERN5 (03 R104). -/
def fmtMin (c : Nat) : Int :=
  if c = 2 then 0 else if c = 9 then -1 else if c = 8 then -7 else -((2 ^ (fmtWidth c - 1) : Nat) : Int)
/-- The largest. -/
def fmtMax (c : Nat) : Int :=
  if c = 2 then 255 else if c = 9 then 1 else if c = 8 then 7 else ((2 ^ (fmtWidth c - 1) - 1 : Nat) : Int)

/-! ### Values -/

/-- An exact value: a NaN, an infinity, or (−1)^neg × m × 2^e. -/
inductive Val where
  | nan (signalling : Bool)
  | inf (neg : Bool)
  | fin (neg : Bool) (m : Nat) (e : Int)
  deriving DecidableEq, Repr

/-- Flag bits of FFLAGS (02 R77). -/
def flNV : Nat := 16
/-- Division by zero. -/
def flDZ : Nat := 8
/-- Overflow. -/
def flOF : Nat := 4
/-- Underflow. -/
def flUF : Nat := 2
/-- Inexact. -/
def flNX : Nat := 1

/-- Two's-complement reading of a `w`-bit pattern. -/
def signed (w n : Nat) : Int := if n % 2 ^ w < 2 ^ (w - 1) then (n % 2 ^ w : Nat) else ((n % 2 ^ w : Nat) : Int) - (2 ^ w : Nat)

/-- The pattern of an integer mod 2^w. -/
def wrapBits (w : Nat) (i : Int) : Nat := (i % ((2 ^ w : Nat) : Int)).toNat

/-- The integer an integer element holds (03 R92). -/
def intOf (c n : Nat) : Int := if c = 2 then (n % 256 : Nat) else signed (fmtWidth c) n

/-- The value of a floating pattern (03 R97, R98). -/
def floatOf (c n : Nat) : Val :=
  let fb := fmtFrac c
  let f := n % 2 ^ fb
  let e := n / 2 ^ fb % 2 ^ fmtExp c
  let s := n / 2 ^ (fb + fmtExp c) % 2 == 1
  if c = 0x10 then
    if n % 128 = 127 then .nan false
    else if e = 0 then .fin s f (-9) else .fin s (8 + f) ((e : Int) - 10)
  else if e = 2 ^ fmtExp c - 1 then (if f = 0 then .inf s else .nan (decide (f < 2 ^ (fb - 1))))
  else if e = 0 then .fin s f (1 - fmtBias c - fb)
  else .fin s (2 ^ fb + f) ((e : Int) - fmtBias c - fb)

/-- The value of a signed integer. -/
def Val.ofInt (i : Int) : Val := .fin (decide (i < 0)) i.natAbs 0

/-- The value of an element of an integer, FP8 or floating format. -/
def valOf (c n : Nat) : Val := if fmtI c then Val.ofInt (intOf c n) else floatOf c n

/-- Exact scaling by a power of two. -/
def Val.scale (k : Int) : Val → Val
  | .fin s m e => .fin s m (e + k)
  | v => v

/-- The canonical NaN (03 R100). -/
def nanBits (c : Nat) : Nat := if c = 0x10 then 0x7F else (2 ^ fmtExp c - 1) * 2 ^ fmtFrac c + 2 ^ (fmtFrac c - 1)

/-- The sign bit's weight. -/
def signBit (c : Nat) : Nat := 2 ^ (fmtFrac c + fmtExp c)

/-- The pattern of an infinity of an IEEE format. -/
def infBits (c : Nat) (neg : Bool) : Nat := (2 ^ fmtExp c - 1) * 2 ^ fmtFrac c + (if neg then signBit c else 0)

/-- The largest finite magnitude (03 R97, R105). -/
def maxBits (c : Nat) (neg : Bool) : Nat :=
  (if c = 0x10 then 0x7E else (2 ^ fmtExp c - 1) * 2 ^ fmtFrac c - 1) + (if neg then signBit c else 0)

/-! ### Rounding (03 R106) -/

/-- Bit length. -/
def bitLen (n : Nat) : Nat := if n = 0 then 0 else Nat.log2 n + 1

/-- One rounding of m × 2^e, and a little more when `sticky`, to a multiple of 2^q: the multiple and whether it differs.
`rnd` is the rounding value of 03 R111. -/
def roundAt (rm rnd : Nat) (neg : Bool) (m : Nat) (e : Int) (sticky : Bool) (q : Int) : Nat × Bool :=
  if q ≤ e then
    let t := m * 2 ^ (e - q).toNat
    (t, sticky)
  else
    let d := 2 ^ (q - e).toNat
    let t := m / d
    let r := m % d
    let inexact := r != 0 || sticky
    let above := decide (2 * r > d) || (2 * r == d && sticky)
    let tie := 2 * r == d && !sticky
    let up := match rm with
      | 0 => above || (tie && t % 2 == 1)
      | 1 => false
      | 2 => neg && inexact
      | 3 => !neg && inexact
      | 4 => above || tie
      | 5 => inexact && t % 2 == 0
      | _ => decide (r * 65536 / d + rnd ≥ 65536)
    (if up then t + 1 else t, inexact)

/-- Rounding to an integer. -/
def roundInt (rm rnd : Nat) (neg : Bool) (m : Nat) (e : Int) : Int × Bool :=
  let (t, x) := roundAt rm rnd neg m e false 0
  (if neg then -(t : Int) else (t : Int), x)

/-- Rounding a finite value to a floating format: pattern and flags (03 R105, R106, R114). -/
def roundFloat (c rm rnd : Nat) (neg : Bool) (m : Nat) (e : Int) (sticky : Bool) : Nat × Nat :=
  let fb := fmtFrac c
  let s := if neg then signBit c else 0
  if m = 0 ∧ sticky = false then (s, 0)
  else
    let top := e + (bitLen m : Int) - 1
    let emin := 1 - fmtBias c
    let q := max (top - fb) (emin - fb)
    let (t, x) := roundAt rm rnd neg m e sticky q
    let (t, q) := if t = 2 ^ (fb + 1) then (2 ^ fb, q + 1) else (t, q)
    let field := if t < 2 ^ fb then 0 else (q + fb + fmtBias c).toNat
    let mag := if t < 2 ^ fb then t else field * 2 ^ fb + (t - 2 ^ fb)
    if mag > maxBits c false then
      if c = 0x10 then (0x7E + s, flOF + flNX)
      else match rm with
        | 1 => (maxBits c neg, flOF + flNX)
        | 5 => (maxBits c neg, flOF + flNX)
        | 2 => (if neg then infBits c neg else maxBits c neg, flOF + flNX)
        | 3 => (if neg then maxBits c neg else infBits c neg, flOF + flNX)
        | _ => (infBits c neg, flOF + flNX)
    else
      let tiny := decide (top < emin) &&
        decide ((((roundAt rm rnd neg m e sticky (top - fb)).1 : Nat) : Int) < 2 ^ (fb + 1) ∨ top < emin - 1)
      (mag + s, (if x then flNX else 0) + (if x && tiny then flUF else 0))

/-- The pattern of an exact value in a floating format (03 R100, R105). A NaN sets NV when it is signalling. -/
def encodeVal (c rm rnd : Nat) : Val → Nat × Nat
  | .nan sg => (nanBits c, if sg then flNV else 0)
  | .inf s => if c = 0x10 then (0x7F, flNV) else (infBits c s, 0)
  | .fin s m e => roundFloat c rm rnd s m e false

/-! ### Exact arithmetic -/

/-- Either operand is a signalling NaN. -/
def Val.signals : Val → Bool
  | .nan b => b
  | _ => false

/-- Whether a value is a NaN. -/
def Val.isNan : Val → Bool
  | .nan _ => true
  | _ => false

/-- Whether a value is zero. -/
def Val.isZero : Val → Bool
  | .fin _ 0 _ => true
  | _ => false

/-- A sign-magnitude value as an integer multiple of 2^q, for q at or below its exponent. -/
def alignTo (neg : Bool) (m : Nat) (e q : Int) : Int :=
  let a : Int := ((m * 2 ^ (e - q).toNat : Nat) : Int)
  if neg then -a else a

/-- The sum, and the flags it raises before rounding (∞ − ∞, signalling NaN). The sign of an exact zero sum follows
IEEE 754: negative under .rdn unless both are positive zeros. -/
def Val.add (rm : Nat) (a b : Val) : Val × Nat :=
  let nv := if a.signals || b.signals then flNV else 0
  match a, b with
  | .nan _, _ => (.nan false, nv)
  | _, .nan _ => (.nan false, nv)
  | .inf s, .inf t => if s = t then (.inf s, 0) else (.nan false, flNV)
  | .inf s, _ => (.inf s, 0)
  | _, .inf t => (.inf t, 0)
  | .fin s m e, .fin t n f =>
    let q := min e f
    let i := alignTo s m e q + alignTo t n f q
    if i = 0 then (.fin (if s = t then s else rm == 2) 0 q, 0) else (.fin (decide (i < 0)) i.natAbs q, 0)

/-- Change of sign. -/
def Val.neg : Val → Val
  | .nan b => .nan b
  | .inf s => .inf (!s)
  | .fin s m e => .fin (!s) m e

/-- The exact product (0 × ∞ is invalid). -/
def Val.mul (a b : Val) : Val × Nat :=
  let nv := if a.signals || b.signals then flNV else 0
  match a, b with
  | .nan _, _ => (.nan false, nv)
  | _, .nan _ => (.nan false, nv)
  | .inf s, .inf t => (.inf (s != t), 0)
  | .inf s, .fin t n _ => if n = 0 then (.nan false, flNV) else (.inf (s != t), 0)
  | .fin s m _, .inf t => if m = 0 then (.nan false, flNV) else (.inf (s != t), 0)
  | .fin s m e, .fin t n f => (.fin (s != t) (m * n) (e + f), 0)

/-- Add two patterns of a floating format with one rounding (07 R249). -/
def floatAdd (c rm rnd a b : Nat) : Nat × Nat :=
  let (v, f) := Val.add rm (floatOf c a) (floatOf c b)
  let (r, g) := encodeVal c rm rnd v
  (r, f ||| g)

/-- Subtract. -/
def floatSub (c rm rnd a b : Nat) : Nat × Nat :=
  let (v, f) := Val.add rm (floatOf c a) (floatOf c b).neg
  let (r, g) := encodeVal c rm rnd v
  (r, f ||| g)

/-- Multiply. -/
def floatMul (c rm rnd a b : Nat) : Nat × Nat :=
  let (v, f) := Val.mul (floatOf c a) (floatOf c b)
  let (r, g) := encodeVal c rm rnd v
  (r, f ||| g)

/-- c + a × b with one rounding (07 R252): 0 × ∞ is invalid even when the addend is a quiet NaN. -/
def floatFma (c rm rnd addend a b : Nat) : Nat × Nat :=
  let (p, f) := Val.mul (floatOf c a) (floatOf c b)
  let (v, g) := Val.add rm (floatOf c addend) p
  let (r, h) := encodeVal c rm rnd v
  (r, f ||| g ||| h)

/-- The quotient of two magnitudes with enough bits for one rounding: quotient, exponent, sticky. -/
def quotient (p m n : Nat) : Nat × Int × Bool :=
  let k := p + 24 + bitLen n
  (m * 2 ^ k / n, -(k : Int), m * 2 ^ k % n != 0)

/-- Division (07 R253). -/
def floatDiv (c rm rnd a b : Nat) : Nat × Nat :=
  let x := floatOf c a
  let y := floatOf c b
  let nv := if x.signals || y.signals then flNV else 0
  match x, y with
  | .nan _, _ => (nanBits c, nv)
  | _, .nan _ => (nanBits c, nv)
  | .inf _, .inf _ => (nanBits c, flNV)
  | .inf s, .fin t _ _ => (infBits c (s != t), 0)
  | .fin s _ _, .inf t => (if s != t then signBit c else 0, 0)
  | .fin s m e, .fin t n f =>
    if n = 0 then (if m = 0 then (nanBits c, flNV) else (infBits c (s != t), flDZ))
    else if m = 0 then (if s != t then signBit c else 0, 0)
    else
      let (q, k, st) := quotient (fmtFrac c + 1) m n
      roundFloat c rm rnd (s != t) q (e - f + k) st

/-- Integer square root, bit `i` and below still to be tried. -/
def isqrtFrom (m : Nat) : Nat → Nat → Nat
  | 0, r => if (r + 1) * (r + 1) ≤ m then r + 1 else r
  | i + 1, r =>
    let t := r + 2 ^ (i + 1)
    isqrtFrom m i (if t * t ≤ m then t else r)

/-- Floor of the square root. -/
def isqrt (m : Nat) : Nat := isqrtFrom m (bitLen m / 2 + 1) 0

/-- The root of m × 2^e with enough bits: root, exponent, sticky. -/
def rootOf (p m : Nat) (e : Int) : Nat × Int × Bool :=
  let odd := e % 2 != 0
  let m1 := if odd then 2 * m else m
  let e1 := if odd then e - 1 else e
  let k := p + 24
  let r := isqrt (m1 * 2 ^ (2 * k))
  (r, e1 / 2 - k, r * r != m1 * 2 ^ (2 * k))

/-- Square root (07 R253, 03 R122). -/
def floatSqrt (c rm rnd a : Nat) : Nat × Nat :=
  match floatOf c a with
  | .nan sg => (nanBits c, if sg then flNV else 0)
  | .inf false => (infBits c false, 0)
  | .inf true => (nanBits c, flNV)
  | .fin s m e =>
    if m = 0 then (if s then signBit c else 0, 0)
    else if s then (nanBits c, flNV)
    else
      let (r, k, st) := rootOf (fmtFrac c + 1) m e
      roundFloat c rm rnd false r k st

/-! ### Comparison and minimum (07 R251, R269) -/

/-- Order of two values that are not NaNs: −1, 0 or 1; +0 equals −0. -/
def Val.cmp (a b : Val) : Int :=
  match a, b with
  | .inf true, .inf true => 0
  | .inf false, .inf false => 0
  | .inf true, _ => -1
  | _, .inf true => 1
  | .inf false, _ => 1
  | _, .inf false => -1
  | .fin s m e, .fin t n f =>
    let q := min e f
    let x := alignTo s m e q
    let y := alignTo t n f q
    if x < y then -1 else if y < x then 1 else 0
  | _, _ => 0

/-- The sign of a value that is not a NaN. -/
def Val.isNeg : Val → Bool
  | .fin s _ _ => s
  | .inf s => s
  | .nan _ => false

/-- IEEE 754-2019 minimum or maximum of two patterns: −0 below +0, a NaN gives the canonical NaN (07 R251). -/
def floatMinMax (c : Nat) (isMax : Bool) (a b : Nat) : Nat × Nat :=
  let x := floatOf c a
  let y := floatOf c b
  if x.isNan || y.isNan then (nanBits c, if x.signals || y.signals then flNV else 0)
  else
    let o := Val.cmp x y
    let aLess := decide (o < 0) || (o == 0 && x.isNeg && !y.isNeg)
    (if aLess != isMax then a else b, 0)

/-- Minimum or maximum of two patterns of an integer format. -/
def intMinMax (c : Nat) (isMax : Bool) (a b : Nat) : Nat :=
  let aLess := decide (intOf c a ≤ intOf c b)
  if aLess != isMax then a else b

/-! ### The stochastic generator (03 R109-R112) -/

/-- One use of a generator. -/
def nextGen (s : Word) : Word :=
  let s := s ^^^ (s <<< 13)
  let s := s ^^^ (s >>> 7)
  s ^^^ (s <<< 17)

/-- The rounding value of lane `k` (03 R111). -/
def rndOf (s : Word) (k : Nat) : Nat := (s.rotateLeft (11 * k % 64)).toNat % 65536

/-- Seed(c) for a launch identifier and a unit index (03 R112). -/
def seedOf (x4 x1 : Word) (c : Nat) : Word :=
  let z := x4 ^^^ (x1 * 0x9E3779B97F4A7C15#64) ^^^ (BitVec.ofNat 64 c * 0xD1B54A32D192ED03#64)
  let z := (z ^^^ (z >>> 30)) * 0xBF58476D1CE4E5B9#64
  let z := (z ^^^ (z >>> 27)) * 0x94D049BB133111EB#64
  let z := z ^^^ (z >>> 31)
  if z = 0 then 1 else z

/-! ### Conversion (03 R104) -/

/-- Convert a value with source scale `s` to a format with target scale `t`: pattern and flags. INT4O gives a plain slot,
TERN5 a trit as its digit. The caller has refused NaN scales where R101 and R104 do; a NaN scale to a floating target gives
a quiet NaN, with no NV for a signalling element (DESIGN CHOICE, log 103). -/
def convert (v : Val) (s tgt t rm rnd : Nat) : Nat × Nat :=
  let y := if s = 255 then .nan false else v.scale ((s : Int) - t)
  if fmtF tgt || fmtF8 tgt then encodeVal tgt rm rnd y
  else
    let clamp (i : Int) : Int × Bool := if i < fmtMin tgt then (fmtMin tgt, true) else if i > fmtMax tgt then (fmtMax tgt, true) else (i, false)
    let bits (i : Int) : Nat := if tgt = 9 then (i + 1).toNat else if tgt = 8 then wrapBits 4 i else wrapBits (fmtWidth tgt) i
    match y with
    | .nan _ => (bits 0, flNV)
    | .inf sg => (bits (if sg then fmtMin tgt else fmtMax tgt), flNV)
    | .fin sg m e =>
      let (i, x) := roundInt rm rnd sg m e
      let (j, cl) := clamp i
      (bits j, if cl then flNV else if x then flNX else 0)

/-! ### Narrow formats (03 R93-R95) -/

/-- Nibble `k` of bytes. -/
def nibble (d : Bytes) (k : Nat) : Nat := (d.getD (k / 2) 0).toNat / (if k % 2 = 0 then 1 else 16) % 16

/-- The value of each slot of an INT4O block from slot `k` on, `none` where an outlier stands too late (03 R93). -/
def int4Slots (d : Bytes) : Nat → Nat → Option (List Val)
  | 0, _ => some []
  | fuel + 1, k =>
    if 128 ≤ k then some []
    else
      let n := nibble d k
      if n = 8 then
        if 126 ≤ k then none
        else (int4Slots d fuel (k + 3)).map fun r =>
          floatOf 0x10 (nibble d (k + 1) * 16 + nibble d (k + 2)) :: .fin false 0 0 :: .fin false 0 0 :: r
      else (int4Slots d fuel (k + 1)).map fun r => Val.ofInt (signed 4 n) :: r

/-- The values of an INT4O block. -/
def int4Block (d : Bytes) : Option (List Val) := int4Slots d 128 0

/-- Digit `i` of a TERN5 byte by the multiply and shift of 03 R95. -/
def ternDigit (q : Nat) : Nat → Nat
  | 0 => q - 3 * (q * 171 / 512)
  | i + 1 => ternDigit (q * 171 / 512) i

/-- Trit `i` of a TERN5 byte: 0 when the byte is illegal (03 R95). -/
def tritOf (b : Nat) (i : Nat) : Int := if 243 ≤ b then 0 else (ternDigit b i : Int) - 1

/-! ### Lanes -/

/-- Lane `k` of width `w` (8, 16, 32 or 64) of bytes (07 R241). -/
def laneOf (d : Bytes) (w k : Nat) : Nat := leNat ((d.drop (k * (w / 8))).take (w / 8))

/-- The bytes of a list of lanes. -/
def lanesToBytes (w : Nat) (ls : List Nat) : Bytes := ls.flatMap fun v => natLe (w / 8) v

end Sys2Proof.Machine
end

