-- ==== Sys2Proof/Machine/State.lean ====
section
/-! DEFINITION. The state of the device: every core, every lantern and the rest of the package, as plain data, and the state
right after reset. INVENTORY.md lists each piece with the rule of the spec that names it. -/

namespace Sys2Proof.Machine

open Sys2Proof

/-- What stops the machine. -/
inductive Fault where
  /-- An access to a device physical address above 0x1FF_FFFF_FFFF, where 20 R501 says there is no device memory. Raised by
  the byte accesses of device memory. Safe: the model stops where the spec gives no behaviour. -/
  | absentMemory (addr : Nat)
  deriving DecidableEq, Repr

/-- Instructions the model gives no meaning. -/
inductive Refusal where
  /-- The instruction has no meaning yet. Raised by the arms of `exec` only. Safe: nothing follows from it. -/
  | notModelled (mnemonic : String)
  deriving DecidableEq, Repr

/-! ### Values shared by several units -/

/-- A block descriptor: the format byte and the scale byte (03 R83, 02 R71). -/
structure Desc where
  fmt : Byte
  scale : Byte
  deriving DecidableEq, Repr

/-- The descriptor of cleared scratchpad (02 R82). -/
def Desc.zero : Desc := ⟨0x00, 0x7F⟩

/-- One vector register's width with its format byte and four scale bytes (02 R59, R62). A half unit uses the first half of
`data` and the first two scales. -/
structure Elem where
  fmt : Byte
  scales : List Byte
  data : Bytes
  deriving DecidableEq, Repr

/-- Zero, format 0x00, scales 0x7F (02 R73). -/
def Elem.zero : Elem := ⟨0, List.replicate 4 0x7F, List.replicate 256 0⟩

/-- A vector register: dead until it is written (02 R73). -/
structure VReg where
  live : Bool
  el : Elem
  deriving DecidableEq, Repr

/-- A vector register at unit start (02 R82). -/
def VReg.zero : VReg := ⟨false, Elem.zero⟩

/-- The binding of a tile slot (02 R63; 17 R468). `planes` is 0 for an element-major slot and P of 08 R279 otherwise. -/
structure Tile where
  base : Nat
  rows : Nat
  cols : Nat
  fmt : Byte
  plane : Bool
  planes : Nat
  deriving DecidableEq, Repr

/-- The binding of a circular buffer (02 R64). `gen` tells the bindings of one buffer apart: a fill keeps the one it was issued under
(09 R332). -/
structure Buf where
  base : Nat
  size : Nat
  count : Nat
  gen : Nat
  deriving DecidableEq, Repr

/-- The counters and positions of a bound circular buffer (09 R329). -/
structure BufCount where
  free : Nat
  filled : Nat
  fill : Nat
  take : Nat
  rel : Nat
  deriving DecidableEq, Repr

/-- A shape register: the request half and the grant half (02 R52). -/
structure Shape where
  rm : BitVec 16
  rn : BitVec 16
  rk : BitVec 16
  afmt : Byte
  gm : BitVec 16
  gn : BitVec 16
  gk : BitVec 16
  gvl : BitVec 9
  deriving DecidableEq, Repr

/-- All fields zero (02 R82). -/
def Shape.zero : Shape := ⟨0, 0, 0, 0, 0, 0, 0, 0⟩

/-- A lane named in a report: its byte address and the iteration indices i0 to i5 (14 R406, 17 R457). `ovr` says that it
stands in an overwriting iteration, so that its writes and reads go through the cover map (14 R417, R418); `place` is its place
in the dynamic text (17 R459). -/
structure LaneAt where
  addr : Nat
  iter : List Nat
  ovr : Bool
  place : Nat
  deriving DecidableEq, Repr

/-- A pending contained trap (17 R456), with the cycle in which it was raised (17 R459). -/
structure Report where
  engine : Engine
  cause : Cause
  lane : LaneAt
  addr : Word
  cyc : Nat
  deriving DecidableEq, Repr

/-! ### One unit's text and registers -/

/-- The registers that follow text order (01 R32): x1-x7, the scalar file, the window, handles, shapes, the bindings of
slots and buffers, and the control registers that lanes of other engines read or write, STATUS among them (02 R76). -/
structure Shared where
  xg : Sparse Word
  xf : Sparse Word
  wb : BitVec 8
  frame : Nat
  th : Sparse (BitVec 256)
  sh : Sparse Shape
  ts : Sparse (Option Tile)
  cb : Sparse (Option Buf)
  slip : Nat
  vsp : Nat
  ovwran : Word
  status : Word
  deriving DecidableEq, Repr

/-- 02 R82, 01 R29, 02 R80, 14 R421, 02 R76. -/
def Shared.reset : Shared := ⟨[], [], 0, 24, [], [], [], [], 8, 0x1F8000, 0xFFFFFFFF, 0⟩

/-- One write of a register that follows text order: `stick` sets sticky bits of STATUS, `status` replaces it; `park` marks a lane
that changes PARKST, with its value before. -/
inductive SharedWrite where
  | xg (i : Nat) (v : Word)
  | xf (i : Nat) (v : Word)
  | win (wb : BitVec 8) (frame : Nat)
  | th (i : Nat) (v : BitVec 256)
  | sh (i : Nat) (v : Shape)
  | ts (i : Nat) (v : Option Tile)
  | cb (i : Nat) (v : Option Buf)
  | slip (n : Nat)
  | vsp (n : Nat)
  | ovwran (v : Word)
  | stick (bits : Word)
  | status (v : Word)
  | park (before : Word)
  deriving DecidableEq, Repr

/-- The iteration of a sequenced loop to which a line instance belongs (14 R404-R409). `idx` holds i0 to i5, `k` the kernel
iteration of level 0, `stages` S of R408, `strides` the bound access registers as (register, level, stride). -/
structure Iter where
  idx : List Nat
  k : Nat
  stages : Nat
  trips : List Nat
  ovr : Option Nat
  skip : Bool
  strides : List (Nat × Nat × Int)
  deriving DecidableEq, Repr

/-- One line of the dynamic text (01 R27). Lanes at and above `lim` are not executed (R35); `sw` marks a group switch before
the line (05 R171); `rb` is the rotating base in force (14 R409); `held` the words of a line that has been fetched already, by a
transfer to it (17 R465) or into the loop buffer (14 R405). -/
structure LineInst where
  addr : Nat
  lim : Nat
  sw : Bool
  rb : Nat
  iter : Option Iter
  checked : Bool
  held : Option (List Nat)
  deriving DecidableEq, Repr

/-- Where the dynamic text continues after the last known line. -/
inductive Front where
  /-- At a line address; the flag marks a group switch before it; the words are those of a line that the transfer to it has
  fetched (17 R465). -/
  | line (addr : Nat) (sw : Bool) (held : Option (List Nat))
  /-- At an iteration boundary of the running loop (14 R404). -/
  | boundary
  deriving DecidableEq, Repr

/-- A vector skip in progress: the target line, the line instance and lane of the VSKIP (01 R37), and the indices for which that lane
acted (14 R406). -/
structure Skip where
  target : Nat
  serial : Nat
  lane : Nat
  idx : List Nat
  deriving DecidableEq, Repr

/-- An engine's program counter: a line instance and a lane of it (01 R26), whether it has executed END (R36), a vector
skip in progress, and the iteration indices for which its lane acts (14 R408), empty outside a loop. -/
structure EngPos where
  serial : Nat
  lane : Nat
  ended : Bool
  skip : Option Skip
  idx : List Nat
  deriving DecidableEq, Repr

/-- At lane 1 of the first line. -/
def EngPos.start : EngPos := ⟨0, 1, false, none, []⟩

/-- A unit's control context. `rs` is the return-address store, oldest entry first; its first `rdepth` places are in use (02
R50, R78; log 21). The handler of 17 R456 has one of its own. `grans` marks the granules the unit has staged (16
R446). -/
structure UnitCtx where
  sh : Shared
  log : List (Nat × SharedWrite)
  text : List LineInst
  base : Nat
  front : Front
  eC : EngPos
  eA : EngPos
  eV : EngPos
  eM : EngPos
  eX : EngPos
  latC : List Word
  rs : List Word
  rdepth : Nat
  rspill : Nat
  wspill : Nat
  callPending : Bool
  world : Nat
  lid : Option Nat
  idx : Nat
  run : Nat
  grans : Sparse Bool
  deriving DecidableEq, Repr

/-- No unit: registers as at unit start, world 15. -/
def UnitCtx.reset : UnitCtx :=
  ⟨Shared.reset, [], [], 0, .line 0 false none, EngPos.start, EngPos.start, EngPos.start, EngPos.start, EngPos.start,
   [], List.replicate 16 0, 0, 0, 0, false, 15, none, 0, 0, []⟩

/-! ### The parts of a core, by scan segment (17 R467) -/

/-- The flag registers, DIAGEN and the lease limits (02 R77, R81; 08 R292, R293). -/
structure Csr where
  fv : Word
  fm : Word
  diagen : Bool
  leaseLen : Nat
  leaseCyc : Nat
  deriving DecidableEq, Repr

/-- Reset values of 02 R77, R81; 08 R292, R293. -/
def Csr.reset : Csr := ⟨0, 0, false, 16, 65536⟩

/-- A matrix command in the queue (08 R286): the lane's instruction with what it read at issue. -/
structure MCmd where
  instr : Instr
  lane : LaneAt
  word : Nat
  a : Option Tile
  b : Option Tile
  st : Option Tile
  shape : Shape
  h : BitVec 256
  e1 : Word
  e2 : Word
  deriving DecidableEq, Repr

/-- An armed product flip (12 R377): row, column, bit, beat, and how many array commands stand before its target. -/
structure Flip where
  row : Nat
  col : Nat
  bit : Nat
  beat : Nat
  left : Nat
  deriving DecidableEq, Repr

/-- The matrix issue engine (17 R467). `cur` is the product in progress, which has left the queue (R468); `want` the mask an
MLEASE waits for; `lost` says that the lease has ended and is to be granted again (08 R291). `owed` counts the queued commands up to the
product that a stop of the lease's quadrants has held back, which complete before a limit ends the lease (18 R479, R482). -/
structure MatIss where
  mq : List MCmd
  cur : Option MCmd
  lease : Nat
  cmds : Nat
  start : Nat
  lost : Bool
  want : Nat
  owed : Nat
  qgen : Sparse Word
  flip : Sparse (Option Flip)
  deriving DecidableEq, Repr

/-- No command, no lease. The generator states are never zero (03 R109): DESIGN CHOICE 1 before any unit (log 3). -/
def MatIss.reset : MatIss := ⟨[], none, 0, 0, 0, false, 0, 0, [(0, 1), (1, 1), (2, 1), (3, 1)], []⟩

/-- One entry of the binding table (06 R203). -/
structure Binding where
  obj : Nat
  base : Nat
  len : Nat
  scope : Scope
  deriving DecidableEq, Repr

/-- A sequenced loop in progress (14 R404): its loop buffer, the words of its body's lines (R405). `pos` holds the positions of
the levels, that of level 0 being the kernel iteration of a pipelined loop (R408); `started` says that the iteration there has
begun. An overwriting loop keeps the two in the walker segment (R422). -/
structure Loop where
  line : Nat
  len : Nat
  buf : List (List Nat)
  levels : Nat
  trips : List Nat
  pos : List Nat
  stages : Nat
  ovr : Option Nat
  strides : List (Nat × Nat × Int)
  started : Bool
  deriving DecidableEq, Repr

/-- The bindings on which a region may rely (17 R478). -/
structure Shadow where
  ts : Sparse (Option Tile)
  cb : Sparse (Option Buf)
  cbc : Sparse (Option BufCount)
  binds : List Binding
  deriving DecidableEq, Repr

/-- The sequencer, the binding table and the region (06 R220-R226). `guarded` says that an access of 10 R374 was performed in
the open region, `everGuarded` since unit start. `taken` lists the LOOPC lanes of a replayed unit that have taken a logged block, or of a recorded one that have
put theirs on the log, since unit start, `takenAt` those before its open region (20 R513). `regionRb` is
RB at the line that opened the region, by which its v-mask names registers. -/
structure Seq where
  binds : List Binding
  trip : Sparse Nat
  stride : Sparse (Option (Nat × Int))
  ovw : Option Nat
  loop : Option Loop
  region : Option Nat
  shadow : Shadow
  guarded : Bool
  everGuarded : Bool
  taken : List Nat
  takenAt : List Nat
  regionRb : Nat
  deriving DecidableEq, Repr

/-- Nothing bound, no loop, no region. -/
def Seq.reset : Seq := ⟨[], [], [], none, none, none, ⟨[], [], [], []⟩, false, false, [], [], 0⟩

/-- A waiting FWAIT: its engine, flag, whether it subtracts, threshold (06 R211, R212). -/
structure FlagWait where
  engine : Engine
  flag : Nat
  sub : Bool
  n : Nat
  deriving DecidableEq, Repr

/-- The control segment C: the control engine, the matrix issue engine, bindings, the sequencer, tokens and flags. -/
structure SegC where
  u : UnitCtx
  busy : Bool
  k : Sparse Nat
  f : Sparse Nat
  csr : Csr
  mat : MatIss
  seq : Seq
  pend : Option Report
  waits : List FlagWait
  deriving DecidableEq, Repr

/-- No unit. -/
def SegC.reset : SegC := ⟨UnitCtx.reset, false, [], [], Csr.reset, MatIss.reset, Seq.reset, none, []⟩

/-- An affine stream (09 R321). -/
structure Stream where
  base : Nat
  counts : List Nat
  strides : List Int
  next : Nat
  total : Nat
  lane : LaneAt
  deriving DecidableEq, Repr

/-- What a queue is bound to (09 R321, R349). -/
inductive QBind where
  | stream (p : Stream)
  | gath
  deriving DecidableEq, Repr

/-- The access segment A: the access engine, queues, streams and buffer counters, by buffer + 8 × generation of its binding. -/
structure SegA where
  a : Sparse (BitVec 32)
  lat : List (BitVec 32)
  q : Sparse (List Elem)
  qb : Sparse (Option QBind)
  cbc : Sparse (Option BufCount)
  deriving DecidableEq, Repr

/-- Empty and unbound (02 R82). -/
def SegA.reset : SegA := ⟨[], [], [], [], []⟩

/-- Where a register is parked: quadrant, row and slot (07 R273). -/
structure ParkAt where
  quad : Nat
  row : Nat
  slot : Nat
  deriving DecidableEq, Repr

/-- The vector segment V: registers, latches, mask stack, shape selection, converter, the map of parked registers, the rotating
base (14 R409). -/
structure SegV where
  v : Sparse VReg
  lat : List Elem
  mask : List (BitVec 256)
  curSh : ShReg
  gen : Word
  park : Sparse (Option ParkAt)
  rb : Nat
  deriving DecidableEq, Repr

/-- All registers dead (02 R82); the generator state is never zero (03 R109): DESIGN CHOICE 1 before any unit (log 3). -/
def SegV.reset : SegV := ⟨[], [], [], 0, 1, [], 0⟩

/-- A copy command in the queue (09 R332): the lane's instruction with what it read at issue, and its progress (17 R470); `clash` says
that its collective shares an exchange area with another one in progress (16 R451). -/
structure XCmd where
  instr : Instr
  lane : LaneAt
  t1 : Option Tile
  t2 : Option Tile
  buf : Option Buf
  h : BitVec 256
  e1 : Word
  e2 : Word
  e3 : Word
  e4 : Word
  begun : Bool
  slot : Nat
  done : Nat
  clash : Bool
  deriving DecidableEq, Repr

/-- The copy segment X: the command queue, and the collectives issued as (COLLID, SEQ) (16 R451). -/
structure SegX where
  xq : List XCmd
  colls : List (Nat × Nat)
  deriving DecidableEq, Repr

/-- Empty. -/
def SegX.reset : SegX := ⟨[], []⟩

/-- A footprint gathered so far: boxes by number, then cells (14 R414). -/
structure Foot where
  boxes : List (Nat × List Nat)
  cells : List Nat
  deriving DecidableEq, Repr

/-- The walk of an overwriting loop (14 R413-R421): positions of the levels, whether the iteration there has begun, the skipped
iterations and the lowest index that ran; while the footprint is evaluated, what has been gathered and from how many lanes of the
body, which of its lines have passed their check (05 R154), and whether the walker has trapped. -/
structure Walk where
  pos : List Nat
  started : Bool
  skipped : Nat
  lowran : Nat
  foot : Foot
  seen : Nat
  checked : List Nat
  trapped : Bool
  deriving DecidableEq, Repr

/-- No walk. -/
def Walk.reset : Walk := ⟨[], false, 0, 0xFFFFFFFF, ⟨[], []⟩, 0, [], false⟩

/-- The walker segment W: the cover map and the pending marks, as the marked cells (14 R415), and the walk (R422). -/
structure SegW where
  cover : Sparse Bool
  marks : Sparse Bool
  walk : Walk
  deriving DecidableEq, Repr

/-- Clear. -/
def SegW.reset : SegW := ⟨[], [], Walk.reset⟩

/-- One entry of the TLB: a valid leaf (17 R463, R464). -/
structure TlbEntry where
  world : Nat
  va : Nat
  size : Nat
  pa : Nat
  unprot : Bool
  target : Nat
  x : Bool
  w : Bool
  deriving DecidableEq, Repr

/-- A frame-table slot (06 R240, 19 R487). -/
structure Slot where
  world : Nat
  len : Nat
  en : Bool
  deriving DecidableEq, Repr

/-- The trap registers of 17 R457. -/
structure TrapRegs where
  trep : Word
  tlane : Word
  taddr : Word
  titer0 : Word
  titer1 : Word
  titer2 : Word
  tvec : Word
  errcnt : Word
  deriving DecidableEq, Repr

/-- Zero; TVEC's reset value is "firmware": DESIGN CHOICE 0 until the firmware starts (log 5). -/
def TrapRegs.reset : TrapRegs := ⟨0, 0, 0, 0, 0, 0, 0, 0⟩

/-- What a core holds outside its tenant scan segments. `edge` is the cycle of the next frame edge, `opened` that of the last;
`slotNext` the table writes that wait for an edge, with their cycle and slot; `raised` the cycle and the place in the text of the trap
whose handler runs (17 R459); `testAt` is the start of a test of the rotation that has not ended, `passed` that of the last passed
one, `used` the launches with units here since then (20 R510). -/
structure CoreSys where
  tr : TrapRegs
  saved : Option UnitCtx
  fw : UnitCtx
  tlb : List TlbEntry
  slots : Sparse Slot
  slot : Nat
  edge : Nat
  slotNext : List (Nat × Nat × Slot)
  raised : Nat × Nat
  owner : Sparse Nat
  stopped : Nat
  shifting : Nat
  enabled : Bool
  full : Bool
  fenced : Bool
  testAt : Option Nat
  passed : Nat
  used : List Nat
  draining : Bool
  freeze : Nat
  opened : Nat
  deriving DecidableEq, Repr

/-- An unlisted frame-table slot: disabled. -/
def Slot.off : Slot := ⟨0, 20, false⟩

/-- Cold reset: slot 0 for world 0 with L = 20 (19 R487), every segment owned by world 15 (17 R471); a full, enabled core
(DESIGN CHOICE for the part, log 4). -/
def CoreSys.reset : CoreSys :=
  ⟨TrapRegs.reset, none, UnitCtx.reset, [], [(0, ⟨0, 20, true⟩)], 0, 1048576, [], (0, 0), [], 0, 0, true, true, false, none, 0, [], false, 0, 0⟩

/-- A core: its five tenant segments, scratchpad, tag array and the rest. Cores 0 to 511 are the cores of 00 R2; number
512 + d is the lamplighter of die d (01 R14). -/
structure Core where
  c : SegC
  a : SegA
  v : SegV
  x : SegX
  w : SegW
  spad : List Host.Cell
  tag : Sparse Desc
  sys : CoreSys
  turn : Nat
  deriving DecidableEq, Repr

/-- A core at cold reset. -/
def Core.reset : Core :=
  ⟨SegC.reset, SegA.reset, SegV.reset, SegX.reset, SegW.reset, [], [], CoreSys.reset, 0⟩

/-! ### Lanterns -/

/-- The command record of a quadrant (17 R468). -/
structure Rcd where
  active : Bool
  beat : Nat
  core : Nat
  word : Nat
  gm : Nat
  gn : Nat
  gk : Nat
  g : Nat
  a : Option Tile
  b : Option Tile
  rm : Nat
  rn : Nat
  rk : Nat
  afmt : Byte
  deriving DecidableEq, Repr

/-- All zeros. -/
def Rcd.zero : Rcd := ⟨false, 0, 0, 0, 0, 0, 0, 0, none, none, 0, 0, 0, 0⟩

/-- What a cell holds beside its accumulator (08 R283): a partial product, an A element, a group of planes with its number and whether
it is its element's last, and whether the two are valid. -/
structure CellBits where
  preg : Word
  a : Word
  bg : Nat
  gidx : Nat
  va : Bool
  vb : Bool
  last : Bool
  deriving DecidableEq, Repr

/-- Reset (08 R283). -/
def CellBits.zero : CellBits := ⟨0, 0, 0, 0, false, false, false⟩

/-- A parked register's format byte and scales (07 R273), and the unit that parked it: its core within the lantern, launch,
index and run (19 R491). -/
structure Park where
  core : Nat
  lid : Option Nat
  idx : Nat
  run : Nat
  reg : Nat
  fmt : Byte
  scales : List Byte
  deriving DecidableEq, Repr

/-- A quadrant: accumulators by 128 × row + column, check words by row (08 R306), the rest of the cells (R283), which hold something
while a product is stopped between beats (R285), the command record, parked registers by
4 × row + slot, the holding core, the segment owner and clock, an armed stop beat, rows restored poisoned (08 R308), whether
the rotation holds it (20 R508) and since which cycle, when its last hold began, the start of its last passed test, the launches that
held it since, and the rows that the test left out because registers were parked there. -/
structure Quad where
  acc : Sparse Word
  sw : Sparse Word
  ww : Sparse Word
  cells : Sparse CellBits
  rcd : Rcd
  parked : Sparse (Option Park)
  holder : Option Nat
  owner : Nat
  stopped : Bool
  armed : Option Nat
  bad : List Nat
  held : Bool
  heldAt : Nat
  lastHold : Option Nat
  fenced : Bool
  passed : Nat
  used : List Nat
  rest : List Nat
  deriving DecidableEq, Repr

/-- Zero; owned by world 15 (17 R471). -/
def Quad.reset : Quad := ⟨[], [], [], [], Rcd.zero, [], none, 15, false, none, [], false, 0, none, false, 0, [], []⟩

/-- Accumulators saved at the end of a lease (08 R291), or with a unit at a frame edge, with its command in progress (19
R489), whose command record comes back with it. -/
structure LeaseSave where
  acc : Sparse Word
  sw : Sparse Word
  ww : Sparse Word
  bad : List Nat
  cells : Sparse CellBits
  rcd : Option Rcd
  deriving DecidableEq, Repr

/-- A scan lane that waits for clocks (06 R234, 18 R479): the core that executes it, its kind (0 SCSTOP.cyc, 1 SCSTOP.beat, 2
SCGO), the cycle awaited, the core and the mask it names, whether it may pass. -/
structure ScanOp where
  issuer : Nat
  kind : Nat
  due : Nat
  target : Nat
  mask : Nat
  fired : Bool
  deriving DecidableEq, Repr

/-- A lantern: live quadrants, quadrants, the arbiter's pointer and waiting cores, lease saves by 4 × core + quadrant, waiting scan
lanes, the quadrant that the rotation asks for (08 R290). -/
structure Lantern where
  qlive : Nat
  q : Sparse Quad
  ptr : Nat
  waiting : List Nat
  saves : Sparse (Option LeaseSave)
  lcOwner : Nat
  lcStopped : Bool
  stops : List ScanOp
  rotWant : Option Nat
  deriving DecidableEq, Repr

/-- Every quadrant live (DESIGN CHOICE for the part, log 4). -/
def Lantern.reset : Lantern := ⟨0xF, [], 0, [], [], 15, false, [], none⟩

/-! ### The device -/

/-- An installed key (19 R484): handle, world, identity, send counter (09 R344). -/
structure KeyEntry where
  handle : Nat
  world : Nat
  id : KeyId
  sends : Nat
  deriving DecidableEq, Repr

/-- A world (19 R485): protection, memory key, group key handle, translation root, roster of DEVIDs (R494). -/
structure World where
  prot : Bool
  memKey : KeyId
  memHandle : Nat
  groupKey : Nat
  root : Nat
  roster : List Bytes
  deriving DecidableEq, Repr

/-- A partition (16 R431). -/
structure Part where
  mask : Nat
  home : Nat
  aging : Nat
  deriving DecidableEq, Repr

/-- A completion event waiting for its ring (16 R443). -/
structure Event where
  level : Nat
  status : Nat
  cause : Nat
  count : Nat
  id : Nat
  jobid : Nat
  flags : Nat
  unit : Nat
  addr : Nat
  time : Nat
  deriving DecidableEq, Repr

/-- A queue (16 R432) with its list position and its pending events; `first` is the record that TAIL first named (16 R429). -/
structure Queue where
  enabled : Bool
  prio : Nat
  world : Nat
  msix : Nat
  limit : Nat
  first : Nat
  pos : Nat
  seq : Nat
  events : List Event
  deriving DecidableEq, Repr

/-- Disabled; the limit is 10,000,000 µs (20 R514). -/
def Queue.reset : Queue := ⟨false, 0, 0, 0xFF, 10000000, 0, 0, 0, []⟩

/-- The staged writes of a run (10 R353): bytes, the key of each byte, descriptors; the granules that a write has replaced whole (R361)
and those that an error has poisoned (17 R466). -/
structure Stage where
  mem : Sparse (Option Byte)
  key : Sparse (Option KeyId)
  desc : Sparse (Option Desc)
  whole : Sparse Bool
  bad : Sparse Bool
  deriving DecidableEq, Repr

/-- Nothing staged. -/
def Stage.empty : Stage := ⟨[], [], [], [], []⟩

/-- A stream transfer (16 R437). -/
structure Xfer where
  src : Nat
  len : Nat
  ltn : Nat
  die : Nat
  key : Nat
  resident : Bool
  deriving DecidableEq, Repr

/-- The state of a launch: no unit started, running, failed. -/
inductive LState where
  | waiting | running | failed
  deriving DecidableEq, Repr

/-- One run of a unit that holds or held a core (16 R449). -/
structure Placed where
  idx : Nat
  run : Nat
  core : Nat
  ended : Bool
  deriving DecidableEq, Repr

/-- Memory of the package (10 R351-R361; 20 R501). -/
structure Mem where
  mem : List Host.Cell
  key : Sparse (Option KeyId)
  desc : Sparse Desc
  poison : Sparse Bool
  weak : Sparse Bool
  host : List Host.Cell
  peer : List Host.Cell
  peerDesc : Sparse Desc
  home : Sparse (Option Nat)
  offline : Nat
  deriving DecidableEq, Repr

/-- Nothing listed, nothing moved. -/
def Mem.reset : Mem := ⟨[], [], [], [], [], [], [], [], [], 0⟩

/-- A launch (16 R433). `text` and `args` are virtual line and block addresses; `snap` is device memory as it stood when the
first unit started (05 R156). `ready` is the time it became ready; `replay` the logged cores, `loops` the logged loop-count
blocks (20 R513). `die` is the die whose stream controller took it (16 R436), `freed` the cores that its units
have freed (16 R439); `expired` is the unit and the lane that its event will report, once its snuffer has run out (21 R520, R521). -/
structure Launch where
  lid : Nat
  jobid : Nat
  phase : Nat
  graph : Nat
  node : Nat
  nnodes : Nat
  ngraphs : Nat
  nphases : Nat
  n : Nat
  gang : Bool
  dup : Bool
  log : Bool
  vlanes : Nat
  qcnt : Nat
  text : Nat
  args : Nat
  deps : List Nat
  snuff : Nat
  world : Nat
  part : Nat
  queue : Nat
  ready : Option Nat
  state : LState
  placed : List Placed
  started : Option Nat
  stage0 : Stage
  stage1 : Stage
  unstaged : Bool
  requeues : Nat
  errors : Nat
  mismatch : Bool
  recorded : Bool
  replay : Option (List Nat)
  loops : List (Nat × Nat × Bytes)
  snap : Mem
  die : Nat
  freed : List Nat
  expired : Option (Nat × Nat)
  deriving DecidableEq, Repr

/-- An ember image or region image that the seal knows (17 R473); `lost` holds the saved accumulators of a lease that had ended when a
frame edge saved the unit (19 R489). -/
structure Image where
  id : Nat
  header : Bytes
  len : Nat
  segmap : Nat
  world : Nat
  savecnt : Nat
  vlanes : Nat
  core : Nat
  c : SegC
  a : SegA
  v : SegV
  x : SegX
  w : SegW
  quads : Sparse Quad
  spad : List Host.Cell
  tag : Sparse Desc
  live : Nat
  liveLen : Nat
  lc : Option (Nat × List Nat × Option Nat)
  key : KeyId
  lost : Sparse (Option LeaseSave)
  deriving DecidableEq, Repr

/-- A unit put off its core by a region pre-emption (17 R476): the record, the shadow and the live range with its
descriptors; `region` is none for a unit that restarts from unit start; `full` tells the width of the unit that recorded it. -/
structure Restart where
  core : Nat
  lid : Nat
  idx : Nat
  run : Nat
  world : Nat
  region : Option Nat
  record : Bytes
  shadow : Shadow
  live : Bytes
  tags : List Desc
  everGuarded : Bool
  taken : List Nat
  grans : Sparse Bool
  full : Bool
  deriving DecidableEq, Repr

/-- The silent-error rotation (20 R507); `reports` holds the fault reports that wait for a ring, each with the start of the last passed
test of its core or quadrant. -/
structure Rotation where
  enabled : Bool
  period : Nat
  ring : Nat
  count : Nat
  seq : Nat
  conf : Nat
  reports : List (Nat × Bytes)
  deriving DecidableEq, Repr

/-- Record mode (20 R511). -/
structure RecMode where
  enabled : Bool
  addr : Nat
  len : Nat
  used : Nat
  full : Bool
  deriving DecidableEq, Repr

/-- What the security controller keeps (13 R400; 19 R484-R498). `nullSends` is the send counter of the null key (09 R344,
R345); `bar` the lowest SAVECNT that an image of a created world can have (19 R485). -/
structure Security where
  keys : List KeyEntry
  nullSends : Nat
  worlds : Sparse (Option World)
  saveCnt : Sparse Nat
  floor : Sparse Nat
  bar : Sparse Nat
  unlocked : Nat
  serial : Nat
  reports : Nat
  iv : Nat
  peers : List Bytes
  images : List Image
  fwHash : Bytes
  deriving DecidableEq, Repr

/-- The host port (16 R424, R425). -/
structure Port where
  slices : Sparse (Option (Nat × KeyId))
  bootLen : Nat
  bootErr : Nat
  hostErr : Nat
  lastRead : Bytes
  msix : List Nat
  linkUp : Bool
  deriving DecidableEq, Repr

/-- A level that has ended, with the level that holds it and, for a launch, its node and its units (01 R15, R20). -/
structure Ended where
  level : Nat
  id : Nat
  parent : Nat
  node : Nat
  units : Nat
  ok : Bool
  deriving DecidableEq, Repr

/-- The size of a graph, phase or job as its records give it, and the partition, queue and world of its records (16 R433, R434);
`barred` says that it has been cancelled while a launch of it had expired, whose end closes it (21 R520). -/
structure LevelSize where
  level : Nat
  id : Nat
  size : Nat
  part : Nat
  queue : Nat
  world : Nat
  barred : Bool
  deriving DecidableEq, Repr

/-- A stream transfer in the scoreboard of a die: the launch it feeds, once that is known (16 R436). -/
structure Feed where
  die : Nat
  lid : Option Nat
  x : Xfer
  deriving DecidableEq, Repr

/-- A partition's reset under way (16 R453): the launch whose snuffer expired. -/
structure Snuffed where
  part : Nat
  lid : Nat
  deriving DecidableEq, Repr

/-- What a compute die's sensors last showed (20 R515, R516): average power in mW, hottest junction in 1/16 °C, since when both have
stood below the limits of a step up, and the time of the last step down. -/
structure Sense where
  power : Nat
  temp : Nat
  low : Option Nat
  step : Option Nat
  deriving DecidableEq, Repr

/-- Nothing measured yet. -/
def Sense.reset : Sense := ⟨0, 0, none, none⟩

/-- The device. `sense` holds the sensors of the compute dies (20 R516). `health` holds, by 16 × socket + k, the health record's SEQ (k 0), PASSES (1) and FAILS (2) (20 R515);
`resetting` the partitions whose reset is under way; `evac` the socket that is being evacuated, with the frames poisoned so far (20
R505); `marked`
the levels, with their identifiers, within which a launch event carried PROVISIONAL (21 R522). `now` is device time in
picoseconds; `cyc` holds, by die, the millionths of its cycles that have passed (20 R516, log 6). `saves` holds the units saved at
frame edges by core, slot and world (19 R489). -/
structure Device where
  stateWord : Nat
  powered : Bool
  m : Mem
  sec : Security
  port : Port
  anchor : Nat
  mgmtFirst : Nat
  mgmt : Nat
  parts : Sparse (Option Part)
  queues : Sparse Queue
  launches : List Launch
  ended : List Ended
  marked : List (Nat × Nat)
  sizes : List LevelSize
  board : List Feed
  waiting : List Restart
  saves : Sparse (Option Image)
  rot : Rotation
  recm : RecMode
  clock : Sparse Nat
  throttle : Sparse Nat
  sense : Sparse Sense
  health : Sparse Nat
  resetting : List Snuffed
  evac : Option (Nat × List Nat)
  now : Nat
  cyc : Sparse Nat
  fresh : Nat
  deriving DecidableEq, Repr

/-- The device right after reset: the kindling ROM has mapped slice 0 to the first 1 GiB of socket 8 under the device default key (20
R518). -/
def Device.reset : Device where
  stateWord := 0
  powered := true
  m := Mem.reset
  sec := ⟨[], 0, [], [], [], [], 0, 0, 0, 0, [], [], []⟩
  port := ⟨[(0, some (0x18000000000, .default))], 0, 0, 0, [], [], true⟩
  anchor := 0
  mgmtFirst := 0
  mgmt := 0
  parts := []
  queues := []
  launches := []
  ended := []
  marked := []
  sizes := []
  board := []
  waiting := []
  saves := []
  rot := ⟨true, 8, 0, 0, 0, 0, []⟩
  recm := ⟨false, 0, 0, 0, false⟩
  clock := []
  throttle := []
  sense := []
  health := []
  resetting := []
  evac := none
  now := 0
  cyc := []
  fresh := 0

/-- An error of an on-chip memory (17 R466): one corrected, of a core's own SRAM or of the L2 line that its access found; or one
beyond correction, of a clean L2 line, of a dirty one at a device address, of one that the unit on a core has staged, of the scratchpad,
tag array, queue or register that a lane, the matrix command, the copy command or the stream next at work on a core reads, of an
instruction cache, of anything that world 15 owns. -/
inductive Upset where
  | corrected (core : Nat)
  | cleanLine (core : Nat)
  | dirtyLine (core addr : Nat)
  | stagedLine (core addr : Nat)
  | sram (core : Nat) (e : Engine)
  | matrix (core : Nat)
  | copy (core : Nat)
  | stream (core : Nat) (q : QReg)
  | icache (core : Nat)
  | world15 (core : Nat)
  deriving DecidableEq, Repr

/-- Whose turn is next: an engine of a core, a step of another agent, an error of an on-chip memory, or the passing of time. -/
inductive Turn where
  | lane (core : Nat) (e : Engine)
  | event (i : Instr)
  | upset (u : Upset)
  | tick (cycles : Nat)
  deriving DecidableEq, Repr

/-- The whole machine. `cur` names the core that the lane being executed belongs to; `agenda` the turns laid down for the
agents, a round-robin when it is empty (the model's own, log 6). -/
structure State where
  cur : Nat
  cores : Sparse Core
  lanterns : Sparse Lantern
  dev : Device
  agenda : List Turn
  deriving DecidableEq, Repr

/-- The machine right after reset. -/
def State.reset : State := ⟨0, [], [], Device.reset, []⟩

end Sys2Proof.Machine
end

