-- ==== Sys2Proof/Machine/Ops.lean ====
section
/-! DEFINITION. The named operations that meanings share: how a lane ends, access to the parts of the state, positions in the
dynamic text, registers in text order, latches, taking a trap and returning from one. -/

namespace Sys2Proof.Machine

open Sys2Proof Host

/-- How a lane ends without completing: a trap with TADDR's value and TRAP's code (17 R457); a trap that leaves a changed
state behind it (10 R360); the end of its unit, which no lane follows (16 R449); a wait, which leaves the engine at its lane; a
stop of the machine. -/
inductive Stop where
  | trap (c : Cause) (addr : Word) (code : Nat)
  | trapped (t : State) (c : Cause) (addr : Word)
  | gone (t : State)
  | stall
  | fault (f : Fault)
  deriving DecidableEq, Repr

/-- A computation of a lane. -/
abbrev M (α : Type) := Except Stop α

/-- Raise a cause with TADDR 0. -/
def trap {α : Type} (c : Cause) : M α := .error (.trap c 0 0)

/-- Raise a cause with a faulting address. -/
def trapAt {α : Type} (c : Cause) (a : Word) : M α := .error (.trap c a 0)

/-- Wait. -/
def wait {α : Type} : M α := .error .stall

/-- Go on when the condition holds; raise the cause otherwise. -/
def chk (b : Bool) (c : Cause) : M PUnit := if b then .ok ⟨⟩ else trap c

/-- Go on when the condition holds; raise the cause at an address otherwise. -/
def chkAt (b : Bool) (c : Cause) (a : Word) : M PUnit := if b then .ok ⟨⟩ else trapAt c a

/-- Go on when the condition holds; wait otherwise. -/
def holdUntil (b : Bool) : M PUnit := if b then .ok ⟨⟩ else wait

/-- Exactly `n` bytes: zeros follow what is there, and more than `n` is cut off. -/
def fit (n : Nat) (bs : Bytes) : Bytes := (bs ++ List.replicate n 0).take n

/-! ### AES-256-GCM (09 R344, 13 R400, 19 R493) -/

/-- The keystream over bytes: it encrypts and decrypts. -/
def gcmXor (k : KeyId) (iv : Nat) (bs : Bytes) : Bytes :=
  bs.zipIdx.map fun x => x.1 ^^^ Config.gcmPad k (iv % 2 ^ 96) x.2

/-- The 16 bytes of the tag of a ciphertext. -/
def gcmTag (k : KeyId) (iv : Nat) (aad c : Bytes) : Bytes := (List.range 16).map (Config.gcmTag k (iv % 2 ^ 96) aad c)

/-- Ciphertext and tag: key, IV, additional data, plaintext. -/
def gcmSeal (k : KeyId) (iv : Nat) (aad p : Bytes) : Bytes :=
  let c := gcmXor k iv p
  c ++ gcmTag k iv aad c

/-- The opening: key, IV, additional data, ciphertext with its tag to the plaintext, none when the tag fails. -/
def gcmOpen (k : KeyId) (iv : Nat) (aad ct : Bytes) : Option Bytes :=
  let c := ct.take (ct.length - 16)
  if ct.drop (ct.length - 16) = gcmTag k iv aad c then some (gcmXor k iv c) else none

/-- An RSASSA-PSS signature verifies: one that the device has made under its own identity key does (19 R495), and reports it has
made carry the numbers up to its counter (R496). -/
def State.pssOk (s : State) (modulus msg sig : Bytes) : Bool :=
  Config.pssOk modulus msg sig ||
    (modulus == Config.modulus && (List.range s.dev.sec.reports).any fun n => fit 512 (Config.pssSign (n + 1) msg) == sig)

/-! ### Parts of the state -/

/-- The core in focus. -/
def State.core (s : State) : Core := Sparse.get Core.reset s.cores s.cur

/-- Replace the core in focus. -/
def State.setCore (s : State) (c : Core) : State := { s with cores := Sparse.set Core.reset s.cores s.cur c }

/-- Core number `n`. -/
def State.coreAt (s : State) (n : Nat) : Core := Sparse.get Core.reset s.cores n

/-- Replace core number `n`. -/
def State.setCoreAt (s : State) (n : Nat) (c : Core) : State :=
  { s with cores := Sparse.set Core.reset s.cores n c }

/-- Focus on core number `n`. -/
def State.focus (s : State) (n : Nat) : State := { s with cur := n }

/-- Change the control segment of the core in focus. -/
def State.modC (s : State) (f : SegC → SegC) : State := s.setCore { s.core with c := f s.core.c }
/-- Change the access segment. -/
def State.modA (s : State) (f : SegA → SegA) : State := s.setCore { s.core with a := f s.core.a }
/-- Change the vector segment. -/
def State.modV (s : State) (f : SegV → SegV) : State := s.setCore { s.core with v := f s.core.v }
/-- Change the copy segment. -/
def State.modX (s : State) (f : SegX → SegX) : State := s.setCore { s.core with x := f s.core.x }
/-- Change the walker segment. -/
def State.modW (s : State) (f : SegW → SegW) : State := s.setCore { s.core with w := f s.core.w }
/-- Change what the core holds outside its segments. -/
def State.modSys (s : State) (f : CoreSys → CoreSys) : State := s.setCore { s.core with sys := f s.core.sys }
/-- Change the device. -/
def State.modDev (s : State) (f : Device → Device) : State := { s with dev := f s.dev }
/-- Change the device's memory. -/
def State.modMem (s : State) (f : Mem → Mem) : State := s.modDev fun d => { d with m := f d.m }

/-- The control context of the core in focus. -/
def State.u (s : State) : UnitCtx := s.core.c.u

/-- Replace it. -/
def State.setU (s : State) (u : UnitCtx) : State := s.modC fun c => { c with u := u }

/-- Change the matrix issue engine. -/
def State.modMat (s : State) (f : MatIss → MatIss) : State := s.modC fun c => { c with mat := f c.mat }

/-- Change the sequencer. -/
def State.modSeq (s : State) (f : Seq → Seq) : State := s.modC fun c => { c with seq := f c.seq }

/-- The lantern of the core in focus. -/
def State.lantern (s : State) : Lantern := Sparse.get Lantern.reset s.lanterns (s.cur / 4)

/-- Lantern number `n`. -/
def State.lanternAt (s : State) (n : Nat) : Lantern := Sparse.get Lantern.reset s.lanterns n

/-- Replace lantern number `n`. -/
def State.setLanternAt (s : State) (n : Nat) (l : Lantern) : State :=
  { s with lanterns := Sparse.set Lantern.reset s.lanterns n l }

/-- Replace the lantern of the core in focus. -/
def State.setLantern (s : State) (l : Lantern) : State := s.setLanternAt (s.cur / 4) l

/-- Quadrant `q` of a lantern. -/
def Lantern.quad (l : Lantern) (q : Nat) : Quad := Sparse.get Quad.reset l.q q

/-- Replace quadrant `q`. -/
def Lantern.setQuad (l : Lantern) (q : Nat) (d : Quad) : Lantern := { l with q := Sparse.set Quad.reset l.q q d }

/-- A full vector unit has 64 lanes, a half unit 32 (01 R24). -/
def State.vlanes (s : State) : Nat := if s.core.sys.full then 64 else 32

/-- The next free value's number; the counter moves on (log 7). -/
def State.freshen (s : State) : State := s.modDev fun d => { d with fresh := d.fresh + 1 }

/-- An access that goes through the cover map waits while W is stopped or shifting in (17 R470, 02 R74). -/
def State.walkerRuns (s : State) (ovr : Bool) : M PUnit := holdUntil (!ovr || (s.core.sys.stopped ||| s.core.sys.shifting) / 16 % 2 == 0)

/-! ### Positions in the dynamic text -/

/-- An engine's program counter. -/
def UnitCtx.eng (u : UnitCtx) : Engine → EngPos
  | .c => u.eC | .a => u.eA | .v => u.eV | .m => u.eM | .x => u.eX

/-- Replace it. -/
def UnitCtx.setEng (u : UnitCtx) (e : Engine) (p : EngPos) : UnitCtx :=
  match e with
  | .c => { u with eC := p } | .a => { u with eA := p } | .v => { u with eV := p }
  | .m => { u with eM := p } | .x => { u with eX := p }

/-- A lane instance's place in text order. -/
def EngPos.pos (p : EngPos) : Nat := p.serial * 8 + p.lane

/-- The line instance with a serial number, when it is still held. -/
def UnitCtx.line? (u : UnitCtx) (n : Nat) : Option LineInst := if n < u.base then none else u.text[n - u.base]?

/-- A line outside the known text. -/
def LineInst.none : LineInst := ⟨0, 8, false, 0, Option.none, true, Option.none⟩

/-- The line an engine stands in. -/
def UnitCtx.curLine (u : UnitCtx) (e : Engine) : LineInst := (u.line? (u.eng e).serial).getD LineInst.none

/-- The byte address of the line an engine stands in (01 R26). -/
def State.lineAddr (s : State) (e : Engine) : Nat := (s.u.curLine e).addr

/-- The byte address of the lane an engine stands at (01 R26). -/
def State.laneAddr (s : State) (e : Engine) : Nat := s.lineAddr e + 4 * (s.u.eng e).lane

/-- The lane an engine stands at, as a report names it, with i0 to i5 (14 R406). -/
def State.laneAt (s : State) (e : Engine) : LaneAt :=
  ⟨s.laneAddr e, ((s.u.eng e).idx ++ List.replicate 6 0).take 6, ((s.u.curLine e).iter.bind fun i => i.ovr).isSome,
   (s.u.eng e).pos⟩

/-- The engine goes on after its lane (01 R28). -/
def State.advance (s : State) (e : Engine) : State :=
  let p := s.u.eng e
  s.setU (s.u.setEng e { p with lane := p.lane + 1 })

/-- The engine has executed END (01 R36). -/
def State.endEngine (s : State) (e : Engine) : State :=
  let p := s.u.eng e
  s.setU (s.u.setEng e { p with ended := true })

/-! ### Registers in text order (01 R32) -/

/-- The effect of one write. -/
def Shared.apply (sh : Shared) : SharedWrite → Shared
  | .xg i v => { sh with xg := Sparse.set 0 sh.xg i v }
  | .xf i v => { sh with xf := Sparse.set 0 sh.xf i v }
  | .win wb frame => { sh with wb := wb, frame := frame }
  | .th i v => { sh with th := Sparse.set 0 sh.th i v }
  | .sh i v => { sh with sh := Sparse.set Shape.zero sh.sh i v }
  | .ts i v => { sh with ts := Sparse.set none sh.ts i v }
  | .cb i v => { sh with cb := Sparse.set none sh.cb i v }
  | .slip n => { sh with slip := n }
  | .vsp n => { sh with vsp := n }
  | .ovwran v => { sh with ovwran := v }
  | .stick bits => { sh with status := sh.status ||| bits }
  | .status v => { sh with status := v }
  | .park _ => sh

/-- The registers as a lane at place `p` sees them: the writes of the lanes before it, and no later one. -/
def UnitCtx.view (u : UnitCtx) (p : Nat) : Shared :=
  u.log.foldl (fun sh e => if e.1 < p then sh.apply e.2 else sh) u.sh

/-- Put a write in its place of the text order. -/
def logInsert (p : Nat) (w : SharedWrite) : List (Nat × SharedWrite) → List (Nat × SharedWrite)
  | [] => [(p, w)]
  | e :: l => if p < e.1 then (p, w) :: e :: l else e :: logInsert p w l

/-- The registers as engine `e` sees them at its lane. -/
def State.view (s : State) (e : Engine) : Shared := s.u.view (s.u.eng e).pos

/-- A write by the lane engine `e` stands at. -/
def State.write (s : State) (e : Engine) (w : SharedWrite) : State :=
  s.setU { s.u with log := logInsert (s.u.eng e).pos w s.u.log }

/-- Act as the lane of engine `e` at place `p` of the text does, with the engine back where it stands afterwards. -/
def State.atPlace (s : State) (e : Engine) (p : Nat) (f : State → State) : State :=
  let q := s.u.eng e
  let t := f (s.setU (s.u.setEng e { q with serial := p / 8, lane := p % 8 }))
  t.setU (t.u.setEng e q)

/-- The lowest place an engine that has not ended stands at. -/
def UnitCtx.horizon (u : UnitCtx) : Nat :=
  [Engine.c, .a, .v, .m, .x].foldl (fun m e => if (u.eng e).ended then m else min m (u.eng e).pos)
    ((u.base + u.text.length) * 8)

/-- Writes that every engine has passed enter the registers; nothing a lane can read changes. -/
def UnitCtx.settle (u : UnitCtx) : UnitCtx :=
  { u with sh := u.view u.horizon, log := u.log.filter fun e => !(decide (e.1 < u.horizon)) }

/-- Everything written, whoever reads: the registers after the last lane executed. -/
def UnitCtx.latest (u : UnitCtx) : Shared := u.log.foldl (fun sh e => sh.apply e.2) u.sh

/-- The physical entry that xi names in a window, for i from 8 (02 R46). -/
def Shared.entry (sh : Shared) (i : Nat) : Nat := (sh.wb.toNat + i - 8) % 256

/-- The value of xi (02 R46). -/
def Shared.x (sh : Shared) (i : Nat) : Word :=
  if i = 0 then 0 else if i < 8 then Sparse.get 0 sh.xg i else Sparse.get 0 sh.xf (sh.entry i)

/-- The write of xi; x0 discards it (02 R46). -/
def Shared.xWrite (sh : Shared) (i : Nat) (v : Word) : Option SharedWrite :=
  if i = 0 then none else if i < 8 then some (.xg i v) else some (.xf (sh.entry i) v)

/-- Whether a name lies inside the reserved frame (02 R48). -/
def Shared.inFrame (sh : Shared) (i : Nat) : Bool := decide (i < 8 + sh.frame)

/-- A handle (02 R51). -/
def Shared.handle (sh : Shared) (i : Nat) : BitVec 256 := Sparse.get 0 sh.th i
/-- A shape register (02 R52). -/
def Shared.shape (sh : Shared) (i : Nat) : Shape := Sparse.get Shape.zero sh.sh i
/-- A tile slot's binding (02 R63). -/
def Shared.tile (sh : Shared) (i : Nat) : Option Tile := Sparse.get none sh.ts i
/-- A circular buffer's binding (02 R64). -/
def Shared.buf (sh : Shared) (i : Nat) : Option Buf := Sparse.get none sh.cb i

/-- A register write by the lane engine `e` stands at, x0 discarded. -/
def State.writeX (s : State) (e : Engine) (i : Nat) (v : Word) : State :=
  match (s.view e).xWrite i v with
  | some w => s.write e w
  | none => s

/-! ### Latches (05 R170) -/

/-- A result enters b0; the others move on and the last is lost. -/
def pushLatch {α : Type} (l : List α) (v : α) : List α := (v :: l).take 4

/-- A group switch empties an engine's latches (05 R171). -/
def State.emptyLatches (s : State) : Engine → State
  | .c => s.setU { s.u with latC := [] }
  | .a => s.modA fun a => { a with lat := [] }
  | .v => s.modV fun v => { v with lat := [] }
  | .m => s
  | .x => s

/-- A group switch for every engine. -/
def State.groupSwitch (s : State) : State := ((s.emptyLatches .c).emptyLatches .a).emptyLatches .v

/-- A control lane's result: rd and the control engine's b0 (06 R187). -/
def State.setRd (s : State) (rd : CReg) (v : Word) : State :=
  let t := s.writeX .c rd.toNat v
  t.setU { t.u with latC := pushLatch t.u.latC v }

/-! ### Flags and tokens (02 R65, R66) -/

/-- A counting flag. -/
def State.flag (s : State) (f : Nat) : Nat := Sparse.get 0 s.core.c.f f
/-- Set a counting flag. -/
def State.setFlag (s : State) (f n : Nat) : State := s.modC fun c => { c with f := Sparse.set 0 c.f f n }
/-- A token. -/
def State.token (s : State) (k : Nat) : Nat := Sparse.get 0 s.core.c.k k
/-- Set a token. -/
def State.setToken (s : State) (k n : Nat) : State := s.modC fun c => { c with k := Sparse.set 0 c.k k n }

/-- A command that names a token raises it; it waits while the token stands at 63 (02 R65). -/
def State.raiseToken (s : State) : Tok → M State
  | none => .ok s
  | some k => if s.token k.toNat < 63 then .ok (s.setToken k.toNat (s.token k.toNat + 1)) else wait

/-- A completing command lowers its token (02 R65). -/
def State.lowerToken (s : State) : Tok → State
  | none => s
  | some k => s.setToken k.toNat (s.token k.toNat - 1)

/-- Change the tenant unit's context, which a running handler has set aside (17 R456). -/
def State.modUnit (s : State) (f : UnitCtx → UnitCtx) : State :=
  match s.core.sys.saved with
  | some u => s.modSys fun y => { y with saved := some (f u) }
  | none => s.setU (f s.u)

/-- Set sticky bits of STATUS (02 R76): the lane engine `e` stands at sets them at its place of the text, a command, for which
`e` is none, before the control engine's next lane (log 98). -/
def State.stick (s : State) (e : Option Engine) (bits : Word) : State :=
  match e with
  | some e => s.write e (.stick bits)
  | none => s.modUnit fun u => { u with log := logInsert (u.eC.pos - 1) (.stick bits) u.log }

/-- A flag is raised by a lane of engine `e` or, for none, by a completing command; it saturates (05 R179, 06 R209). -/
def State.incFlag (s : State) (e : Option Engine) (f n : Nat) : State :=
  let v := s.flag f + n
  if v > 0xFFFFFFFF then (s.setFlag f 0xFFFFFFFF).stick e 2 else s.setFlag f v

/-- ERRCNT with one more correction, saturating (17 R457). -/
def countCorr (e : Word) : Word := if e.toNat % 2 ^ 32 = 2 ^ 32 - 1 then e else e + 1

/-- ERRCNT with one more uncorrectable error. -/
def countUncorr (e : Word) : Word := if e.toNat / 2 ^ 32 = 2 ^ 32 - 1 then e else e + 0x100000000

/-- A correction freezes a core for 24 cycles and counts (08 R307, 17 R466). -/
def State.noteCorrection (s : State) (core : Nat) : State :=
  let c := s.coreAt core
  s.setCoreAt core { c with sys := { c.sys with freeze := c.sys.freeze + 24,
                                                tr := { c.sys.tr with errcnt := countCorr c.sys.tr.errcnt } } }

/-- An uncorrectable error that the core in focus consumes (17 R466). -/
def State.noteUncorr (s : State) : State :=
  s.modSys fun y => { y with tr := { y.tr with errcnt := countUncorr y.tr.errcnt } }

/-- Frames in the return-address store and its spill area: the callers. -/
def UnitCtx.depth (u : UnitCtx) : Nat := u.rdepth + u.rspill

/-! ### Cycles (20 R516) -/

/-- The die of a core; the lamplighter of die d is core 512 + d (01 R14). -/
def dieOf (core : Nat) : Nat := if core < 512 then core / 64 else core - 512

/-- Cycles that a die has counted. -/
def State.cycOn (s : State) (die : Nat) : Nat := Sparse.get 0 s.dev.cyc die / 1000000

/-- Those of a core's die. -/
def State.cycOf (s : State) (n : Nat) : Nat := s.cycOn (dieOf n)

/-- Those of the core in focus. -/
def State.cyc (s : State) : Nat := s.cycOf s.cur

/-! ### Traps (17 R455-R462) -/

/-- Whether the core in focus runs its firmware handler (17 R456). -/
def State.handling (s : State) : Bool := s.core.sys.saved.isSome

/-- Units of world 15 are privileged (06 R188). -/
def State.privileged (s : State) : Bool := s.u.world == 15

/-- A device-level fault: every engine stops, launches that had not completed are discarded, the state word becomes 2
(17 R462, 16 R454). -/
def State.deviceFault (s : State) : State :=
  s.modDev fun d => { d with stateWord := 2, launches := [], waiting := [], board := [] }

/-- The ENGINE field (17 R457). -/
def engineCode : Engine → Nat
  | .c => 1 | .a => 2 | .v => 3 | .m => 4 | .x => 5

/-- TREP (17 R457). -/
def trepWord (e : Engine) (c : Cause) (code : Nat) (precise : Bool) : Word :=
  BitVec.ofNat 64 (c.code + code * 2 ^ 10 + engineCode e * 2 ^ 17 + (if precise then 2 ^ 20 else 0))

/-- The TITER registers: index n+1 above index n (17 R457). -/
def titerWord (it : List Nat) (n : Nat) : Word := BitVec.ofNat 64 (it.getD n 0 + it.getD (n + 1) 0 * 2 ^ 32)

/-- The handler's context on entry: the firmware register set, the control engine at TVEC's line, no lane of another engine
(17 R456; log 15). -/
def UnitCtx.handlerAt (fw : UnitCtx) (tvec : Word) : UnitCtx :=
  { fw with sh := fw.latest, log := [], text := [], base := 0,
            front := .line (tvec.toNat / 32 % 2 ^ 51 * 32) false none, latC := [],
            eC := EngPos.start, eA := { EngPos.start with ended := true }, eV := { EngPos.start with ended := true },
            eM := { EngPos.start with ended := true }, eX := { EngPos.start with ended := true },
            world := 15, lid := none, callPending := false }

/-- Causes that report an uncorrectable error (17 R455, R466). -/
def reportsError (c : Cause) : Bool :=
  c == .uncorrectableStore || c == .poisonConsumed || c == .accumulatorUncorrectable || c == .sramUncorrectable

/-- The error behind a cause is counted where it is consumed (17 R466). -/
def State.countTrap (s : State) (c : Cause) : State := if reportsError c then s.noteUncorr else s

/-- Whether a trap is precise: every control lane's, except with the uncorrectable-store cause (06 R186, 17 R458). -/
def precise (e : Engine) (c : Cause) : Bool := e == .c && c != .uncorrectableStore

/-- The report registers of a trap (17 R457). PRECISE follows R458, for frame-bounds too (log 97). -/
def TrapRegs.report (tr : TrapRegs) (e : Engine) (c : Cause) (addr : Word) (code : Nat) (at' : LaneAt) : TrapRegs :=
  { tr with trep := trepWord e c code (precise e c), tlane := BitVec.ofNat 64 (at'.addr % 2 ^ 56), taddr := addr,
            titer0 := titerWord at'.iter 0, titer1 := titerWord at'.iter 2, titer2 := titerWord at'.iter 4 }

/-- A trap is delivered: the report registers, then the firmware handler at TVEC with the interrupted unit kept, its latches
emptied and its control engine's FWAIT, if it stood at one, waiting no more; a trap of world 15 is a
device-level fault (17 R456-R462). -/
def State.deliver (s : State) (e : Engine) (c : Cause) (addr : Word) (code : Nat) (at' : LaneAt) : State :=
  if s.privileged then s.deviceFault
  else
    let t := s.groupSwitch
    let tr' := t.core.sys.tr.report e c addr code at'
    let cyc := match s.core.c.pend with | some r => r.cyc | none => s.cyc
    let t := t.modSys fun y => { y with tr := tr', saved := some t.u, raised := (cyc, at'.place) }
    (t.setU (t.core.sys.fw.handlerAt tr'.tvec)).modC fun c =>
      { c with pend := none, waits := c.waits.filter fun w => w.engine != .c }

/-- TAKING AN EXCEPTION: a lane's trap is counted where it reports an uncorrectable error, and delivered. -/
def State.takeTrap (s : State) (e : Engine) (c : Cause) (addr : Word) (code : Nat) (at' : LaneAt) : State :=
  (s.countTrap c).deliver e c addr code at'

/-- A contained trap of a command waits for its delivery; the first one stands, of several in one cycle the one that is earliest
in the text (17 R456, R459). -/
def State.pendTrap (s : State) (e : Engine) (c : Cause) (addr : Word) (at' : LaneAt) : State :=
  let t := s.countTrap c
  let put := t.modC fun x => { x with pend := some ⟨e, c, at', addr, s.cyc⟩ }
  match s.core.c.pend with
  | some r => if r.cyc = s.cyc ∧ at'.place < r.lane.place then put else t
  | none => put

/-- The walker goes on after what it reported: past a FOOT or FOOTV lane that trapped (14 R414), or past the check of a line. -/
def State.walkerNext (s : State) : State :=
  let at' := s.core.sys.tr.tlane.toNat
  s.modW fun w => { w with walk :=
    if at' % 32 = 0 then
      { w.walk with checked := (at' / 32 - (match s.core.c.seq.loop with | some l => l.line / 32 + 1 | none => 0)) :: w.walk.checked }
    else { w.walk with seen := w.walk.seen + 1 } }

/-- Where a unit goes on when RESNEXT is set: after the reported lane. Lane 0 names a line, whose check is then passed over (05
R184). -/
def State.resumeNext (s : State) : State :=
  if s.core.w.walk.trapped then s.walkerNext
  else if s.core.sys.tr.tlane.toNat % 32 = 0 then
    if s.lineAddr .c = s.core.sys.tr.tlane.toNat then
      s.setU { s.u with text := s.u.text.modify (s.u.eC.serial - s.u.base) fun l => { l with checked := true } }
    else s
  else s.advance .c

/-- RETURNING FROM THE HANDLER: the unit goes on at the reported lane, or at the lane after it when RESNEXT is set; a group
switch (06 R199, 17 R460). Without a precise trap it is a device-level fault. -/
def State.returnTrap (s : State) : State :=
  match s.core.sys.saved with
  | none => s.deviceFault
  | some u =>
    if s.core.sys.tr.trep.getLsbD 20 then
      let t := (s.modSys fun y => { y with saved := none, fw := s.u }).setU u
      let t := if s.core.sys.tr.trep.getLsbD 21 then t.resumeNext else t
      (t.modW fun w => { w with walk := { w.walk with trapped := false } }).groupSwitch
    else s.deviceFault

/-! ### How a lane's computation becomes a step -/

/-- A lane of engine `e`: it completes and the engine goes on after it, waits where it is, takes its trap, or stops the
machine. -/
def lane (e : Engine) (s : State) (b : M State) : Outcome State Fault Refusal :=
  match b with
  | .ok t => .next (t.advance e)
  | .error .stall => .next s
  | .error (.trap c a k) => .next (s.takeTrap e c a k (s.laneAt e))
  | .error (.trapped t c a) => .next (t.takeTrap e c a 0 (s.laneAt e))
  | .error (.gone t) => .next t
  | .error (.fault f) => .fault f

/-- A control transfer: the lanes after it in its line are not executed and every engine continues at the target, a group
switch (01 R35, 05 R171); `held` holds the target line's words, which the transfer has fetched (17 R465). A loop that the line has set up is abandoned
(DEDUCED, log 142). -/
def State.jump (s : State) (target : Nat) (held : Option (List Nat)) : State :=
  let u := s.u
  let i := u.eC.serial - u.base
  let ln := u.curLine .c
  s.setU { u with text := (u.text.take i) ++ [{ ln with lim := u.eC.lane + 1 }],
                  front := .line target true held }

/-- A step of another agent: it completes, or stops the machine. A wait leaves the state as it is; traps of agents are put
on record by the agents themselves. -/
def event (s : State) (b : M State) : Outcome State Fault Refusal :=
  match b with
  | .ok t => .next t
  | .error (.fault f) => .fault f
  | .error (.gone t) => .next t
  | .error _ => .next s

end Sys2Proof.Machine
end

