-- ==== Sys2Proof/Machine/Flags.lean ====
section
/-! DEFINITION. Flag computations: the conditions of CMP, BC and VCMP, the sticky bits of STATUS, FFLAGSV and FFLAGSM. -/

namespace Sys2Proof.Machine

open Sys2Proof

/-- The conditions of CMP and BC (05 R174). -/
def condHolds (c : Cond) (a b : Word) : Bool :=
  match c with
  | .eq => a == b
  | .ne => a != b
  | .lt => a.slt b
  | .ge => !a.slt b
  | .ltu => a.ult b
  | .geu => !a.ult b

/-- STATUS.IOVF: an integer accumulator wrapped (02 R76). -/
def stIOVF : Word := 1
/-- STATUS.FSAT: a counting flag saturated. -/
def stFSAT : Word := 2
/-- STATUS.BADCODE: an illegal TERN5 byte was decoded. -/
def stBADCODE : Word := 4
/-- STATUS.GATED_READ: a dead register was read. -/
def stGATED : Word := 8

/-- Set bits of FFLAGSV (03 R114, R115). -/
def State.raiseFv (s : State) (f : Nat) : State :=
  s.modC fun c => { c with csr := { c.csr with fv := c.csr.fv ||| BitVec.ofNat 64 f } }

/-- Set bits of FFLAGSM. -/
def State.raiseFm (s : State) (f : Nat) : State :=
  s.modC fun c => { c with csr := { c.csr with fm := c.csr.fm ||| BitVec.ofNat 64 f } }

/-- A condition of VCMP on two patterns: whether it holds, and the flags (07 R269). -/
def vcmpHolds (cond c a b : Nat) : Bool × Nat :=
  if fmtI c then
    let x := intOf c a
    let y := intOf c b
    (match cond with
      | 0 => decide (x = y) | 1 => decide (x ≠ y) | 2 => decide (x < y) | 3 => decide (x ≤ y)
      | 4 => decide (x > y) | 5 => decide (x ≥ y) | _ => false, 0)
  else
    let x := floatOf c a
    let y := floatOf c b
    let nan := x.isNan || y.isNan
    let o := Val.cmp x y
    let nv := if x.signals || y.signals || (nan && decide (2 ≤ cond ∧ cond ≤ 5)) then flNV else 0
    (if nan then cond == 1 || cond == 6
      else match cond with
        | 0 => decide (o = 0) | 1 => decide (o ≠ 0) | 2 => decide (o < 0) | 3 => decide (o ≤ 0)
        | 4 => decide (o > 0) | 5 => decide (o ≥ 0) | _ => false, nv)

end Sys2Proof.Machine
end

