-- ==== Sys2Proof/Machine/Arbiter.lean ====
section
/-! DEFINITION. Quadrants (08 R276, R306; 07 R273), and the lantern's arbiter, which grants leases and the rotation's holds (08
R289-R291; 20 R508). -/

namespace Sys2Proof.Machine

open Sys2Proof Host

/-! ### Masks -/

/-- Whether a mask names a quadrant. -/
def hasQuad (mask q : Nat) : Bool := mask / 2 ^ q % 2 == 1

/-- The quadrants of a lease. -/
def leaseQuads (mask : Nat) : List Nat := (List.range 4).filter (hasQuad mask)

/-- Live quadrants that rotation has not fenced (01 R25, 20 R503). -/
def Lantern.live (l : Lantern) : Nat :=
  (List.range 4).foldl (fun m q => if hasQuad l.qlive q && !(l.quad q).fenced then m + 2 ^ q else m) 0

/-- The quadrants of a mask. -/
def quadCount (m : Nat) : Nat := (leaseQuads m).length

/-! ### Quadrants -/

/-- Whether a quadrant row holds a parked register (07 R273). -/
def Quad.rowParked (d : Quad) (r : Nat) : Bool :=
  (List.range 4).any fun i => (Sparse.get none d.parked (4 * r + i)).isSome

/-- Zero accumulators and check words outside parked rows (08 R289, 19 R489, 20 R508). -/
def Quad.clearAcc (d : Quad) : Quad :=
  { d with acc := d.acc.filter fun c => d.rowParked (c.1 / 128), sw := d.sw.filter fun c => d.rowParked c.1,
           ww := d.ww.filter fun c => d.rowParked c.1 }

/-- Set an accumulator pattern; the row's check words follow (08 R306). -/
def Quad.setAcc (d : Quad) (r c : Nat) (v : Word) : Quad :=
  let old := Sparse.get 0 d.acc (128 * r + c)
  { d with acc := Sparse.set 0 d.acc (128 * r + c) v,
           sw := Sparse.set 0 d.sw r (Sparse.get 0 d.sw r + (v - old)),
           ww := Sparse.set 0 d.ww r (Sparse.get 0 d.ww r + BitVec.ofNat 64 (c + 1) * (v - old)) }

/-- Set a run of cells of a row. -/
def Quad.setRun (d : Quad) (r c : Nat) : List Word → Quad
  | [] => d
  | v :: vs => (d.setAcc r c v).setRun r (c + 1) vs

/-- Free a parked slot: its 32 cells become zero, with the row's check words (07 R274; DESIGN CHOICE, log 143). -/
def Quad.unpark (d : Quad) (r i : Nat) : Quad :=
  let d := d.setRun r (32 * i) (List.replicate 32 0)
  { d with parked := Sparse.set none d.parked (4 * r + i) none }

/-- Whether a parked register belongs to the unit of a context on a core of the lantern (19 R491). -/
def Park.isOf (p : Park) (core : Nat) (u : UnitCtx) : Bool :=
  p.core == core && p.lid == u.lid && p.idx == u.idx && p.run == u.run

/-- The unit on a core, whether or not its handler runs. -/
def Core.unit (c : Core) : UnitCtx := match c.sys.saved with | some u => u | none => c.c.u

/-- Free every row that a unit has parked (01 R40, 02 R67). -/
def Quad.unparkAll (d : Quad) (core : Nat) (u : UnitCtx) : Quad :=
  (List.range 512).foldl (fun d k => match Sparse.get none d.parked k with
    | some p => if p.isOf core u then d.unpark (k / 4) (k % 4) else d
    | none => d) d

/-- Release a quadrant that a core holds: its accumulators are discarded, and the command record keeps its fields (08 R294, 17
R468). A quadrant armed for a beat of a command that ends so stops (06 R234). -/
def Quad.release (d : Quad) (core : Nat) : Quad :=
  if d.holder = some core then
    { d.clearAcc with holder := none, cells := [], rcd := { d.rcd with active := false }, bad := [],
                      stopped := d.stopped || d.armed.isSome, armed := none }
  else d

/-- A quadrant that a core holds stops when it is armed for a beat of a command that ends now (06 R234). -/
def Quad.stopNow (d : Quad) (core : Nat) : Quad :=
  if d.holder = some core then { d with stopped := d.stopped || d.armed.isSome, armed := none } else d

/-- Change every quadrant of a lantern. -/
def Lantern.mapQuads (l : Lantern) (f : Nat → Quad → Quad) : Lantern :=
  (List.range 4).foldl (fun l q => l.setQuad q (f q (l.quad q))) l

/-- Quadrants that a core holds, in a mask or outside it. -/
def Lantern.heldBy (l : Lantern) (core mask : Nat) (inside : Bool) : List Nat :=
  (List.range 4).filter fun q => (l.quad q).holder == some core && hasQuad mask q == inside

/-- A core's lease of quadrants ends (08 R294), unless one of them is stopped: it then ends when the last of them is started (18
R482; log 136). -/
def Lantern.endLease (l : Lantern) (core : Nat) (qs : List Nat) : Lantern :=
  let l := qs.foldl (fun (l : Lantern) q => l.setQuad q ((l.quad q).stopNow core)) l
  if qs.any fun q => (l.quad q).stopped then l
  else qs.foldl (fun (l : Lantern) q => l.setQuad q ((l.quad q).release core)) l

/-- Release a core's lease with its saved copies (08 R294). -/
def Lantern.releaseLease (l : Lantern) (core lease : Nat) : Lantern :=
  let l := l.endLease core (l.heldBy core lease true)
  { l with waiting := l.waiting.filter fun c => c != core,
           saves := l.saves.filter fun x => x.1 / 4 != core }

/-! ### The command in progress (17 R468, R479) -/

/-- The record of the product in progress of the core in focus. -/
def State.product (s : State) : Option Rcd :=
  (leaseQuads s.core.c.mat.lease).findSome? fun q =>
    let d := s.lantern.quad q
    if d.holder = some (s.cur % 4) ∧ d.rcd.active = true then some d.rcd else none

/-- Some quadrant of the lease has its clock stopped. -/
def State.quadStopped (s : State) : Bool :=
  (leaseQuads s.core.c.mat.lease).any fun q => (s.lantern.quad q).holder == some (s.cur % 4) && (s.lantern.quad q).stopped

/-- No matrix command of the unit is queued or in progress. -/
def State.matIdle (s : State) : Bool := s.core.c.mat.mq.isEmpty && s.core.c.mat.cur.isNone && s.product.isNone

/-! ### The arbiter (08 R289-R291) -/

/-- The quadrants a core waits for. -/
def MatIss.wanted (m : MatIss) : Nat := if m.want ≠ 0 then m.want else m.lease

/-- The quadrants of a mask are free, not held by the rotation and not reserved. -/
def Lantern.grantable (l : Lantern) (mask reserved : Nat) : Bool :=
  (leaseQuads mask).all fun q => (l.quad q).holder.isNone && !(l.quad q).held && !hasQuad reserved q

/-- A launch has a unit on a core since the core's last passed test (20 R510). -/
def Core.use (c : Core) (lid : Nat) : Core :=
  { c with sys := { c.sys with used := if c.sys.used.contains lid then c.sys.used else c.sys.used ++ [lid] } }

/-- A launch uses a quadrant since its last passed test (20 R510). -/
def Quad.use (d : Quad) (lid : Option Nat) : Quad :=
  match lid with
  | some i => if d.used.contains i then d else { d with used := d.used ++ [i] }
  | none => d

/-- A quadrant as a grant leaves it: zero, or with the holder's saved accumulators in the rows that nothing has been parked in
since; its owner is the unit's world (08 R289, R291; 17 R471). -/
def Quad.granted (d : Quad) (core : Nat) (u : UnitCtx) (save : Option LeaseSave) : Quad :=
  let d := { (d.use u.lid).clearAcc with
    holder := some core, owner := u.world, cells := [], rcd := { d.rcd with active := false }, bad := [] }
  match save with
  | none => d
  | some v =>
    let free (r : Nat) : Bool := !d.rowParked r
    { d with acc := (v.acc.filter fun c => free (c.1 / 128)).foldl (fun m c => Sparse.set 0 m c.1 c.2) d.acc,
             sw := (v.sw.filter fun c => free c.1).foldl (fun m c => Sparse.set 0 m c.1 c.2) d.sw,
             ww := (v.ww.filter fun c => free c.1).foldl (fun m c => Sparse.set 0 m c.1 c.2) d.ww,
             bad := v.bad.filter free, cells := v.cells.filter fun c => free (c.1 / 128), rcd := v.rcd.getD d.rcd }

/-- Grant a mask to core `c` of a lantern. -/
def State.grantLease (s : State) (ltn c mask : Nat) : State :=
  let n := 4 * ltn + c
  let k := s.coreAt n
  let l := s.lanternAt ltn
  let l1 := (leaseQuads mask).foldl (fun (l : Lantern) q =>
    let save := if k.c.mat.lost then Sparse.get none l.saves (4 * c + q) else none
    l.setQuad q ((l.quad q).granted c k.unit save)) l
  let l2 : Lantern := { l1 with waiting := l1.waiting.filter fun x => x != c,
                                saves := l1.saves.filter fun x => x.1 / 4 != c, ptr := (c + 1) % 4 }
  let mat : MatIss := { k.c.mat with lease := mask, lost := false, cmds := 0, start := s.cycOf n }
  (s.setLanternAt ltn l2).setCoreAt n { k with c := { k.c with mat := mat } }

/-- The rotation is examined after core 3: it takes the quadrant it asks for, or reserves it; the pointer stays (20 R508). -/
def State.examineRot (ltn : Nat) (p : State × Nat) : State × Nat :=
  let l := p.1.lanternAt ltn
  match l.rotWant with
  | none => p
  | some q =>
    let d := l.quad q
    if d.holder.isNone && !d.held && !d.stopped && !hasQuad p.2 q then
      (p.1.setLanternAt ltn (l.setQuad q { d with held := true, heldAt := p.1.cycOn (ltn / 16), lastHold := some p.1.dev.now }), p.2)
    else (p.1, p.2 ||| 2 ^ q)

/-- The arbiter examines a waiting requester, number 4 being the rotation: it grants, or reserves. -/
def State.examine (ltn : Nat) (p : State × Nat) (c : Nat) : State × Nat :=
  let l := p.1.lanternAt ltn
  if c = 4 then State.examineRot ltn p
  else if l.waiting.contains c then
    let mask := (p.1.coreAt (4 * ltn + c)).c.mat.wanted
    if l.grantable mask p.2 then (p.1.grantLease ltn c mask, p.2) else (p.1, p.2 ||| mask)
  else p

/-- One pass of a lantern's arbiter; none while LC is stopped (17 R471). -/
def State.arbiterPass (s : State) (ltn : Nat) : State :=
  let l := s.lanternAt ltn
  if l.lcStopped then s
  else
    let order := (([0, 1, 2, 3].map fun i => (l.ptr + i) % 4).flatMap fun c => if c = 3 then [3, 4] else [c])
    (order.foldl (State.examine ltn) (s, 0)).1

/-- The rotation's hold of a quadrant ends: zero outside parked rows, free again (20 R508). -/
def Quad.tested (d : Quad) : Quad := { d.clearAcc with held := false, cells := [], rcd := Rcd.zero, bad := [] }

/-- The test of a held quadrant passes, having begun with the hold (20 R509). The rows where registers are parked are left out, and the
launches that parked them still count. -/
def Quad.passes (d : Quad) : Quad :=
  let d := d.tested
  { d with passed := d.lastHold.getD d.passed, used := (d.parked.filterMap fun x => x.2.bind Park.lid).eraseDups,
           rest := (List.range 128).filter d.rowParked }

/-- Add to a field of a socket's health counters. -/
def State.addHealth (s : State) (socket k n : Nat) : State :=
  let i := 16 * socket + k
  s.modDev fun d => { d with health := Sparse.set 0 d.health i (Sparse.get 0 d.health i + n) }

/-- A quadrant's hold of the rotation has lasted 8,192 cycles. -/
def Quad.overdue (d : Quad) (cyc : Nat) : Bool := d.held && decide (d.heldAt + 8192 ≤ cyc)

end Sys2Proof.Machine
end

