-- ==== Sys2Proof/Machine/Launch.lean ====
section
/-! DEFINITION. Launches, their levels and events (01 R15-R20; 16 R443-R453), and clearing a core and the quadrants it holds
(02 R82, 01 R40). Dispatch, placement and commit stand in Sched. -/

namespace Sys2Proof.Machine

open Sys2Proof Host

/-- The state of a core as 02 R82 gives it, with what outlives a unit: control registers the unit cannot write, generator
states (which a start seeds), and what stands outside its segments. -/
def Core.clear (c : Core) : Core :=
  { c with
    c := { SegC.reset with csr := { c.c.csr with fv := 0, fm := 0 }, mat := { MatIss.reset with qgen := c.c.mat.qgen } }
    a := SegA.reset
    v := { SegV.reset with gen := c.v.gen }
    x := SegX.reset
    w := SegW.reset
    spad := c.spad.filter fun p => decide (0x1F0000 ≤ p.1)
    tag := c.tag.filter fun p => decide (0x7C00 ≤ p.1)
    sys := { c.sys with saved := none } }

/-- End the unit on core `n`: its lease and its parked rows are freed, the core is cleared (01 R40), and the arbiter runs (08
R290). -/
def State.clearCore (s : State) (n : Nat) : State :=
  let u := (s.coreAt n).unit
  let lease := (s.coreAt n).c.mat.lease
  let t := s.setCoreAt n (s.coreAt n).clear
  if n < 512 then
    let l := (t.lanternAt (n / 4)).releaseLease (n % 4) lease
    (t.setLanternAt (n / 4) (l.mapQuads fun _ d => d.unparkAll (n % 4) u)).arbiterPass (n / 4)
  else t

/-! ### Partitions (16 R431) -/

/-- A partition's record. -/
def State.part? (s : State) (p : Nat) : Option Part := Sparse.get none s.dev.parts p

/-- Whether a partition holds a lantern. -/
def Part.has (p : Part) (ltn : Nat) : Bool := p.mask / 2 ^ ltn % 2 == 1

/-- A core whose lantern a partition does not hold. -/
def Part.lost (x : Part) (n : Nat) : Bool := !x.has (n / 4)

/-! ### Levels -/

/-- The graph identifier (16 R433). -/
def Launch.gid (l : Launch) : Nat := l.jobid * 2 ^ 32 + l.phase * 2 ^ 16 + l.graph
/-- The phase identifier. -/
def Launch.pid (l : Launch) : Nat := l.jobid * 2 ^ 32 + l.phase * 2 ^ 16 + 0xFFFF

/-- Whether a launch belongs to a level: 1 launch, 2 graph, 3 phase, 4 job (06 R239). -/
def Launch.inLevel (l : Launch) (level id : Nat) : Bool :=
  match level with
  | 1 => l.lid == id
  | 2 => l.gid == id
  | 3 => l.pid == id
  | 4 => l.jobid == id
  | _ => false

/-- A launch by identifier. -/
def State.launch? (s : State) (lid : Nat) : Option Launch := s.dev.launches.find? fun l => l.lid == lid

/-- The units of a launch not yet placed, by index. -/
def State.unplaced (s : State) (l : Launch) : List Nat :=
  (List.range l.n).filter fun i => !(l.placed.any fun p => p.idx == i) && !(s.dev.waiting.any fun r => r.lid == l.lid && r.idx == i)

/-- Replace a launch. -/
def State.setLaunch (s : State) (l : Launch) : State :=
  s.modDev fun d => { d with launches := d.launches.map fun x => if x.lid == l.lid then l else x }

/-- The staged writes of a run. -/
def Launch.stage (l : Launch) (run : Nat) : Stage := if run = 0 then l.stage0 else l.stage1

/-- Replace them. -/
def Launch.setStage (l : Launch) (run : Nat) (g : Stage) : Launch :=
  if run = 0 then { l with stage0 := g } else { l with stage1 := g }

/-- Queue q of partition p (16 R427). -/
def State.queue (s : State) (p q : Nat) : Queue := Sparse.get Queue.reset s.dev.queues (16 * p + q)

/-- Replace it. -/
def State.setQueue (s : State) (p q : Nat) (x : Queue) : State :=
  s.modDev fun d => { d with queues := Sparse.set Queue.reset d.queues (16 * p + q) x }

/-- Device time in nanoseconds (16 R443). -/
def State.ns (s : State) : Nat := s.dev.now / 1000

/-- Put an event on its queue (16 R443). -/
def State.pushEvent (s : State) (p q : Nat) (e : Event) : State :=
  let x := s.queue p q
  s.setQueue p q { x with events := x.events ++ [e] }

/-- PROVISIONAL (20 R509). -/
def State.provisional (s : State) : Nat := if s.dev.rot.enabled then 1 else 0

/-- FLAGS of a launch's event (16 R443). -/
def State.launchFlags (s : State) (l : Launch) : Nat :=
  s.provisional + (if l.unstaged then 2 else 0) + min l.requeues 3 * 4 + (if l.mismatch then 16 else 0)

/-- Units of a launch that have ended. -/
def Launch.endedUnits (l : Launch) : Nat :=
  (l.placed.filter fun p => p.ended && p.run == 0 && (!l.dup || l.placed.any fun r => r.idx == p.idx && r.run == 1 && r.ended)).length

/-- A launch's event carries PROVISIONAL: the levels about it do (21 R522). -/
def State.markLevels (s : State) (l : Launch) : State :=
  if s.provisional = 0 then s
  else
    let ks := [(1, l.lid), (2, l.gid), (3, l.pid), (4, l.jobid)].filter fun k => !s.dev.marked.contains k
    s.modDev fun d => { d with marked := ks ++ d.marked }

/-- PROVISIONAL of a level's event (21 R522). -/
def State.levelFlags (s : State) (level id : Nat) : Nat := if s.dev.marked.contains (level, id) then 1 else 0

/-- A launch's event (16 R443, R444). -/
def State.launchEvent (s : State) (l : Launch) (status cause unit addr : Nat) : State :=
  (s.markLevels l).pushEvent l.part l.queue ⟨1, status, cause, l.endedUnits, l.lid, l.jobid, s.launchFlags l, unit, addr, s.ns⟩

/-- The children of a level that have completed. -/
def Device.doneIn (d : Device) (level id : Nat) : Nat :=
  (d.ended.filter fun e => e.level + 1 == level && e.parent == id && e.ok).length

/-- COUNT of a level that has ended: its children complete then, a launch's units (16 R443). -/
def Device.countOf (d : Device) (level id : Nat) : Nat :=
  if level = 1 then ((d.ended.find? fun e => e.level == 1 && e.id == id).map Ended.units).getD 0 else d.doneIn level id

/-- Whether a level has ended, and how. -/
def Device.endedLevel (d : Device) (level id : Nat) : Option Bool :=
  (d.ended.find? fun e => e.level == level && e.id == id).map Ended.ok

/-- A launch stands in a level that has been cancelled: no unit of it starts (01 R19, R20). -/
def Device.cancelled (d : Device) (l : Launch) : Bool :=
  d.endedLevel 2 l.gid == some false || d.endedLevel 3 l.pid == some false || d.endedLevel 4 l.jobid == some false ||
  d.sizes.any fun x => x.barred && l.inLevel x.level x.id

/-- Put a level on record as ended. -/
def State.endLevel (s : State) (level id parent : Nat) (ok : Bool) : State :=
  s.modDev fun d => { d with ended := ⟨level, id, parent, 0, 0, ok⟩ :: d.ended }

/-- The event of a graph, phase or job (16 R443, 21 R522). -/
def State.levelEvent (s : State) (p q level id jobid status cause : Nat) : State :=
  s.pushEvent p q ⟨level, status, cause, s.dev.doneIn level id, id, jobid, s.levelFlags level id, 0xFFFFFFFF, 0, s.ns⟩

/-- The cores on which a launch's units run. -/
def Launch.cores (l : Launch) : List Nat := (l.placed.filter fun p => !p.ended).map Placed.core

/-- Discard the units of a launch that a frame edge has saved, with their parked rows (19 R491). -/
def State.dropSaves (s : State) (lid : Nat) : State :=
  let mine (x : Nat × Option Image) : Bool := match x.2 with | some i => i.c.u.lid == some lid | none => false
  let t := (s.dev.saves.filter mine).foldl (fun (t : State) x => match x.2 with
    | some i => t.setLanternAt (i.core / 4) ((t.lanternAt (i.core / 4)).mapQuads fun _ d => d.unparkAll (i.core % 4) i.c.u)
    | none => t) s
  t.modDev fun d => { d with saves := d.saves.filter fun x => !mine x }

/-- Stop every running unit of a launch, its state discarded (01 R19): those on cores, those saved at frame edges and those
that wait for a restart. -/
def State.stopUnits (s : State) (l : Launch) : State :=
  let t := l.cores.foldl (fun t n => if (t.coreAt n).unit.lid = some l.lid then t.clearCore n else t) s
  (t.dropSaves l.lid).modDev fun d => { d with waiting := d.waiting.filter fun r => r.lid != l.lid }

/-- A launch leaves the scoreboard: its stream transfers' residency goes with it (16 R436, R438). -/
def State.dropLaunch (s : State) (lid : Nat) : State :=
  s.modDev fun d => { d with launches := d.launches.filter fun l => l.lid != lid,
                             board := d.board.filter fun x => x.lid != some lid }

/-- A launch fails: its units stop, its staged writes are discarded, its graph stays open (16 R445, 17 R461). The outcome of a launch whose
snuffer has run out is fixed (21 R520). -/
def State.failLaunch (s : State) (l : Launch) (status cause unit addr : Nat) : State :=
  if l.expired.isSome then s else
  let t := (s.stopUnits l).launchEvent l status cause unit addr
  let t := t.setLaunch { l with state := .failed, placed := [], stage0 := Stage.empty, stage1 := Stage.empty, started := none, freed := [] }
  t.modDev fun d => { d with board := d.board.filter fun x => x.lid != some l.lid }

/-- A launch is cancelled: its units stop, its staged writes are discarded (01 R19); not once its snuffer has run out (21 R520). -/
def State.cancelLaunch (s : State) (l : Launch) (cause : Nat) : State :=
  if l.expired.isSome then s else
  let t := (s.stopUnits l).launchEvent l 1 cause 0xFFFFFFFF 0
  (t.dropLaunch l.lid).endLevel 1 l.lid l.gid false

/-- A level on record that has not ended. -/
def Device.openLevel (d : Device) (x : LevelSize) : Bool := (d.endedLevel x.level x.id).isNone

/-- A launch of a level has expired: the level ends with it (16 R453, 21 R520). -/
def Device.doomed (d : Device) (x : LevelSize) : Bool := d.launches.any fun l => l.expired.isSome && l.inLevel x.level x.id

/-- No unit of a level starts any more. -/
def Device.bar (d : Device) (x : LevelSize) : Device :=
  { d with sizes := d.sizes.map fun y => if y.level == x.level && y.id == x.id then { y with barred := true } else y }

/-- End a level on record as cancelled, with its event (16 R443). One that holds an expired launch is ended by that launch's end alone, and
until then no unit of it starts (21 R520; log 148). -/
def State.cancelRecord (s : State) (x : LevelSize) (job parent cause : Nat) : State :=
  if !s.dev.openLevel x then s
  else if s.dev.doomed x then s.modDev fun d => d.bar x
  else (s.levelEvent x.part x.queue x.level x.id job 1 cause).endLevel x.level x.id parent false

/-- Cancel the launches for which `f` holds. -/
def State.cancelWhere (s : State) (f : Launch → Bool) (cause : Nat) : State :=
  (s.dev.launches.filter f).foldl (fun t l => t.cancelLaunch l cause) s

/-- Cancel a graph: its launches, then the graph. -/
def State.cancelGraph (s : State) (gid cause : Nat) : State :=
  (s.dev.sizes.filter fun x => x.level == 2 && x.id == gid).foldl
    (fun t x => t.cancelRecord x (gid / 2 ^ 32) (gid / 2 ^ 16 * 2 ^ 16 + 0xFFFF) cause) (s.cancelWhere (fun l => l.gid == gid) cause)

/-- Cancel a phase: its launches, the graphs on record in it, then the phase. -/
def State.cancelPhase (s : State) (pid cause : Nat) : State :=
  let t := s.cancelWhere (fun l => l.pid == pid) cause
  let t := (t.dev.sizes.filter fun x => x.level == 2 && x.id / 2 ^ 16 == pid / 2 ^ 16).reverse.foldl
    (fun t x => t.cancelRecord x (pid / 2 ^ 32) pid cause) t
  (t.dev.sizes.filter fun x => x.level == 3 && x.id == pid).foldl (fun t x => t.cancelRecord x (pid / 2 ^ 32) (pid / 2 ^ 32) cause) t

/-- Cancel a job: the phases on record in it that have not ended, every launch of it that is left, then the job (01 R20). -/
def State.cancelJob (s : State) (job cause : Nat) : State :=
  let ps := (s.dev.sizes.filter fun x => x.level == 3 && x.id / 2 ^ 32 == job && s.dev.openLevel x).reverse
  let t := (ps.foldl (fun t x => t.cancelPhase x.id cause) s).cancelWhere (fun l => l.jobid == job) cause
  (t.dev.sizes.filter fun x => x.level == 4 && x.id == job).foldl (fun t x => t.cancelRecord x job 0 cause) t

/-- Cancel a level with everything inside it: a cancelled phase ends its job, a cancelled job its running phase (01 R20). -/
def State.cancelLevel (s : State) (level id cause : Nat) : State :=
  match level with
  | 1 => s.cancelWhere (fun l => l.lid == id) cause
  | 2 => s.cancelGraph id cause
  | 3 => (s.cancelPhase id cause).cancelJob (id / 2 ^ 32) cause
  | _ => s.cancelJob id cause

/-- Cancel the rest of a launch's phase, and its job with it (16 R448, R449, R453). -/
def State.cancelPhaseOf (s : State) (l : Launch) (cause : Nat) : State := s.cancelLevel 3 l.pid cause

/-- CANCEL's operation (06 R239, 16 R435): 0 cancelled, 1 already complete, 2 unknown. A level is known while a launch of it
is live, or while it is on record and has not ended; one already cancelled is known no more. -/
def State.cancel (s : State) (level id : Nat) : State × Nat :=
  if (s.dev.launches.any fun l => l.inLevel level id) ||
     ((s.dev.sizes.any fun x => x.level == level && x.id == id) && (s.dev.endedLevel level id).isNone) then
    (s.cancelLevel level id 0, 0)
  else if s.dev.endedLevel level id = some true then (s, 1)
  else (s, 2)

/-- Put a launch back at the head of its queue with fresh placement (16 R448, R449, R453). -/
def State.requeue (s : State) (l : Launch) : State :=
  let t := s.stopUnits l
  let l' := { l with state := .waiting, placed := [], stage0 := Stage.empty, stage1 := Stage.empty,
                     requeues := l.requeues + 1, freed := [] }
  t.modDev fun d => { d with launches := l' :: d.launches.filter fun x => x.lid != l.lid }

/-- Containment of an uncorrectable error (16 R448); a launch whose snuffer has run out ends as its expiry says (21 R520). -/
def State.contain (s : State) (l : Launch) (cause unit addr : Nat) : State :=
  if l.expired.isSome then s
  else if l.unstaged then
    ((s.stopUnits l).launchEvent l 1 4 unit addr |>.dropLaunch l.lid).endLevel 1 l.lid l.gid false |>.cancelPhaseOf l 4
  else if l.errors ≥ 2 then s.failLaunch { l with errors := l.errors + 1 } 5 cause unit addr
  else s.requeue { l with errors := l.errors + 1 }

end Sys2Proof.Machine
end

