-- ==== Sys2Proof/Machine/Slots.lean ====
section
/-! DEFINITION. The frame table of a core and its edges (06 R240; 19 R487-R490), gangs at an edge (01 R44), and whether the unit on a
core moves at all. -/

namespace Sys2Proof.Machine

open Sys2Proof Host

/-! ### The table (19 R487) -/

/-- The enabled slots of a core: number and slot. -/
def CoreSys.enabledSlots (y : CoreSys) : List (Nat × Slot) :=
  ((List.range 16).map fun i => (i, Sparse.get Slot.off y.slots i)).filter fun x => x.2.en

/-- The worlds of a core's enabled slots. -/
def CoreSys.worlds (y : CoreSys) : List Nat := (y.enabledSlots.map fun x => x.2.world).eraseDups

/-- The world whose frame runs on a core. -/
def CoreSys.frameWorld (y : CoreSys) : Nat := (Sparse.get Slot.off y.slots y.slot).world

/-- The enabled slot that follows a slot, round again. -/
def CoreSys.following (y : CoreSys) : Option (Nat × Slot) :=
  match y.enabledSlots.find? fun x => decide (y.slot < x.1) with
  | some x => some x
  | none => y.enabledSlots.head?

/-- The frame table at the core's edge: the FRAMESETs before it have taken effect, later ones wait for the next (06 R240). -/
def CoreSys.atEdge (y : CoreSys) : CoreSys :=
  { y with slots := (y.slotNext.filter fun x => decide (x.1 < y.edge)).foldl (fun m x => Sparse.set Slot.off m x.2.1 x.2.2) y.slots,
           slotNext := y.slotNext.filter fun x => !decide (x.1 < y.edge) }

/-- A core has come to its edge cycle. The lamplighter has no frame table. -/
def State.edgeDue (s : State) (n : Nat) : Bool := decide (n < 512 ∧ (s.coreAt n).sys.edge ≤ s.cycOf n)

/-- The slot whose frame begins at a core's edge. -/
def State.nextSlot (s : State) (n : Nat) : Option (Nat × Slot) := (s.coreAt n).sys.atEdge.following

/-- The world whose frame a core is in once its edge, if one is due, has passed. -/
def State.frameAfter (s : State) (n : Nat) : Option Nat :=
  if s.edgeDue n then (s.nextSlot n).map fun x => x.2.world else some (s.coreAt n).sys.frameWorld

/-- The frame that begins at a core's edge is another world's than the one that ends. -/
def State.worldChanges (s : State) (n : Nat) : Bool :=
  let old := Sparse.get Slot.off (s.coreAt n).sys.slots (s.coreAt n).sys.slot
  match s.nextSlot n with
  | some (_, x) => !(old.en && old.world == x.world)
  | none => false

/-! ### Exchanges (19 R488-R490, 01 R44) -/

/-- An exchange must wait: a handler runs, a segment or leased quadrant is stopped, or a freeze has not ended (19 R490). -/
def State.edgeWaits (s : State) : Bool :=
  s.core.sys.saved.isSome || s.core.sys.stopped != 0 || s.quadStopped || s.core.sys.freeze != 0

/-- The unit on a core leaves it at its edge: no frame of its world begins there. A unit of world 15 stays (16 R442). -/
def State.leavesFrame (s : State) (n : Nat) : Bool :=
  s.edgeDue n && (s.coreAt n).c.busy && (s.coreAt n).unit.world != 15 &&
  match s.nextSlot n with
  | some (_, x) => x.world != (s.coreAt n).unit.world
  | none => true

/-- The cores of the units that leave together with the one on core `n`: all units of a gang (01 R44). -/
def State.leavers (s : State) (n : Nat) : List Nat :=
  match (s.coreAt n).unit.lid.bind s.launch? with
  | some l => if l.gang then l.cores else [n]
  | none => []

/-- The unit on a core is to be saved at an edge: its core's own, or that of another core of its gang. -/
def State.exchanged (s : State) (n : Nat) : Bool :=
  s.leavesFrame n || (s.leavers n).any fun m => (s.coreAt m).unit.lid == (s.coreAt n).unit.lid && s.leavesFrame m

/-- The edge cycle of a core has come and nothing delays it: its unit stands still until FRAME_EDGE has taken the edge, whichever world's
frame begins there, so that it never runs past a later edge into another world's frame (19 R488, R489; log 111). -/
def State.edgeStands (s : State) (n : Nat) : Bool :=
  if s.exchanged n then (n :: s.leavers n).all fun m => !(s.focus m).edgeWaits
  else s.edgeDue n && (s.coreAt n).unit.world != 15 && !(s.focus n).edgeWaits

/-! ### Movement -/

/-- The die of a core has been powered down (20 R506; log 140). -/
def State.dieDown (s : State) (n : Nat) : Bool := s.dev.m.offline / 2 ^ dieOf n % 2 == 1

/-- The unit on the core in focus can move: it is present, the device and its die run, no freeze holds it and no edge (17 R466; 19
R489; 20 R506). -/
def State.unitMoves (s : State) : Bool :=
  s.core.c.busy && s.dev.stateWord != 2 && s.dev.powered && s.core.sys.freeze == 0 && !s.dieDown s.cur && !s.edgeStands s.cur

/-- A segment of the core in focus moves: the unit does, and the segment is neither stopped nor shifting in (17 R470; 02 R74). -/
def State.segRuns (s : State) (seg : Nat) : Bool :=
  s.unitMoves && (s.core.sys.stopped ||| s.core.sys.shifting) / 2 ^ seg % 2 == 0

end Sys2Proof.Machine
end

