-- ==== Sys2Proof/Machine/Memory.lean ====
section
/-! DEFINITION. Memory (chapter 10): device memory under its keys, staging, poison, translation (17 R463), the scalar
accesses of the control engine, block copies with descriptors, and scratchpad. -/

namespace Sys2Proof.Machine

open Sys2Proof Host

/-- The canonical form of a memory: addresses strictly rising and no entry equal to 0, which an unlisted address reads as
(DESIGN CHOICE for DRAM, host and peer memory: log 1; 02 R82 for scratchpad). -/
def Memory.wf (m : List Cell) : Bool := Sparse.wf (0 : Byte) m

/-- Read one byte of a memory. -/
def Memory.read (m : List Cell) (a : Nat) : Byte := Sparse.get (0 : Byte) m a

/-- Write one byte of a memory. -/
def Memory.write (m : List Cell) (a : Nat) (b : Byte) : List Cell := Sparse.set (0 : Byte) m a b

/-- Read `n` bytes from `a` up. -/
def Memory.reads (m : List Cell) (a n : Nat) : Bytes := Sparse.getMany (0 : Byte) m a n

/-- Write bytes from `a` up. -/
def Memory.writes (m : List Cell) (a : Nat) (bs : Bytes) : List Cell := Sparse.setMany (0 : Byte) m a bs

/-! ### Worlds, keys and launches -/

/-- A world's record; world 15 has none. -/
def State.world? (s : State) (w : Nat) : Option World := Sparse.get none s.dev.sec.worlds w

/-- The memory key of a world: world 15's own for world 15 (10 R352, 16 R426 and the anchor block). -/
def State.memKey (s : State) (w : Nat) : KeyId :=
  if w = 15 then .firmware else match s.world? w with | some x => x.memKey | none => .default

/-- Whether a world is protected (19 R485). -/
def State.protWorld (s : State) (w : Nat) : Bool :=
  match s.world? w with | some x => x.prot | none => false

/-- The key of a handle installed for a world (09 R337, 19 R484). -/
def State.keyFor (s : State) (w handle : Nat) : Option KeyId :=
  (s.dev.sec.keys.find? fun k => k.handle == handle && k.world == w).map KeyEntry.id

/-- The launch whose staging the unit in focus writes to: none for world 15's handler and once the node is unstaged (10 R353,
R354). -/
def State.staging (s : State) : Option (Launch × Nat) :=
  match s.u.lid with
  | none => none
  | some i => match s.launch? i with
    | none => none
    | some l => if l.unstaged then none else some (l, s.u.run)

/-- The staged writes that the unit in focus sees (10 R353). -/
def State.overlay (s : State) : Stage :=
  match s.staging with | some (l, r) => l.stage r | none => Stage.empty

/-! ### Bytes of device memory -/

/-- The highest device physical address (20 R501). -/
def memTop : Nat := 0x1FFFFFFFFFF

/-- A byte as it stands: staged by the run, or committed, with the key it stands under (none: never written). -/
def Mem.raw (m : Mem) (g : Stage) (a : Nat) : Byte × Option KeyId :=
  match Sparse.get none g.mem a with
  | some b => (b, Sparse.get none g.key a)
  | none => (Memory.read m.mem a, Sparse.get none m.key a)

/-- The bytes of a 16-byte block of AES-XTS as they were written, with those staged (10 R352). -/
def Mem.xtsBlock (m : Mem) (g : Stage) (b : Nat) : Bytes := (List.range 16).map fun i => (m.raw g (16 * b + i)).1

/-- What a byte's block is made of: a byte that the run has not staged stands in the committed block (10 R353). -/
def Stage.over (g : Stage) (a : Nat) : Stage := if (Sparse.get none g.mem a).isSome then g else Stage.empty

/-- A byte read under a key: as written under the same key, under another what its block decrypts to (10 R352). -/
def Mem.plain (m : Mem) (g : Stage) (k : KeyId) (a : Nat) : Byte :=
  match (m.raw g a).2 with
  | none => (m.raw g a).1
  | some t => if t = k then (m.raw g a).1 else Config.rekey t k (a / 16) (m.xtsBlock (g.over a) (a / 16)) (a % 16)

/-- `n` bytes read under a key. -/
def Mem.readKey (m : Mem) (g : Stage) (k : KeyId) (a : Nat) : Nat → Bytes
  | 0 => []
  | n + 1 => m.plain g k a :: Mem.readKey m g k (a + 1) n

/-- A write of `n` bytes at `a` re-encrypts the 16-byte blocks that it covers in part: the other bytes of such a block that stand
under another key become what the block decrypts to under this one (10 R352). -/
def Mem.adopt (m : Mem) (g : Stage) (k : KeyId) (a n : Nat) : List (Nat × Byte) :=
  if n = 0 then []
  else [a / 16, (a + n - 1) / 16].eraseDups.flatMap fun b => (List.range 16).filterMap fun i =>
    let x := 16 * b + i
    if a ≤ x ∧ x < a + n then none
    else match (m.raw g x).2 with
      | none => none
      | some t => if t = k then none else some (x, m.plain g k x)

/-- The granules of 32 bytes that `n` bytes at `a` touch (10 R360). -/
def granules (a n : Nat) : List Nat :=
  if n = 0 then [] else (List.range ((a + n - 1) / 32 - a / 32 + 1)).map fun i => (a / 32 + i) * 32

/-- A granule is poisoned for a reader of a stage: where it is staged, or in memory while no staged write has replaced it whole (10
R361, 17 R466). -/
def Mem.badGranule (m : Mem) (g : Stage) (x : Nat) : Bool :=
  Sparse.get false g.bad x || (Sparse.get false m.poison x && !Sparse.get false g.whole x)

/-- A read of `n` bytes touches a poisoned granule (10 R361). -/
def Mem.poisoned (m : Mem) (g : Stage) (a n : Nat) : Bool := (granules a n).any (m.badGranule g)

/-- The granules that `n` bytes at `a` cover whole. -/
def wholeGranules (a n : Nat) : List Nat := (granules a n).filter fun x => decide (a ≤ x ∧ x + 32 ≤ a + n)

/-- Stage one byte. -/
def Stage.putByte (g : Stage) (k : KeyId) (a : Nat) (b : Byte) : Stage :=
  { g with mem := Sparse.set none g.mem a (some b), key := Sparse.set none g.key a (some k) }

/-- Stage bytes as they are. -/
def Stage.putRaw (g : Stage) (k : KeyId) (a : Nat) : Bytes → Stage
  | [] => g
  | b :: bs => Stage.putRaw (g.putByte k a b) k (a + 1) bs

/-- A staged write of whole granules replaces them (10 R361). -/
def Stage.replace (g : Stage) (a n : Nat) : Stage :=
  (wholeGranules a n).foldl
    (fun g x => { g with whole := Sparse.set false g.whole x true, bad := Sparse.set false g.bad x false }) g

/-- Stage bytes over memory. Of the blocks covered in part, bytes that the run has staged itself are encrypted again; what it has never
stored is not staged, and stays open to every other writer (10 R357). -/
def Stage.put (g : Stage) (m : Mem) (k : KeyId) (a : Nat) (bs : Bytes) : Stage :=
  (((m.adopt g k a bs.length).filter fun x => (Sparse.get none g.mem x.1).isSome).foldl (fun g x => g.putByte k x.1 x.2)
    (g.putRaw k a bs)).replace a bs.length

/-- Take `n` bytes out of a stage. -/
def Stage.drop (g : Stage) (a : Nat) : Nat → Stage
  | 0 => g
  | n + 1 => Stage.drop { g with mem := Sparse.set none g.mem a none, key := Sparse.set none g.key a none } (a + 1) n

/-- Write one committed byte. -/
def Mem.putByte (m : Mem) (k : KeyId) (a : Nat) (b : Byte) : Mem :=
  { m with mem := Memory.write m.mem a b, key := Sparse.set none m.key a (some k) }

/-- Write committed bytes as they are. -/
def Mem.putRaw (m : Mem) (k : KeyId) (a : Nat) : Bytes → Mem
  | [] => m
  | b :: bs => Mem.putRaw (m.putByte k a b) k (a + 1) bs

/-- Write committed bytes in place. -/
def Mem.put (m : Mem) (k : KeyId) (a : Nat) (bs : Bytes) : Mem :=
  (m.adopt Stage.empty k a bs.length).foldl (fun m x => m.putByte k x.1 x.2) (m.putRaw k a bs)

/-- A write of whole granules repairs them (10 R361). -/
def Mem.repair (m : Mem) (a n : Nat) : Mem :=
  (wholeGranules a n).foldl
    (fun m x => { m with poison := Sparse.set false m.poison x false, weak := Sparse.set false m.weak x false }) m

/-- Commit the staged writes of a run (16 R446): bytes with their keys, then descriptors; granules replaced whole are repaired, and a
staged granule that an error has poisoned is poisoned in memory. -/
def Mem.commit (m : Mem) (g : Stage) : Mem :=
  let m1 := g.mem.foldl (fun m c => match c.2, Sparse.get none g.key c.1 with
    | some b, some k => m.put k c.1 [b]
    | _, _ => m) m
  let m2 := g.desc.foldl (fun m c => match c.2 with
    | some d => { m with desc := Sparse.set Desc.zero m.desc c.1 d }
    | none => m) m1
  let m3 := g.whole.foldl (fun m c =>
    { m with poison := Sparse.set false m.poison c.1 false, weak := Sparse.set false m.weak c.1 false }) m2
  g.bad.foldl (fun m c => { m with poison := Sparse.set false m.poison c.1 true }) m3

/-- Make the launch of the unit in focus unstaged: its staged writes commit first (16 R447, 10 R354). -/
def State.unstage (s : State) (l : Launch) : State :=
  (s.modMem fun m => m.commit l.stage0).setLaunch { l with unstaged := true, stage0 := Stage.empty }

/-- 4 MiB of 32-byte granules (16 R446). -/
def quota : Nat := 131072

/-- Mark granules as staged by the unit in focus. -/
def State.markGrans (s : State) (gs : List Nat) : State :=
  s.setU { s.u with grans := gs.foldl (fun m x => Sparse.set false m x true) s.u.grans }

/-- The store of a launch: staged while the unit stays within its quota; a store that would pass it makes a non-duplicated
launch unstaged and fails a duplicated one, whose store is not performed (16 R446, R447, R449). The flag says whether the
store is staged. -/
def State.account (s : State) (a n : Nat) : M (State × Option (Launch × Nat)) :=
  match s.staging with
  | none => .ok (s, none)
  | some (l, r) =>
    let t := s.markGrans (granules a n)
    if t.u.grans.length ≤ quota then .ok (t, some (l, r))
    else if l.dup then .error (.gone (s.failLaunch l 10 0 0xFFFFFFFF 0))
    else .ok (s.unstage l, none)

/-- Raise poison-consumed when a read of `n` bytes touches a poisoned granule; stop the machine outside device memory. -/
def State.readable (s : State) (g : Stage) (va : Word) (a n : Nat) : M PUnit :=
  if a + n > memTop + 1 then .error (.fault (.absentMemory a))
  else chkAt (!s.dev.m.poisoned g a n) .poisonConsumed va

/-- The merge read of a store's partial granules (10 R360): a poisoned granule raises poison-consumed; one whose rest is
uncorrectable becomes poisoned and raises uncorrectable-store. -/
def State.mergeable (s : State) (g : Stage) (va : Word) (a n : Nat) : M PUnit :=
  if a + n > memTop + 1 then .error (.fault (.absentMemory a))
  else
    let part := (granules a n).filter fun x => !(wholeGranules a n).contains x
    if part.any (s.dev.m.badGranule g) then trapAt .poisonConsumed va
    else match part.find? fun x => Sparse.get false s.dev.m.weak x && !Sparse.get false g.whole x with
      | some x => .error (.trapped (s.modMem fun m => { m with poison := Sparse.set false m.poison x true })
                    .uncorrectableStore va)
      | none => .ok ⟨⟩

/-- Bytes of device memory as the unit in focus reads them under a key. -/
def State.readDev (s : State) (k : KeyId) (va : Word) (a n : Nat) : M Bytes := do
  s.readable s.overlay va a n
  pure (s.dev.m.readKey s.overlay k a n)

/-- A store of the unit in focus to device memory: staged, or in place once its node is unstaged (10 R353, R354). -/
def State.storeDev (s : State) (k : KeyId) (va : Word) (a : Nat) (bs : Bytes) : M State := do
  s.mergeable s.overlay va a bs.length
  match ← s.account a bs.length with
  | (t, some (l, r)) => pure (t.setLaunch (l.setStage r ((l.stage r).put t.dev.m k a bs)))
  | (t, none) => pure (t.modMem fun m => (m.put k a bs).repair a bs.length)

/-- A write in place, never staged: atomics and sequence words (10 R354). The bytes that the run holds staged there stand earlier
in coherence, and are staged no more (10 R357). -/
def State.storeInPlace (s : State) (k : KeyId) (va : Word) (a : Nat) (bs : Bytes) : M State := do
  s.mergeable s.overlay va a bs.length
  let t := s.modMem fun m => (m.put k a bs).repair a bs.length
  match s.staging with
  | none => pure t
  | some (l, r) => pure (t.setLaunch (l.setStage r ((l.stage r).drop a bs.length)))

/-! ### Translation (17 R463, R464) -/

/-- What an access does to its page. -/
inductive Access where
  | read | write | fetch
  deriving DecidableEq, Repr

/-- The levels of the walk: shift, index bits, whether a leaf may stand there. -/
def walkLevels : List (Nat × Nat × Bool) :=
  [(48, 8, false), (39, 9, false), (30, 9, true), (21, 9, true), (16, 5, true)]

/-- The walk from a table (17 R463). -/
def walk (m : Mem) (w va : Nat) : Nat → List (Nat × Nat × Bool) → M TlbEntry
  | _, [] => trapAt .notMapped (BitVec.ofNat 64 va)
  | table, (sh, bits, leafOk) :: rest =>
    let a := table + 8 * (va / 2 ^ sh % 2 ^ bits)
    if a + 8 > memTop + 1 then .error (.fault (.absentMemory a))
    else if m.poisoned Stage.empty a 8 then trapAt .poisonConsumed (BitVec.ofNat 64 va)
    else
      let e := leNat (m.readKey Stage.empty .firmware a 8)
      let pa := e / 256 % 2 ^ 48 * 256
      let leaf := e / 2 % 2 == 1
      if e % 2 = 0 ∨ e / 2 ^ 56 ≠ 0 ∨ e / 64 % 2 ≠ 0 then trapAt .notMapped (BitVec.ofNat 64 va)
      else if leaf then
        if !leafOk || e / 16 % 4 == 3 || pa % 2 ^ sh != 0 then trapAt .notMapped (BitVec.ofNat 64 va)
        else .ok ⟨w, va / 2 ^ sh * 2 ^ sh, 2 ^ sh, pa, e / 128 % 2 == 1, e / 16 % 4, e / 8 % 2 == 1, e / 4 % 2 == 1⟩
      else if rest.isEmpty then trapAt .notMapped (BitVec.ofNat 64 va)
      else walk m w va pa rest

/-- World 15 runs in device physical addresses: the spec gives it no root (DESIGN CHOICE, log 14). -/
def firmwarePage : TlbEntry := ⟨15, 0, 2 ^ 56, 0, false, 0, true, true⟩

/-- The valid leaf for an address: from the core's TLB, or by a walk, which the TLB then holds (17 R464). -/
def State.leaf (s : State) (w va : Nat) : M (State × TlbEntry) :=
  if w = 15 then .ok (s, firmwarePage)
  else match s.core.sys.tlb.find? fun e => e.world == w && decide (e.va ≤ va) && decide (va < e.va + e.size) with
    | some e => .ok (s, e)
    | none =>
      match s.world? w with
      | none => trapAt .notMapped (BitVec.ofNat 64 va)
      | some x => do
        let e ← walk s.dev.m w va x.root walkLevels
        pure (s.modSys fun y => { y with tlb := (e :: y.tlb).take 2048 }, e)

/-- Translate an access: the leaf with its permission, the physical address, and the state with the TLB filled. -/
def State.translate (s : State) (w va : Nat) (acc : Access) : M (State × TlbEntry × Nat) := do
  let (t, e) ← s.leaf w va
  chkAt (acc != .write || e.w) .noWrite (BitVec.ofNat 64 va)
  chkAt (acc != .fetch || e.x) .noFetch (BitVec.ofNat 64 va)
  pure (t, e, e.pa + (va - e.va))

/-! ### Scalar accesses (06 R200-R202) -/

/-- The checks of a scalar address before translation, in order (06 R201). -/
def scalarAddr (a : Word) (n : Nat) : M PUnit := do
  chkAt (decide (a.toNat < 2 ^ 56)) .addressRange a
  chkAt (decide (a.toNat % n = 0)) .misaligned a

/-- A scalar read of `n` bytes: the state with the TLB filled and the value. -/
def State.loadG (s : State) (a : Word) (n : Nat) : M (State × Nat) := do
  scalarAddr a n
  let (t, e, pa) ← s.translate s.u.world a.toNat .read
  if e.target = 1 then pure (t, leNat (Memory.reads t.dev.m.host pa n))
  else if e.target = 2 then pure (t, leNat (Memory.reads t.dev.m.peer pa n))
  else do
    let bs ← t.readDev (t.memKey t.u.world) a pa n
    pure (t, leNat bs)

/-- A store or atomic from a protected world may reach only protected device memory (19 R492). -/
def State.mayStore (s : State) (e : TlbEntry) (a : Word) : M PUnit :=
  chkAt (!(s.protWorld s.u.world && (e.unprot || e.target != 0))) .protectedStore a

/-- Mark an access of 10 R374 or 13 R391: the open region can no longer be pre-empted. -/
def State.guardRegion (s : State) : State := s.modSeq fun q => { q with guarded := true, everGuarded := true }

/-- A scalar store of `n` bytes. -/
def State.storeG (s : State) (a : Word) (n v : Nat) : M State := do
  scalarAddr a n
  let (t, e, pa) ← s.translate s.u.world a.toNat .write
  t.mayStore e a
  if e.target = 1 then pure (t.guardRegion.modMem fun m => { m with host := Memory.writes m.host pa (natLe n v) })
  else if e.target = 2 then pure (t.guardRegion.modMem fun m => { m with peer := Memory.writes m.peer pa (natLe n v) })
  else t.storeDev (t.memKey t.u.world) a pa (natLe n v)

/-- An atomic step on `n` bytes: the old value, and memory with the new one (06 R202, 10 R354). `sys` says that its scope is
.sys, which a window needs. -/
def State.atomicG (s : State) (a : Word) (n : Nat) (sys : Bool) (f : Nat → Nat) : M (State × Nat) := do
  scalarAddr a n
  let (t, e, pa) ← s.translate s.u.world a.toNat .write
  t.mayStore e a
  chkAt (e.target == 0 || sys) .atomicScope a
  let t := t.guardRegion
  if e.target = 1 then
    let old := leNat (Memory.reads t.dev.m.host pa n)
    pure (t.modMem fun m => { m with host := Memory.writes m.host pa (natLe n (f old)) }, old)
  else if e.target = 2 then
    let old := leNat (Memory.reads t.dev.m.peer pa n)
    pure (t.modMem fun m => { m with peer := Memory.writes m.peer pa (natLe n (f old)) }, old)
  else do
    let k := t.memKey t.u.world
    let bs ← t.readDev k a pa n
    let t ← t.storeInPlace k a pa (natLe n (f (leNat bs)))
    pure (t, leNat bs)

/-- Read `n` bytes at a virtual address, 8-byte words at most, each in its page: handles and descriptors (06 R217). -/
def State.loadMany (s : State) (a : Nat) : Nat → M (State × Bytes)
  | 0 => .ok (s, [])
  | n + 1 => do
    let (t, v) ← s.loadG (BitVec.ofNat 64 a) 8
    let (t, bs) ← State.loadMany t (a + 8) n
    pure (t, natLe 8 v ++ bs)

/-- Store bytes as 8-byte words. -/
def State.storeMany (s : State) (a : Nat) : List Nat → M State
  | [] => .ok s
  | v :: vs => do
    let t ← s.storeG (BitVec.ofNat 64 a) 8 v
    State.storeMany t (a + 8) vs

/-! ### Text (05 R156) -/

/-- The memory a unit's text is fetched from: as it stood when the first unit of its launch started, or as it stands for
world 15's handler. -/
def State.textMem (s : State) : Mem :=
  match s.u.lid with
  | none => s.dev.m
  | some i => match s.launch? i with | some l => l.snap | none => s.dev.m

/-- The 32 bytes of a text line with the TLB filled (05 R151). -/
def State.fetch (s : State) (a : Nat) : M (State × Bytes) := do
  chkAt (decide (a < 2 ^ 56)) .addressRange (BitVec.ofNat 64 a)
  let (t, e, pa) ← s.translate s.u.world a .fetch
  if e.target = 1 then pure (t, Memory.reads t.textMem.host pa 32)
  else if e.target = 2 then pure (t, Memory.reads t.textMem.peer pa 32)
  else if pa + 32 > memTop + 1 then .error (.fault (.absentMemory pa))
  else do
    chkAt (!t.textMem.poisoned Stage.empty pa 32) .poisonConsumed (BitVec.ofNat 64 a)
    pure (t, t.textMem.readKey Stage.empty (t.memKey t.u.world) pa 32)

/-- The eight lane words of a line (05 R151). -/
def lineWords (bs : Bytes) : List Nat := (List.range 8).map fun i => leNat ((bs.drop (4 * i)).take 4)

/-! ### Blocks with descriptors, through a handle's key (09 R337) -/

/-- One block of a handle's tensor as a copy reads it: the page must be device memory (09 R337); payload and descriptor. -/
def State.readBlock (s : State) (k : KeyId) (va : Nat) : M (State × Bytes × Desc) := do
  let a := BitVec.ofNat 64 va
  chkAt (decide (va < 2 ^ 56)) .addressRange a
  let (t, e, pa) ← s.translate s.u.world va .read
  chkAt (e.target != 1) .hostWindow a
  chkAt (e.target != 2) .peerWindow a
  let bs ← t.readDev k a pa 64
  let d := match Sparse.get none t.overlay.desc (pa / 64) with
    | some d => d | none => Sparse.get Desc.zero t.dev.m.desc (pa / 64)
  pure (t, bs, d)

/-- One block as a copy writes it, with its descriptor (03 R87). -/
def State.writeBlock (s : State) (k : KeyId) (va : Nat) (bs : Bytes) (d : Desc) : M State := do
  let a := BitVec.ofNat 64 va
  chkAt (decide (va < 2 ^ 56)) .addressRange a
  let (t, e, pa) ← s.translate s.u.world va .write
  chkAt (e.target != 1) .hostWindow a
  chkAt (e.target != 2) .peerWindow a
  t.mayStore e a
  let t ← t.storeDev k a pa bs
  match t.staging with
  | some (l, r) =>
    let g := l.stage r
    pure (t.setLaunch (l.setStage r { g with desc := Sparse.set none g.desc (pa / 64) (some d) }))
  | none => pure (t.modMem fun m => { m with desc := Sparse.set Desc.zero m.desc (pa / 64) d })

/-! ### Scratchpad (02 R69-R71) -/

/-- The range checks of a scratchpad access of `n` bytes by an unprivileged or privileged lane (02 R70). -/
def State.spadRange (s : State) (a n : Nat) : M PUnit := do
  chkAt (decide (a + n ≤ 0x200000)) .scratchpadRange (BitVec.ofNat 64 a)
  chkAt (s.privileged || decide (a + n ≤ 0x1F0000)) .reservedScratchpad (BitVec.ofNat 64 a)

/-- The same for an access to several ranges, which is one (02 R70). -/
def State.spadRanges (s : State) (rs : List (Nat × Nat)) : M PUnit := do
  rs.forM fun r => chkAt (decide (r.1 + r.2 ≤ 0x200000)) .scratchpadRange (BitVec.ofNat 64 r.1)
  rs.forM fun r => s.spadRange r.1 r.2

/-- Bytes of the core's scratchpad. -/
def State.spad (s : State) (a n : Nat) : Bytes := Memory.reads s.core.spad a n

/-- The descriptor of block `b`. -/
def State.desc (s : State) (b : Nat) : Desc := Sparse.get Desc.zero s.core.tag b

/-- Write scratchpad bytes, descriptors untouched: so do the spills of chapters 02 and 07 and REGION's record, for which the spec names
no descriptor (DESIGN CHOICE, log 102). -/
def State.setSpad (s : State) (a : Nat) (bs : Bytes) : State :=
  s.setCore { s.core with spad := Memory.writes s.core.spad a bs }

/-- Write a block's descriptor. -/
def State.setDesc (s : State) (b : Nat) (d : Desc) : State :=
  s.setCore { s.core with tag := Sparse.set Desc.zero s.core.tag b d }

/-- The cover map's cells that `n` bytes at `a` touch (14 R415). -/
def cells (a n : Nat) : List Nat :=
  if n = 0 then [] else (List.range ((a + n - 1) / 8 - a / 8 + 1)).map fun i => a / 8 + i

/-- Whether a cell is covered (14 R415). -/
def State.covered (s : State) (c : Nat) : Bool := Sparse.get false s.core.w.cover c

/-- No cell of block `b` is covered. -/
def State.blockFree (s : State) (b : Nat) : Bool := (List.range 8).all fun i => !s.covered (8 * b + i)

/-- A write of one byte with the descriptor its operation supplies (02 R71). In an overwriting iteration a covered cell keeps
its byte, any other becomes pending, and the descriptor is replaced only when the byte is written and no cell of its block
was covered (14 R417). -/
def State.putByte (s : State) (ovr : Bool) (d : Desc) (w : Nat × Byte) : State :=
  if ovr then
    if s.covered (w.1 / 8) then s
    else
      let t := (s.setSpad w.1 [w.2]).modW fun x => { x with marks := Sparse.set false x.marks (w.1 / 8) true }
      if s.blockFree (w.1 / 64) then t.setDesc (w.1 / 64) d else t
  else (s.setSpad w.1 [w.2]).setDesc (w.1 / 64) d

/-- A write of bytes from `a` up with one descriptor. -/
def State.putBytes (s : State) (ovr : Bool) (a : Nat) (bs : Bytes) (d : Desc) : State :=
  (bs.zipIdx a).foldl (fun t w => t.putByte ovr d (w.2, w.1)) s

/-- Reads of a running overwriting iteration may not touch a covered cell (14 R418). -/
def State.coverRead (s : State) (ovr : Bool) (a n : Nat) : M PUnit :=
  chkAt (!(ovr && (cells a n).any s.covered)) .ovwReadConflict (BitVec.ofNat 64 a)

/-! ### Device memory as controllers read it (16 R425, 19 R483) -/

/-- The key of the mapped data slice that holds an address; world 15's own outside every slice. -/
def State.keyAt (s : State) (a : Nat) : KeyId :=
  ((List.range 64).findSome? fun i => match Sparse.get none s.dev.port.slices i with
    | some (b, k) => if b ≤ a ∧ a < b + 2 ^ 30 then some k else none
    | none => none).getD .firmware

/-- Committed bytes under the key at their address. -/
def State.peek (s : State) (a n : Nat) : Bytes := s.dev.m.readKey Stage.empty (s.keyAt a) a n

/-- Write bytes under the key at their address. -/
def State.poke (s : State) (a : Nat) (bs : Bytes) : State := s.modMem fun m => (m.put (s.keyAt a) a bs).repair a bs.length

/-- A little-endian field of bytes. -/
def fieldOf (bs : Bytes) (off n : Nat) : Nat := leNat ((bs.drop off).take n)

/-! ### Record mode (20 R511, R512) -/

/-- Bytes padded to a multiple of 16. -/
def pad16 (bs : Bytes) : Bytes := bs ++ List.replicate ((16 - bs.length % 16) % 16) 0

/-- Append an entry to the log, or set FULL: the state and whether it fitted. -/
def State.logEntry (s : State) (kind lid : Nat) (body : Bytes) : State × Bool :=
  let r := s.dev.recm
  let e := pad16 (natLe 4 kind ++ natLe 4 body.length ++ natLe 8 lid ++ body)
  let set (r : RecMode) (t : State) : State :=
    (t.poke r.addr (natLe 8 r.used ++ natLe 8 (if r.full then 1 else 0))).modDev fun d => { d with recm := r }
  if r.full then (s, false)
  else if r.used + e.length ≤ r.len then (set { r with used := r.used + e.length } (s.poke (r.addr + r.used) e), true)
  else (set { r with full := true } s, false)

/-- The entries of a log from offset `o` on: offset, KIND, LAUNCHID and body. -/
def logEntries : Nat → Nat → Bytes → List (Nat × Nat × Nat × Bytes)
  | 0, _, _ => []
  | n + 1, o, bs =>
    if bs.length < 16 then []
    else
      let len := fieldOf bs 4 4
      let size := 16 + (len + 15) / 16 * 16
      (o, fieldOf bs 0 1, fieldOf bs 8 8, (bs.drop 16).take len) :: logEntries n (o + size) (bs.drop size)

/-- The entries of a launch in a log that stands at an address, with the bytes used. -/
def State.logOf (s : State) (a used lid : Nat) : List (Nat × Nat × Nat × Bytes) :=
  (logEntries (used / 16) 16 (s.peek (a + 16) (used - 16))).filter fun e => e.2.2.1 == lid

/-- Those that belong to the last launch record among them. -/
def sinceRecord (es : List (Nat × Nat × Nat × Bytes)) : List (Nat × Nat × Nat × Bytes) :=
  (es.reverse.takeWhile fun e => e.2.1 != 1).reverse

/-- Put an entry on the log in place of number `k` of the launch's entries of its kind that are about the `same`, which a restart or a
re-queue has discarded; append it where there is none (03 R123; log 39). -/
def State.relog (s : State) (kind lid k : Nat) (same : Bytes → Bool) (body : Bytes) : State :=
  let r := s.dev.recm
  match ((sinceRecord (s.logOf r.addr r.used lid)).filter fun e => e.2.1 == kind && same e.2.2.2)[k]? with
  | some e => s.poke (r.addr + e.1 + 16) body
  | none => (s.logEntry kind lid body).1

/-- The placement record of a recorded launch, once all its units have started (20 R512), and again when one stands on another core; a
unit that waits for a restart counts where it ran. -/
def State.logPlacement (s : State) (lid : Nat) : State :=
  match s.launch? lid with
  | none => s
  | some l =>
    if l.recorded && (s.unplaced l).isEmpty then
      let cores := (List.range l.n).flatMap fun i =>
        natLe 2 (match l.placed.find? fun p => p.idx == i && p.run == 0 with
          | some p => p.core
          | none => ((s.dev.waiting.find? fun r => r.lid == lid && r.idx == i && r.run == 0).map Restart.core).getD 0)
      s.relog 2 lid 0 (fun _ => true) cores
    else s

/-! ### The rotation's holds and CONFTIME (08 R290; 20 R508, R509) -/

/-- Write to the anchor block. -/
def State.anchorWrite (s : State) (off : Nat) (bs : Bytes) : State :=
  s.modMem fun m => (m.put .firmware (s.dev.anchor + off) bs).repair (s.dev.anchor + off) bs.length

/-- CONFTIME: the smallest start of the last passed test among unfenced cores and quadrants; what has
failed holds it back until its report stands in the ring (20 R509, R510). -/
def State.confTime (s : State) : Nat :=
  let cs := ((List.range 512).filter fun n => (s.coreAt n).sys.enabled && !(s.coreAt n).sys.fenced).map fun n => (s.coreAt n).sys.passed
  let qs := (List.range 128).flatMap fun n =>
    let l := s.lanternAt n
    ((List.range 4).filter fun q => hasQuad l.live q).map fun q => (l.quad q).passed
  (cs ++ qs ++ s.dev.rot.reports.map Prod.fst).foldl min s.dev.now

/-- CONFTIME moves on while the rotation is enabled, and the health area shows it in nanoseconds. -/
def State.noteConf (s : State) : State :=
  let c := if s.dev.rot.enabled then s.confTime else s.dev.rot.conf
  (s.modDev fun d => { d with rot := { d.rot with conf := c } }).anchorWrite 0x6400 (natLe 8 (c / 1000))

/-- The holds of the rotation last at most 8,192 cycles (08 R290): a test that nothing has failed by then ends, passed (log 83), and the
arbiter runs; CONFTIME follows (20 R509). -/
def State.expireHolds (s : State) : State :=
  let due := s.lanterns.any fun x => (List.range 4).any fun q => (x.2.quad q).overdue (s.cycOn (x.1 / 16))
  let t := s.lanterns.foldl (fun t x =>
    let cyc := s.cycOn (x.1 / 16)
    let n := ((List.range 4).filter fun q => (x.2.quad q).overdue cyc).length
    if n = 0 then t
    else (((t.setLanternAt x.1 { (x.2.mapQuads fun _ d => if d.overdue cyc then d.passes else d) with rotWant := none }).addHealth
      (x.1 / 16) 1 n).arbiterPass x.1)) s
  if due then t.noteConf else t

end Sys2Proof.Machine
end

