-- ==== Sys2Proof/Machine/Operands.lean ====
section
/-! DEFINITION. Operand forms (05 R163-R170): immediates, control sources and destinations, access registers with their
stride bindings, vector sources and destinations, and the checks of each in the order of 05 R183. -/

namespace Sys2Proof.Machine

open Sys2Proof

/-! ### Immediates (05 R159) -/

/-- The unsigned value. -/
def immU {w : Nat} (i : Imm w) : Nat :=
  match i.high with
  | none => i.low.toNat
  | some h => h.toNat * 2 ^ w + i.low.toNat

/-- The signed value: sign-extended from bit w − 1, or from bit w + 27 with HIGH. -/
def immS {w : Nat} (i : Imm w) : Int :=
  match i.high with
  | none => i.low.toInt
  | some h => h.toInt * (2 ^ w : Nat) + (i.low.toNat : Int)

/-- The signed value as a word. -/
def immWord {w : Nat} (i : Imm w) : Word := BitVec.ofInt 64 (immS i)

/-! ### Control operands -/

/-- Whether a control source names a latch (05 R163). -/
def isLatch (f : CSrc) : Bool := decide (32 ≤ f.toNat)

/-- The latch a control source names is filled. -/
def State.latchFilled (s : State) (f : CSrc) : Bool := !isLatch f || decide (f.toNat - 32 < s.u.latC.length)

/-- The checks of a control lane's registers: latch-empty for any source, then frame-bounds for any name (05 R183, 02 R48). -/
def State.useC (s : State) (srcs : List CSrc) (dsts : List CReg) : M PUnit := do
  chk (srcs.all s.latchFilled) .latchEmpty
  chk ((srcs.all fun f => isLatch f || (s.view .c).inFrame f.toNat) && dsts.all fun d => (s.view .c).inFrame d.toNat) .frameBounds

/-- The value of a control source (05 R163). -/
def State.valC (s : State) (f : CSrc) : Word :=
  if isLatch f then (s.u.latC[f.toNat - 32]?).getD 0 else (s.view .c).x f.toNat

/-- A control register read by a lane of another engine: in text order, inside the frame (05 R163, 02 R48). -/
def State.useX (s : State) (e : Engine) (srcs : List CSrc) : M PUnit :=
  chk (srcs.all fun f => (s.view e).inFrame f.toNat) .frameBounds

/-- Its value. -/
def State.valX (s : State) (e : Engine) (f : CSrc) : Word := (s.view e).x f.toNat

/-! ### Access registers (09 R311, 06 R221) -/

/-- What the stride bindings of the running loop add to register `k` at the lane of the access engine (06 R221). -/
def State.strideSum (s : State) (k : Nat) : Int :=
  match (s.u.curLine .a).iter with
  | none => 0
  | some it => (it.strides.filter fun b => b.1 == k).foldl
      (fun n b => n + (((s.u.eng .a).idx.getD b.2.1 0 : Nat) : Int) * b.2.2) 0

/-- The value of register `k` at the access engine's lane. -/
def State.readA (s : State) (k : Nat) : BitVec 32 := Sparse.get 0 s.core.a.a k + BitVec.ofInt 32 (s.strideSum k)

/-- Whether a body lane's destination is bound by a stride. -/
def State.strideBound (s : State) (k : Nat) : Bool :=
  match (s.u.curLine .a).iter with
  | none => false
  | some it => it.strides.any fun b => b.1 == k

/-- The latch an access source names is filled. -/
def State.useA (s : State) (srcs : List ASrc) : M PUnit :=
  chk (srcs.all fun f => decide (f.toNat < 32) || decide (f.toNat - 32 < s.core.a.lat.length)) .latchEmpty

/-- The value of an access source (05 R163). -/
def State.valA (s : State) (f : ASrc) : BitVec 32 :=
  if f.toNat < 32 then s.readA f.toNat else (s.core.a.lat[f.toNat - 32]?).getD 0

/-- An access result: ad and the access engine's b0 (09 R311); a bound register may not be written (06 R221). -/
def State.setA (s : State) (ad : AReg) (v : BitVec 32) : M State := do
  chk (!s.strideBound ad.toNat) .seqStrideWrite
  pure (s.modA fun a => { a with a := Sparse.set 0 a.a ad.toNat v, lat := pushLatch a.lat v })

/-! ### Queues (02 R62) -/

/-- A queue's elements, oldest first. -/
def State.queueOf (s : State) (q : Nat) : List Elem := Sparse.get [] s.core.a.q q
/-- Replace them. -/
def State.setQueueOf (s : State) (q : Nat) (l : List Elem) : State := s.modA fun a => { a with q := Sparse.set [] a.q q l }
/-- Push an element. -/
def State.pushQ (s : State) (q : Nat) (e : Elem) : State := s.setQueueOf q (s.queueOf q ++ [e])
/-- Pop an element. -/
def State.popQ (s : State) (q : Nat) : State := s.setQueueOf q (s.queueOf q).tail
/-- A queue's binding. -/
def State.qbind (s : State) (q : Nat) : Option QBind := Sparse.get none s.core.a.qb q
/-- Replace it. -/
def State.setQbind (s : State) (q : Nat) (b : Option QBind) : State := s.modA fun a => { a with qb := Sparse.set none a.qb q b }

/-! ### Vector operands (05 R164, R167; 07 R243-R246) -/

/-- The physical register a name refers to under the rotating base (14 R409). -/
def physV (rb n : Nat) : Nat := if n < 32 then n else 32 + (n - 32 + rb) % 32

/-- The rotating base at the vector engine's lane. -/
def State.rb (s : State) : Nat := (s.u.curLine .v).rb

/-- A physical vector register. -/
def State.vreg (s : State) (p : Nat) : VReg := Sparse.get VReg.zero s.core.v.v p

/-- What a read of a physical register gives: zero when it is dead (02 R73). -/
def State.readV (s : State) (p : Nat) : Elem := if (s.vreg p).live then (s.vreg p).el else Elem.zero

/-- Write a physical register, which becomes live. -/
def State.writeV (s : State) (p : Nat) (e : Elem) : State :=
  s.modV fun v => { v with v := Sparse.set VReg.zero v.v p ⟨true, e⟩ }

/-- The checks and waits of vector sources: filled latches, then an element in every named queue (05 R183, 02 R62). -/
def State.useV (s : State) (srcs : List VSrc) : M PUnit := do
  chk (srcs.all fun f => decide (f.toNat < 64) || decide (68 ≤ f.toNat) || decide (f.toNat - 64 < s.core.v.lat.length)) .latchEmpty
  holdUntil (srcs.all fun f => decide (f.toNat < 68) || decide (72 ≤ f.toNat) || !(s.queueOf (f.toNat - 68)).isEmpty)

/-- The value of a vector source. -/
def State.valV (s : State) (f : VSrc) : Elem :=
  if f.toNat < 64 then s.readV (physV s.rb f.toNat)
  else if f.toNat < 68 then (s.core.v.lat[f.toNat - 64]?).getD Elem.zero
  else ((s.queueOf (f.toNat - 68)).head?).getD Elem.zero

/-- The sources are read: each named queue pops once (05 R165), and a dead register sets GATED_READ (02 R73). -/
def State.takeV (s : State) (srcs : List VSrc) : State :=
  let qs := (srcs.filter fun f => decide (68 ≤ f.toNat)).map (fun f => f.toNat - 68) |>.eraseDups
  let t := qs.foldl State.popQ s
  if srcs.any fun f => decide (f.toNat < 64) && !(s.vreg (physV s.rb f.toNat)).live then t.stick (some .v) stGATED else t

/-- The register a destination names, physical. -/
def State.dstReg? (s : State) (d : VDst) : Option Nat := if d.toNat < 64 then some (physV s.rb d.toNat) else none

/-- The store queue a destination names (05 R167). -/
def dstQueue? (d : VDst) : Option Nat := if 65 ≤ d.toNat ∧ d.toNat ≤ 68 then some (d.toNat - 61) else none

/-- A full store queue holds the lane (02 R62). -/
def State.roomV (s : State) (d : VDst) : M PUnit :=
  match dstQueue? d with
  | some q => holdUntil (decide ((s.queueOf q).length < 16))
  | none => .ok ⟨⟩

/-- The previous contents a result starts from: the register's, zero bits for a latch or a queue (07 R243). -/
def State.oldV (s : State) (d : VDst) : Elem :=
  match s.dstReg? d with
  | some p => s.readV p
  | none => Elem.zero

/-- Write a result by Dst and into b0 (05 R167, R170). -/
def State.putV (s : State) (d : VDst) (r : Elem) : State :=
  let t := match s.dstReg? d, dstQueue? d with
    | some p, _ => s.writeV p r
    | none, some q => s.pushQ q r
    | none, none => s
  t.modV fun v => { v with lat := pushLatch v.lat r }

/-- Lanes(fmt) (07 R241). -/
def State.lanes (s : State) (c : Nat) : Nat := s.vlanes * 32 / fmtWidth c

/-- The vector engine's current shape register, in text order (07 R242). -/
def State.curShape (s : State) : Shape := (s.view .v).shape s.core.v.curSh.toNat

/-- Lane k is active: below the length in force for an operating format and enabled by the mask (07 R242, 02 R60). -/
def State.active (s : State) (c k : Nat) : Bool :=
  decide (k < min s.curShape.gvl.toNat (s.lanes c)) &&
  match s.core.v.mask with
  | [] => true
  | m :: _ => m.getLsbD k

/-- Format code of an element. -/
def Elem.code (e : Elem) : Nat := e.fmt.toNat

/-- Scale byte of segment `j`. -/
def Elem.scale (e : Elem) (j : Nat) : Nat := (e.scales.getD j 0x7F).toNat

/-- Lane `k` at width `w`. -/
def Elem.lane (e : Elem) (w k : Nat) : Nat := laneOf e.data w k

/-- Scale of the segment that holds lane `k` of width `w` (07 R241). -/
def Elem.laneScale (e : Elem) (w k : Nat) : Nat := e.scale (w * k / 512)

/-- Bytes padded to a register's 256. -/
def padData (d : Bytes) : Bytes := (d ++ List.replicate 256 0).take 256

/-- An element whose lanes of width `w` are given, the rest zero. -/
def mkElem (fmt : Byte) (scales : List Byte) (w : Nat) (ls : List Nat) : Elem := ⟨fmt, scales, padData (lanesToBytes w ls)⟩

/-- Every scale 0x7F. -/
def unitScales : List Byte := List.replicate 4 0x7F

/-- The scales of a half unit: bytes 2 and 3 read 0x7F (02 R59). -/
def State.fitScales (s : State) (l : List Byte) : List Byte :=
  if s.core.sys.full then l else l.take 2 ++ [0x7F, 0x7F]

end Sys2Proof.Machine
end

