-- ==== Sys2Proof/Machine/Text.lean ====
section
/-! DEFINITION. The dynamic text and its engines (01 R26-R39; 05 R151-R171): the lanes of a line, what a lane reads and
writes in text order, when a lane may begin, and one turn of an engine up to the instruction it executes. -/

namespace Sys2Proof.Machine

open Sys2Proof Host

/-- The control-source fields of a lane. -/
def laneCsrcs : Instr → List CSrc
  | .add _ s1 s2 => [s1, s2]
  | .addImm _ s1 _ => [s1]
  | .sub _ s1 s2 => [s1, s2]
  | .subImm _ s1 _ => [s1]
  | .mul _ s1 s2 => [s1, s2]
  | .mulImm _ s1 _ => [s1]
  | .mulhu _ s1 s2 => [s1, s2]
  | .mulhuImm _ s1 _ => [s1]
  | .mulhs _ s1 s2 => [s1, s2]
  | .mulhsImm _ s1 _ => [s1]
  | .divu _ s1 s2 => [s1, s2]
  | .divuImm _ s1 _ => [s1]
  | .divs _ s1 s2 => [s1, s2]
  | .divsImm _ s1 _ => [s1]
  | .remu _ s1 s2 => [s1, s2]
  | .remuImm _ s1 _ => [s1]
  | .rems _ s1 s2 => [s1, s2]
  | .remsImm _ s1 _ => [s1]
  | .and _ s1 s2 => [s1, s2]
  | .andImm _ s1 _ => [s1]
  | .or _ s1 s2 => [s1, s2]
  | .orImm _ s1 _ => [s1]
  | .xor _ s1 s2 => [s1, s2]
  | .xorImm _ s1 _ => [s1]
  | .andn _ s1 s2 => [s1, s2]
  | .andnImm _ s1 _ => [s1]
  | .shl _ s1 s2 => [s1, s2]
  | .shlImm _ s1 _ => [s1]
  | .shr _ s1 s2 => [s1, s2]
  | .shrImm _ s1 _ => [s1]
  | .sar _ s1 s2 => [s1, s2]
  | .sarImm _ s1 _ => [s1]
  | .rotl _ s1 s2 => [s1, s2]
  | .rotlImm _ s1 _ => [s1]
  | .min _ s1 s2 => [s1, s2]
  | .minImm _ s1 _ => [s1]
  | .max _ s1 s2 => [s1, s2]
  | .maxImm _ s1 _ => [s1]
  | .minu _ s1 s2 => [s1, s2]
  | .minuImm _ s1 _ => [s1]
  | .maxu _ s1 s2 => [s1, s2]
  | .maxuImm _ s1 _ => [s1]
  | .clz _ s1 => [s1]
  | .ctz _ s1 => [s1]
  | .popc _ s1 => [s1]
  | .sext _ s1 s2 => [s1, s2]
  | .sextImm _ s1 _ => [s1]
  | .zext _ s1 s2 => [s1, s2]
  | .zextImm _ s1 _ => [s1]
  | .sel _ s1 s2 s3 => [s1, s2, s3]
  | .cmp _ s1 s2 _ => [s1, s2]
  | .bc _ s1 s2 _ => [s1, s2]
  | .br s1 => [s1]
  | .callr s1 => [s1]
  | .ld _ s1 _ _ _ => [s1]
  | .st rt s1 _ _ => [rt, s1]
  | .amoAdd _ s1 s2 _ _ => [s1, s2]
  | .amoAnd _ s1 s2 _ _ => [s1, s2]
  | .amoOr _ s1 s2 _ _ => [s1, s2]
  | .amoXor _ s1 s2 _ _ => [s1, s2]
  | .amoMin _ s1 s2 _ _ => [s1, s2]
  | .amoMax _ s1 s2 _ _ => [s1, s2]
  | .amoXch _ s1 s2 _ _ => [s1, s2]
  | .amoCas _ s1 s2 s3 _ _ => [s1, s2, s3]
  | .acq _ s1 s2 _ => [s1, s2]
  | .rel _ s1 s2 _ => [s1, s2]
  | .bind s1 s2 s3 _ => [s1, s2, s3]
  | .unbind s1 s2 _ => [s1, s2]
  | .setShape _ s1 s2 s3 _ => [s1, s2, s3]
  | .thld _ s1 _ => [s1]
  | .thst _ s1 _ => [s1]
  | .thset _ _ s1 => [s1]
  | .seql _ s1 => [s1]
  | .seqs _ _ _ s1 => [s1]
  | .loopc _ _ s1 s2 => [s1, s2]
  | .foot _ _ s1 s2 s3 => [s1, s2, s3]
  | .region s1 s2 s3 s4 => [s1, s2, s3, s4]
  | .locq _ s1 => [s1]
  | .csrw _ s1 => [s1]
  | .trap s1 _ => [s1]
  | .waitmem _ s1 s2 _ => [s1, s2]
  | .scstopCyc s1 s2 s3 => [s1, s2, s3]
  | .scstopBeat s1 s2 s3 => [s1, s2, s3]
  | .scout _ s1 s2 s3 s4 _ => [s1, s2, s3, s4]
  | .scin _ s1 s2 s3 _ => [s1, s2, s3]
  | .scgo s1 s2 => [s1, s2]
  | .scown s1 s2 s3 => [s1, s2, s3]
  | .diaginjProd s1 s2 s3 => [s1, s2, s3]
  | .diaginjAcc s1 s2 s3 => [s1, s2, s3]
  | .diaginjVreg s1 s2 s3 => [s1, s2, s3]
  | .diaginjSpad s1 s2 s3 => [s1, s2, s3]
  | .tlbinv _ s1 s2 => [s1, s2]
  | .kissue _ s1 s2 => [s1, s2]
  | .sxfer _ s1 => [s1]
  | .cancel _ s1 _ => [s1]
  | .frameset s1 s2 _ => [s1, s2]
  | .amovCtrl _ e1 => [e1]
  | .vseed xs => [xs]
  | .vsplat _ xs _ => [xs]
  | .mmah _ _ _ _ _ _ _ e1 e2 => [e1, e2]
  | .mseed _ xs _ => [xs]
  | .xcopyLd _ _ _ _ e1 e2 e3 e4 => [e1, e2, e3, e4]
  | .xcopySt _ _ _ _ e1 e2 e3 e4 => [e1, e2, e3, e4]
  | .xcopys _ _ _ _ e1 e2 => [e1, e2]
  | .xcb _ _ _ _ e1 e2 e3 e4 => [e1, e2, e3, e4]
  | .xhost _ _ _ _ e1 e2 e3 => [e1, e2, e3]
  | .xpeer _ _ _ _ e1 => [e1]
  | .xcoll _ _ _ _ _ e1 e2 => [e1, e2]
  | .xgath _ _ _ _ _ e1 e2 => [e1, e2]
  | .xpf _ e1 e2 e3 e4 => [e1, e2, e3, e4]
  | _ => []

/-- The control destinations of a lane (05 R166; 07 R267). -/
def laneCdsts : Instr → List CReg
  | .add rd _ _ => [rd]
  | .addImm rd _ _ => [rd]
  | .sub rd _ _ => [rd]
  | .subImm rd _ _ => [rd]
  | .mul rd _ _ => [rd]
  | .mulImm rd _ _ => [rd]
  | .mulhu rd _ _ => [rd]
  | .mulhuImm rd _ _ => [rd]
  | .mulhs rd _ _ => [rd]
  | .mulhsImm rd _ _ => [rd]
  | .divu rd _ _ => [rd]
  | .divuImm rd _ _ => [rd]
  | .divs rd _ _ => [rd]
  | .divsImm rd _ _ => [rd]
  | .remu rd _ _ => [rd]
  | .remuImm rd _ _ => [rd]
  | .rems rd _ _ => [rd]
  | .remsImm rd _ _ => [rd]
  | .and rd _ _ => [rd]
  | .andImm rd _ _ => [rd]
  | .or rd _ _ => [rd]
  | .orImm rd _ _ => [rd]
  | .xor rd _ _ => [rd]
  | .xorImm rd _ _ => [rd]
  | .andn rd _ _ => [rd]
  | .andnImm rd _ _ => [rd]
  | .shl rd _ _ => [rd]
  | .shlImm rd _ _ => [rd]
  | .shr rd _ _ => [rd]
  | .shrImm rd _ _ => [rd]
  | .sar rd _ _ => [rd]
  | .sarImm rd _ _ => [rd]
  | .rotl rd _ _ => [rd]
  | .rotlImm rd _ _ => [rd]
  | .min rd _ _ => [rd]
  | .minImm rd _ _ => [rd]
  | .max rd _ _ => [rd]
  | .maxImm rd _ _ => [rd]
  | .minu rd _ _ => [rd]
  | .minuImm rd _ _ => [rd]
  | .maxu rd _ _ => [rd]
  | .maxuImm rd _ _ => [rd]
  | .clz rd _ => [rd]
  | .ctz rd _ => [rd]
  | .popc rd _ => [rd]
  | .sext rd _ _ => [rd]
  | .sextImm rd _ _ => [rd]
  | .zext rd _ _ => [rd]
  | .zextImm rd _ _ => [rd]
  | .sel rd _ _ _ => [rd]
  | .cmp rd _ _ _ => [rd]
  | .li rd _ => [rd]
  | .ld rt _ _ _ _ => [rt]
  | .amoAdd rd _ _ _ _ => [rd]
  | .amoAnd rd _ _ _ _ => [rd]
  | .amoOr rd _ _ _ _ => [rd]
  | .amoXor rd _ _ _ _ => [rd]
  | .amoMin rd _ _ _ _ => [rd]
  | .amoMax rd _ _ _ _ => [rd]
  | .amoXch rd _ _ _ _ => [rd]
  | .amoCas rd _ _ _ _ _ => [rd]
  | .acq rd _ _ _ => [rd]
  | .rel rd _ _ _ => [rd]
  | .getShape rd _ _ => [rd]
  | .thget rd _ _ => [rd]
  | .locq rd _ => [rd]
  | .csrr rd _ => [rd]
  | .waitmem rd _ _ _ => [rd]
  | .scout rd _ _ _ _ _ => [rd]
  | .scin rd _ _ _ _ => [rd]
  | .kissue rd _ _ => [rd]
  | .sxfer rd _ => [rd]
  | .cancel rd _ _ => [rd]
  | .vextr xd _ _ => [xd]
  | _ => []


/-! ### Registers a lane reads and writes in text order (01 R32) -/

/-- A register, or part of the state, that follows text order: a global scalar register, an entry of the physical file, the window,
handles, shapes, bindings, control registers, and the lease with the parked rows, from which grants are computed (02 R55). -/
inductive Loc where
  | x (n : Nat) | xf (n : Nat) | win | th (n : Nat) | sh (n : Nat) | ts (n : Nat) | cb (n : Nat) | slip | vsp | park | lease | status
  deriving DecidableEq, Repr

/-- What a register name stands for in a window: nothing for x0 (02 R46, R47). -/
def Shared.locX (v : Shared) (n : Nat) : List Loc := if n = 0 then [] else if n < 8 then [.x n] else [.xf (v.entry n)]

/-- Every shape register. -/
def allShapes : List Loc := (List.range 8).map Loc.sh

/-- Lanes that may set a bit of STATUS at their place: a counting flag that saturates, a dead register read, a TERN5 byte decoded
(02 R66, R73, R76). -/
def laneSticks (i : Instr) : Bool :=
  match i with
  | .finc .. => true
  | .apln .. => true
  | .region .. => true
  | .nop _ => false
  | .endE _ => false
  | .fwait .. => false
  | .fset .. => false
  | .kwait .. => false
  | .vskip _ => false
  | .vsetsh _ => false
  | .vminv => false
  | .vmpop _ => false
  | .vmget .. => false
  | .vli .. => false
  | .vsplat .. => false
  | .vseed _ => false
  | .vpopm .. => false
  | .vunpark _ => false
  | i => i.engine == some .v

/-- What a lane writes, besides control destinations (06 R215-R219, R230; 07 R273-R275; 08 R289, R294; 09 R326, R329). -/
def laneOtherWrites : Instr → List Loc
  | .setShape h _ _ _ _ => [.sh h.toNat]
  | .mlease _ _ => .lease :: .park :: allShapes
  | .mfree _ _ => .lease :: .park :: allShapes
  | .vpark _ => .park :: allShapes
  | .vunpark _ => .park :: allShapes
  | .thld h _ _ => [.th h.toNat]
  | .thset h _ _ => [.th h.toNat]
  | .atile t _ _ _ => [.ts t.toNat]
  | .acb c _ _ _ => [.cb c.toNat]
  | .frame _ => [.win]
  | .csrw csr _ => match csr.toNat with
    | 0x001 => [.status] | 0x011 => [.slip] | 0x012 => [.win] | 0x014 => [.vsp] | _ => []
  | .vpushm _ _ => [.vsp]
  | .vpopm _ _ => [.vsp]
  | _ => []

/-- What a lane writes, in the window at its place. -/
def laneWrites (v : Shared) (i : Instr) : List Loc :=
  ((laneCdsts i).flatMap fun d => v.locX d.toNat) ++ (if laneSticks i then [.status] else []) ++ laneOtherWrites i

/-- What a lane reads, besides control sources. -/
def laneOtherReads : Instr → List Loc
  | .getShape _ h _ => [.sh h.toNat]
  | .thst h _ _ => [.th h.toNat]
  | .thset h _ _ => [.th h.toNat]
  | .thget _ h _ => [.th h.toNat]
  | .csrr _ csr => match csr.toNat with
    | 0x001 => [.status] | 0x012 => [.win] | 0x013 => .park :: .lease :: allShapes | 0x014 => [.vsp] | _ => []
  | .setShape _ _ _ _ _ => [.lease, .park]
  -- the spill of a frame reads its entries (02 R49)
  | .frame _ => .win :: (List.range 256).map Loc.xf
  | .region _ _ _ _ => allShapes ++ (List.range 16).map Loc.th ++ (List.range 16).map Loc.ts ++ (List.range 8).map Loc.cb
  | .apln d t => [.ts d.toNat, .ts t.toNat]
  | .aunpln d t _ => [.ts d.toNat, .ts t.toNat]
  | .acbGet _ c => [.cb c.toNat]
  | .acbRel c => [.cb c.toNat]
  | .vpushm _ _ => [.vsp]
  | .vpopm _ _ => [.vsp]
  | .vpark _ => .lease :: .park :: allShapes
  | .vunpark _ => .lease :: .park :: allShapes
  | .mma a b h _ _ => [.ts a.toNat, .ts b.toNat, .sh h.toNat]
  | .mmah a b h _ _ _ s _ _ => [.ts a.toNat, .ts b.toNat, .th a.toNat, .th b.toNat, .ts s.toNat, .sh h.toNat]
  | .mmack a b h _ _ => [.ts a.toNat, .ts b.toNat, .sh h.toNat]
  | .mmabx a b h _ => [.ts a.toNat, .ts b.toNat, .sh h.toNat]
  | .mmaba a b h _ => [.ts a.toNat, .ts b.toNat, .sh h.toNat]
  | .mclr h _ => [.sh h.toNat]
  | .mclrAll h _ => [.sh h.toNat]
  | .mldacc a h _ => [.ts a.toNat, .sh h.toNat]
  | .mstacc a h _ _ => [.ts a.toNat, .sh h.toNat]
  | .mchk a h _ _ => [.ts a.toNat, .sh h.toNat]
  | .mlease _ _ => .lease :: .park :: allShapes
  | .mfree _ _ => .lease :: .park :: allShapes
  | .xcopyLd t h _ _ _ _ _ _ => [.ts t.toNat, .th h.toNat]
  | .xcopySt t h _ _ _ _ _ _ => [.ts t.toNat, .th h.toNat]
  | .xcopySs d t _ _ => [.ts d.toNat, .ts t.toNat]
  | .xcopys t h _ _ _ _ => [.ts t.toNat, .th h.toNat]
  | .xcb c h _ _ _ _ _ _ => [.cb c.toNat, .th h.toNat]
  | .xhost t _ _ _ _ _ _ => [.ts t.toNat]
  | .xpeer t _ _ _ _ => [.ts t.toNat]
  | .xcoll t _ _ _ _ _ _ => [.ts t.toNat]
  | .xgath _ h t _ _ _ _ => [.th h.toNat, .ts t.toNat]
  | .xpf h _ _ _ _ => [.th h.toNat]
  | _ => []

/-- What a lane reads, in the window at its place: control sources below the latches, the window when one of them or a
destination is windowed, the vector engine's current shape register for a vector lane (07 R242). -/
def laneReads (v : Shared) (i : Instr) (curSh : Nat) : List Loc :=
  let xs := (laneCsrcs i).filter fun f => decide (f.toNat < 32)
  let windowed := (xs.any fun f => decide (8 ≤ f.toNat)) || (laneCdsts i).any fun d => decide (8 ≤ d.toNat)
  (xs.flatMap fun f => v.locX f.toNat) ++ (if windowed then [.win] else []) ++
  (if i.engine = some .v then [.sh curSh] else []) ++ laneOtherReads i

/-- The scan segment that holds a register (17 R467). -/
def Loc.seg : Loc → Nat
  | .ts _ => 1
  | .cb _ => 1
  | .vsp => 2
  | .park => 2
  | _ => 0

/-- The scan segments, beside its engine's own, whose registers a lane may access: those of what it reads and writes in text order;
tokens and flags; the queues of vector lanes; what REGION, DIAGINJ.vreg and the flags of the vector engine name (02 R74, 17 R467). -/
def laneSegs (v : Shared) (i : Instr) (curSh : Nat) : List Nat :=
  ((laneReads v i curSh).map Loc.seg ++ (laneWrites v i).map Loc.seg ++
    (match i with
      | .finc .. => [0]
      | .fwait .. => [0]
      | .fset .. => [0]
      | .kwait .. => [0]
      | .csrr _ csr => if csr = 0x002 then [2] else []
      | .csrw csr _ => if csr = 0x002 then [2] else []
      | .region .. => [1, 2]
      | .diaginjVreg .. => [2]
      | i => match i.engine with
        | some .v => [1]
        | some .m => [0, 1]
        | some .x => [0, 1]
        | _ => [])).eraseDups

/-! ### The lanes of a line (05 R151-R161) -/

/-- A lane that is neither empty nor EXT: its number, kind, EXT run and word. -/
structure LaneText where
  n : Nat
  kind : Nat
  exts : List Nat
  word : Nat
  deriving DecidableEq, Repr

/-- The lanes of a line from lane `n` on, with the EXT run gathered so far. -/
def parseLanes (header : Nat) : Nat → List Nat → List Nat → List LaneText
  | _, [], _ => []
  | n, w :: ws, acc =>
    match header / 16 ^ (n - 1) % 16 with
    | 0 => parseLanes header (n + 1) ws acc
    | 6 => parseLanes header (n + 1) ws (acc ++ [w])
    | k => ⟨n, k, acc, w⟩ :: parseLanes header (n + 1) ws []

/-- The lanes of a line's words. -/
def lineLanes (ws : List Nat) : List LaneText := parseLanes (ws.headD 0) 1 ws.tail []

/-- Whether the last lanes of a line are an EXT run that extends nothing (05 R154). -/
def extDangling (header : Nat) : Nat → Bool
  | 0 => false
  | n + 1 => match header / 16 ^ n % 16 with
    | 0 => extDangling header n
    | 6 => true
    | _ => false

/-- The check of a line, in the order of 05 R154. -/
def lineCheck (header : Nat) : Option Cause :=
  if header / 2 ^ 28 % 8 ≠ 0 then some .headerFlags
  else if (List.range 7).any fun i => decide (7 ≤ header / 16 ^ i % 16) then some .reservedKind
  else if extDangling header 7 then some .extDangling
  else none

/-- The lane of an engine. -/
def LaneText.isFor (l : LaneText) (e : Engine) : Bool := l.kind == e.kind

/-- Lanes after which no engine begins until the control engine has executed them: the transfers (01 R34), LOOPB and LOOPC
(06 R222), REGION (06 R226). -/
def LaneText.isShadow (l : LaneText) : Bool :=
  l.kind == 1 && [0x20, 0x21, 0x22, 0x23, 0x24, 0x25, 0x4D, 0x4E, 0x42, 0x43, 0x47].contains (l.word / 2 ^ 24)

/-- A lane's opcode. -/
def LaneText.op (l : LaneText) : Nat := l.word / 2 ^ 24

/-- A lane's modifiers: those of the first EXT lane of kind 0b0001 in its run, whatever else the run breaks (05 R160). -/
def LaneText.mods (l : LaneText) : Mods :=
  match l.exts.find? fun w => w / 268435456 % 16 == 1 with
  | some w => Mods.ofBits w
  | none => Mods.none

/-- The words of a known line, when it can be fetched. -/
def State.wordsOf (s : State) (ln : LineInst) : Option (List Nat) :=
  match ln.held with
  | some ws => some ws
  | none => match s.fetch ln.addr with
    | .ok (_, bs) => some (lineWords bs)
    | .error _ => none

/-- The lanes of an engine that may still execute in a known line: none in a skipped iteration, none of the control engine's
once it has ended (01 R39). -/
def State.lanesIn (s : State) (ln : LineInst) (e : Engine) : List LaneText :=
  if (ln.iter.map Iter.skip).getD false || (e == .c && s.u.eC.ended) then []
  else match s.wordsOf ln with
    | some ws => (lineLanes ws).filter fun l => l.isFor e && decide (l.n < ln.lim)
    | none => []

/-! ### Issue in a loop (14 R407, R408) -/

/-- The indices for which a lane acts in its iteration, or none when it does not issue. -/
def modsIssue (m : Mods) : Option Iter → Option (List Nat)
  | none => some []
  | some it =>
    let t0 := it.trips.getD 0 0
    let st := m.stage.toNat
    let idx? := if it.stages < 2 then some it.idx
      else if st ≤ it.k ∧ it.k - st < t0 then some ((it.k - st) :: it.idx.tail) else none
    idx?.bind fun idx =>
      let at' (last : Bool) (n : Nat) : Bool :=
        let top := it.trips.getD n 0 - 1
        idx.getD n 0 == (if (it.ovr == some n) != last then top else 0)
      let lv := List.range (m.level.toNat + 1)
      if (m.first && !lv.all (at' false)) || (m.last && !lv.all (at' true)) then none else some idx

/-- LEVEL names no active level (05 R160). -/
def modsLevelBad (m : Mods) : Option Iter → Bool
  | none => false
  | some it => decide (it.trips.length ≤ m.level.toNat)

/-- FOOT and FOOTV. -/
def LaneText.isFoot (l : LaneText) : Bool := l.kind == 1 && (l.op == 0x45 || l.op == 0x46)

/-- The indices for which a lane issues, none when it does not. FIRST and LAST that R160 does not allow hold no lane back: it
begins, and traps. FOOT and FOOTV of an overwriting iteration have acted before it (14 R414). -/
def LaneText.issue (l : LaneText) (it : Option Iter) : Option (List Nat) :=
  let m := l.mods
  if l.isFoot && (it.bind Iter.ovr).isSome then none
  else if (m.first && m.last) || decide (5 < m.level.toNat) || modsLevelBad m it then
    modsIssue { m with first := false, last := false } it
  else modsIssue m it

/-- An EXT run whose modifier lane names a level that is not active: ext-misuse comes before the causes that follow it in 05
R183. -/
def levelCause (exts : List Nat) (it : Option Iter) (c : Cause) : Cause :=
  match readExts exts 0 Ext.none Mods.none false with
  | .ok (_, m, _) => if modsLevelBad m it && c != .illegalOpcode && c != .extKind then .extMisuse else c
  | .error _ => c

/-! ### When a lane may begin -/

/-- Global accesses of the matrix and copy engines, which an acquire or a fence holds back (10 R366, 06 R207). -/
def laneIsGlobal : Instr → Bool
  | .mmah .. => true
  | .xcopyLd .. => true | .xcopySt .. => true | .xcopys .. => true | .xcb .. => true | .xhost .. => true
  | .xpeer .. => true | .xcoll .. => true | .xgath .. => true
  | _ => false

/-- Commands whose writes reach device memory or a window (10 R372). -/
def laneIsGlobalWrite : Instr → Bool
  | .xcopySt .. => true | .xhost _ dir .. => dir | .xpeer _ dir .. => dir | .xcoll .. => true
  | _ => false

/-- Global stores of the control engine; those of SCOUT.mem are its own accesses (18 R481). -/
def laneStores : Instr → Bool
  | .st .. => true | .thst .. => true | .rel .. => true
  | .scout _ _ _ _ _ spad => !spad
  | .amoAdd .. => true | .amoAnd .. => true | .amoOr .. => true | .amoXor .. => true | .amoMin .. => true
  | .amoMax .. => true | .amoXch .. => true | .amoCas .. => true
  | _ => false

/-- Acquires and fences (10 R366, 06 R207). -/
def laneIsAcquire : Instr → Bool
  | .acq .. => true | .waitmem .. => true | .loopc .. => true | .fence .. => true
  | _ => false

/-- REGION, before which every engine executes all its lanes (06 R226). -/
def laneIsRegion : Instr → Bool
  | .region .. => true
  | _ => false

/-- FENCE, which waits for earlier global accesses of every engine (06 R207). REL waits for stores only, in its own meaning (R205). -/
def laneIsFence : Instr → Bool
  | .fence .. => true
  | _ => false

/-- How many lines ahead of the line it stands in an engine that skips passes over: all that are known, when its target is not
among them (01 R37). -/
def UnitCtx.skipped (u : UnitCtx) (q : EngPos) : Nat :=
  match q.skip with
  | none => 0
  | some k =>
    let ahead := u.text.drop (q.serial + 1 - u.base)
    match ahead.findIdx? fun ln => ln.addr == k.target with
    | some i => i + 1
    | none => ahead.length + 1

/-- The lanes of an engine that it has still to execute, before place `p`: each with its place, and decoded where it can be. -/
def State.pending (s : State) (o : Engine) (p : Nat) : List (Nat × Option Instr) :=
  let q := s.u.eng o
  if q.ended then []
  else
    let skip := s.u.skipped q
    (List.range (p / 8 + 1 - q.serial)).flatMap fun d =>
      if d < skip then []
      else match s.u.line? (q.serial + d) with
        | none => []
        | some ln => (s.lanesIn ln o).filterMap fun l =>
          let at' := (q.serial + d) * 8 + l.n
          if q.pos ≤ at' ∧ at' < p ∧ (l.issue ln.iter).isSome = true then
            some (at', match decodeInstr o l.exts l.word with
              | .ok (i, _) => some i
              | .error _ => none)
          else none

/-- The other engines. -/
def others (e : Engine) : List Engine := [Engine.c, .a, .v, .m, .x].filter fun o => o != e

/-- Every engine but `e` has executed its lanes before the line with serial number `n` (01 R31, R39). -/
def State.joined (s : State) (e : Engine) (n : Nat) : Bool :=
  (others e).all fun o => (s.u.eng o).ended || decide (n ≤ (s.u.eng o).serial) || (s.pending o (n * 8)).isEmpty

/-- The line that stands oldest among those that hold an unexecuted lane of another engine is fewer than SLIP lines behind
(01 R30). -/
def State.withinSlip (s : State) (e : Engine) (n : Nat) : Bool :=
  (others e).all fun o => (s.u.eng o).ended || decide (n < (s.u.eng o).serial + (s.view e).slip) ||
    (s.pending o ((n + 1 - (s.view e).slip) * 8)).isEmpty

/-- No lane before `n` in the line still waits for the control engine to fix the flow (01 R34). -/
def State.outOfShadow (s : State) (e : Engine) (ln : LineInst) (serial n : Nat) : Bool :=
  e == .c || s.u.eC.ended || (s.lanesIn ln .c).all fun l =>
    !(l.isShadow && decide (l.n < n) && decide (s.u.eC.pos ≤ serial * 8 + l.n))

/-- The engine may begin a lane of the line it stands in, whatever the lane is (01 R29-R31; 06 R226; 05 R160): the SLIP in force is
known and the line inside the window, a JOIN or REGION line is met, and the tokens that the lane's WAIT names, which segment C has
shifted in (02 R74), stand at zero. -/
def State.mayReach (s : State) (e : Engine) (ln : LineInst) (ws : List Nat) (l : LaneText) : Bool :=
  let p := s.u.eng e
  let meet := ws.headD 0 / 2 ^ 31 % 2 == 1 || (s.lanesIn ln .c).any fun c => c.op == 0x47
  (e == .c || (s.pending .c (p.serial * 8 + l.n)).all fun j => match j.2 with
    | some i => !(laneOtherWrites i).contains .slip
    | none => true) &&
  s.withinSlip e p.serial &&
  (!meet || s.joined e p.serial) &&
  (l.mods.wait == 0 || s.core.sys.shifting % 2 == 0) &&
  (List.range 8).all fun k => !l.mods.wait.getLsbD k || s.token k == 0

/-- An MFREE that stands before place `p` of the text is queued: the lease, the parked rows and the grants are still to change (08
R294). -/
def State.freeAhead (s : State) (p : Nat) : Bool :=
  !s.handling && s.core.c.mat.mq.any fun c => (match c.instr with | .mfree .. => true | _ => false) && decide (c.lane.place < p)

/-- What an MFREE changes: the lease, the parked rows, the grants. -/
def Loc.isGrant : Loc → Bool
  | .lease => true
  | .park => true
  | .sh _ => true
  | _ => false

/-- A decoded lane may begin (01 R32; 02 R74; 06 R226; 08 R294; 10 R366, R372): no earlier lane of another engine and no earlier MFREE
still has to write what it reads, no acquire or fence holds back its global access, no earlier store its global writes, and no segment that it accesses is
still shifting in. -/
def State.mayBegin (s : State) (e : Engine) (n : Nat) (i : Instr) : Bool :=
  let v := s.view e
  let need := laneReads v i s.core.v.curSh.toNat
  ((laneSegs v i s.core.v.curSh.toNat).all fun b => s.core.sys.shifting / 2 ^ b % 2 == 0) &&
  !(s.freeAhead ((s.u.eng e).serial * 8 + n) && need.any Loc.isGrant) &&
  (others e).all fun o => (s.pending o ((s.u.eng e).serial * 8 + n)).all fun x =>
    !laneIsRegion i &&
    match x.2 with
    | none => true
    | some j =>
      !((laneWrites (s.u.view x.1) j).any need.contains) && !(laneIsGlobal i && laneIsAcquire j) &&
      !(laneIsGlobalWrite i && laneStores j) && !(laneIsFence i && laneIsGlobal j)

/-- FRAME, which must be the first control lane at a call's target (02 R48). -/
def isFrame : Instr → Bool
  | .frame _ => true
  | _ => false

/-- A control lane whose immediate lies outside its limit (05 R169; 06 R190, R209-R213). -/
def laneImmBad : Instr → Bool
  | .shlImm _ _ n => decide (immS n < 0 ∨ 63 < immS n)
  | .shrImm _ _ n => decide (immS n < 0 ∨ 63 < immS n)
  | .sarImm _ _ n => decide (immS n < 0 ∨ 63 < immS n)
  | .rotlImm _ _ n => decide (immS n < 0 ∨ 63 < immS n)
  | .sextImm _ _ n => decide (immS n < 1 ∨ 64 < immS n)
  | .zextImm _ _ n => decide (immS n < 1 ∨ 64 < immS n)
  | .finc _ _ n => decide (0xFFFFFFFF < immU n)
  | .fwait _ _ _ n => decide (0xFFFFFFFF < immU n)
  | .fset _ _ n => decide (0xFFFFFFFF < immU n)
  | .kwait _ _ n => decide (63 < immU n)
  | _ => false

/-- Privileged control lanes, DIAGINJ aside (06 R188). -/
def lanePrivileged : Instr → Bool
  | .eret => true
  | .scstopCyc .. => true | .scstopBeat .. => true | .scout .. => true | .scin .. => true | .scgo .. => true | .scown .. => true
  | .tlbinv .. => true | .kissue .. => true | .sxfer .. => true | .cancel .. => true | .frameset .. => true
  | _ => false

/-- DIAGINJ (06 R236). -/
def laneInjects : Instr → Bool
  | .diaginjProd .. => true | .diaginjAcc .. => true | .diaginjVreg .. => true | .diaginjSpad .. => true
  | _ => false

/-- A control lane other than FRAME at a call's target traps with frame-missing, unless immediate-range, privilege or latch-empty
comes first (02 R48, 05 R183). -/
def State.frameCause (s : State) (i : Instr) : Option Cause :=
  if !s.u.callPending || isFrame i then none
  else if laneImmBad i then some .immediateRange
  else if !s.privileged && (lanePrivileged i || (laneInjects i && !s.core.c.csr.diagen)) then some .privilegedInstruction
  else if !(laneCsrcs i).all s.latchFilled then some .latchEmpty
  else some .frameMissing

/-! ### One turn of an engine -/

/-- What an engine's turn comes to: an instruction to execute in a state, or a step already taken. -/
inductive Todo where
  | run (i : Instr) (s : State)
  | done (o : Outcome State Fault Refusal)

/-- Put an engine at a lane of a line, as it passes lanes that are not its own; its latches are emptied when it passes a
group switch (05 R171). -/
def State.moveTo (s : State) (e : Engine) (serial n : Nat) (idx : List Nat) (sw : Bool) : State :=
  let p := s.u.eng e
  let t := s.setU (s.u.setEng e { p with serial := serial, lane := n, idx := idx })
  if sw then t.emptyLatches e else t

/-- A lane just after which every engine's latches are empty (05 R171): REGION that the control engine has executed, MLEASE and MFREE
that issue, also after the matrix engine's END (log 105). -/
def State.isSwitch (s : State) (ln : LineInst) (serial : Nat) (l : LaneText) : Bool :=
  !(ln.iter.map Iter.skip).getD false &&
  ((l.kind == 1 && l.op == 0x47 && decide (serial * 8 + l.n < s.u.eC.pos)) ||
   (l.kind == 4 && (l.op == 1 || l.op == 2) && (l.issue ln.iter).isSome))

/-- Whether an engine passes such a lane of others on its way through its line to lane `b`. -/
def State.passesSwitch (s : State) (e : Engine) (ln : LineInst) (ws : List Nat) (b : Nat) : Bool :=
  let p := s.u.eng e
  (lineLanes ws).any fun l => s.isSwitch ln p.serial l && decide (p.lane ≤ l.n) && decide (l.n < b)

/-- What the check of the line an engine stands in finds, when it is the first to reach it (05 R154). -/
def lineCause (ln : LineInst) (ws : List Nat) : Option Cause :=
  if ln.checked || (ln.iter.map Iter.skip).getD false then none else lineCheck (ws.headD 0)

/-- The line an engine stands in has been checked. -/
def State.markLine (s : State) (e : Engine) : State :=
  s.setU { s.u with text := s.u.text.modify ((s.u.eng e).serial - s.u.base) fun l => { l with checked := true } }

/-- The trap of the line an engine stands in: lane 0 of it (05 R184, 17 R457). -/
def State.lineTrap (s : State) (e : Engine) (ln : LineInst) (c : Cause) (v : Word) : State :=
  let at' := s.laneAt e
  s.takeTrap e c v 0 { at' with addr := ln.addr, ovr := false, place := (s.u.eng e).serial * 8 }

/-- Append a line to the known text. -/
def State.appendLine (s : State) (ln : LineInst) (front : Front) : State :=
  s.setU { s.u with text := s.u.text ++ [ln], front := front }

/-- The words of a line of text, fetched. -/
def State.fetchLine (s : State) (a : Nat) : M (State × List Nat) := do
  let (t, bs) ← s.fetch a
  pure (t, lineWords bs)

/-- Extend the text by the next line: fetched by the transfer to it, or now; a fault is then reported at the line (17 R465). -/
def State.extend (s : State) (e : Engine) : Outcome State Fault Refusal :=
  match s.u.front with
  | .boundary => .next s
  | .line a sw held =>
    match (match held with | some ws => .ok (s, ws) | none => s.fetchLine a : M (State × List Nat)) with
    | .ok (t, ws) => .next (t.appendLine ⟨a, 8, sw, s.core.v.rb, none, false, some ws⟩ (.line (a + 32) false none))
    | .error (.fault f) => .fault f
    | .error (.trap c v _) =>
      .next (s.takeTrap e c v 0 ⟨a, [0, 0, 0, 0, 0, 0], false, (s.u.base + s.u.text.length) * 8⟩)
    | .error _ => .next s

/-- Lanes over which a taken VSKIP may not pass (01 R38): transfers and REGION until the control engine has ended, the vector engine's
END. -/
def State.stopsSkip (s : State) (l : LaneText) : Bool :=
  (l.kind == 1 && !s.u.eC.ended && [0x20, 0x21, 0x22, 0x23, 0x24, 0x25, 0x4D, 0x4E, 0x47].contains l.op) ||
  (l.kind == 3 && l.op == 0xF8)

/-- A line of an iteration of an overwriting loop. -/
def LineInst.ovrIter (ln : LineInst) : Bool := (ln.iter.bind fun i => i.ovr).isSome

/-- The loop that the text has come to overwrites. -/
def State.overLoop (s : State) : Bool := match s.core.c.seq.loop with | some l => l.ovr.isSome | none => false

/-- The boundary between two lines is one of an overwriting loop, which acts as a JOIN line (14 R413). -/
def boundaryJoins (ln nx : LineInst) : Bool := nx.sw && (ln.ovrIter || nx.ovrIter)

/-- The vector engine passes the line it stands in on its way to a skip's target, or traps (01 R37, R38). It waits for a LOOPB or
LOOPC there, which fixes what text follows (06 R222). A lane that a skip must not pass is reported before the line is checked (DEDUCED,
log 141). -/
def State.skipLine (s : State) (ln : LineInst) (ws : List Nat) (k : Skip) : Outcome State Fault Refusal :=
  let p := s.u.eV
  let origin := (s.u.line? k.serial).getD LineInst.none
  let bad : Outcome State Fault Refusal :=
    .next (s.takeTrap .v .skipRange 0 0
      ⟨origin.addr + 4 * k.lane, (k.idx ++ List.replicate 6 0).take 6, false, k.serial * 8 + k.lane⟩)
  if (lineLanes ws).any (fun l => s.stopsSkip l && decide (p.lane ≤ l.n) && decide (l.n < ln.lim)) ||
      (p.serial != k.serial && ws.headD 0 / 2 ^ 31 % 2 == 1) then bad
  else if !s.outOfShadow .v ln p.serial 8 then .next s
  else match lineCause ln ws with
    | some c => .next (s.lineTrap .v ln c 0)
    | none =>
      match s.u.line? (p.serial + 1) with
      | none => if s.u.front = .boundary ∧ s.overLoop = true then bad else s.extend .v
      | some nx =>
        if boundaryJoins ln nx then bad
        else
          let t := (s.markLine .v).moveTo .v (p.serial + 1) 1 [] nx.sw
          .next (if nx.addr = k.target then t.setU { t.u with eV := { t.u.eV with skip := none } } else t)

/-- An engine whose lanes in its line are done goes on to the next line, once no transfer of the line is open (01 R34). A JOIN line
without a lane of its own holds it not (DESIGN CHOICE, log 104). -/
def State.leaveLine (s : State) (e : Engine) (ln : LineInst) (ws : List Nat) : Outcome State Fault Refusal :=
  let p := s.u.eng e
  if !s.outOfShadow e ln p.serial 8 then .next s
  else match lineCause ln ws with
    | some c => .next (s.lineTrap e ln c 0)
    | none =>
      match s.u.line? (p.serial + 1) with
      | none => s.extend e
      | some nx => .next ((s.markLine e).moveTo e (p.serial + 1) 1 [] (nx.sw || s.passesSwitch e ln ws ln.lim))

/-- Whether an engine of the core in focus can move: its segment does and no trap waits (17 R456, R467, R470). A lamplighter has a
control engine only (01 R14). -/
def State.canMove (s : State) (e : Engine) : Bool :=
  let seg := match e with | .c => 0 | .m => 0 | .a => 1 | .v => 2 | .x => 3
  s.segRuns seg && s.core.c.pend.isNone && !(s.u.eng e).ended && (e == .c || decide (s.cur < 512))

/-- An engine comes to lane `l` of its line: it passes a lane that does not issue, waits, or begins the lane: then the line is
checked, and the lane runs or traps. -/
def State.reachLane (s : State) (e : Engine) (ln : LineInst) (ws : List Nat) (l : LaneText) : Todo :=
  let p := s.u.eng e
  if !s.outOfShadow e ln p.serial l.n then .done (.next s)
  else
    let s := s.moveTo e p.serial l.n [] (s.passesSwitch e ln ws l.n)
    match l.issue ln.iter with
    | none => .done (.next (s.advance e))
    | some idx =>
      let s := s.moveTo e p.serial l.n idx false
      let d := decodeInstr e l.exts l.word
      let free := s.mayReach e ln ws l && match d with
        | .ok (i, _) => s.mayBegin e l.n i
        | .error _ => true
      if !free then .done (.next s)
      else match lineCause ln ws with
        | some c => .done (.next (s.lineTrap e ln c 0))
        | none =>
          let s := if ln.checked then s else s.markLine e
          let fail (c : Cause) : Todo := .done (.next (s.takeTrap e c 0 0 (s.laneAt e)))
          match d with
          | .error c => fail (levelCause l.exts ln.iter c)
          | .ok (i, m) =>
            if modsLevelBad m ln.iter then fail .extMisuse
            else match if e == .c then s.frameCause i else none with
              | some c => fail c
              | none => .run i s

/-- One turn of an engine of the core in focus: it passes lanes that are not its own, and comes to its next lane, which it begins
or which holds it. -/
def State.engineTurn (s : State) (e : Engine) : Todo :=
  if !s.canMove e then .done (.next s)
  else
    let p := s.u.eng e
    match s.u.line? p.serial with
    | none => .done (s.extend e)
    | some ln =>
      match (match ln.held with | some ws => .ok (s, ws) | none => s.fetchLine ln.addr : M (State × List Nat)) with
      | .error (.fault f) => .done (.fault f)
      | .error (.trap c v _) => .done (.next (s.lineTrap e ln c v))
      | .error _ => .done (.next s)
      | .ok (s, ws) =>
        match p.skip with
        | some k => .done (s.skipLine ln ws k)
        | none =>
          match (s.lanesIn ln e).find? fun l => decide (p.lane ≤ l.n) with
          | none => .done (s.leaveLine e ln ws)
          | some l => s.reachLane e ln ws l

/-! ### Time (log 6) -/

/-- The clock of a die in MHz (20 R516). -/
def State.clockOf (s : State) (die : Nat) : Nat := Sparse.get 1800 s.dev.clock die

/-- `n` cycles of the die of the core in focus pass, and the other dies count theirs in the same time, each at its own clock (20 R516);
the rotation's holds end at their limit (08 R290). -/
def State.elapse (s : State) (n : Nat) : State :=
  let f := s.clockOf (dieOf s.cur)
  (s.modDev fun d => { d with
    cyc := (List.range 8).foldl (fun m k => Sparse.set 0 m k (Sparse.get 0 m k + n * 1000000 * s.clockOf k / f)) d.cyc
    now := d.now + n * 1000000 / f }).expireHolds

/-- The line that holds one lone word in lane 1, as the kind its engine gives it (05 R151-R153). -/
def loneLine (w : Nat) : Bytes := natLe 4 (tableEngine w).kind ++ natLe 4 w ++ natLe 24 0

/-- The core in focus set to execute one lone word next: a unit of world 15 whose text is one line at address 0 with the word
in lane 1, the line known and checked, its engine's turn next. It stands for the loading of a program from outside (log
16). -/
def State.placeWord (s : State) (nbits w : Nat) : State :=
  let word := w % 2 ^ nbits
  let t := s.modMem fun m => { m with mem := Memory.writes m.mem 0 (loneLine word),
                                      key := m.key.filter fun k => decide (32 ≤ k.1) }
  let t := t.modC fun c => { c with busy := true, pend := none, u := { UnitCtx.reset with
    text := [⟨0, 8, false, 0, none, true, none⟩], front := .line 32 false none } }
  { t with agenda := [.lane t.cur (tableEngine word)] }

end Sys2Proof.Machine
end

