-- ==== Sys2Proof/Machine/Shapes.lean ====
section
/-! DEFINITION. Lease geometry, grants and parking rows (02 R53-R57, R67, R79; 08 R276). -/

namespace Sys2Proof.Machine

open Sys2Proof

/-- The masks a lease may have (08 R277). -/
def leaseMasks : List Nat := [0x1, 0x2, 0x4, 0x8, 0x3, 0xC, 0x5, 0xA, 0xF]

/-- H of a lease (08 R276). -/
def geoH (mask : Nat) : Nat := if (hasQuad mask 0 && hasQuad mask 2) || (hasQuad mask 1 && hasQuad mask 3) then 256 else 128
/-- W of a lease. -/
def geoW (mask : Nat) : Nat := if (hasQuad mask 0 && hasQuad mask 1) || (hasQuad mask 2 && hasQuad mask 3) then 256 else 128

/-- The geometry row of a quadrant's first row. -/
def rowBase (mask q : Nat) : Nat := if geoH mask = 256 ∧ 2 ≤ q then 128 else 0
/-- The geometry column of its first column. -/
def colBase (mask q : Nat) : Nat := if geoW mask = 256 ∧ q % 2 = 1 then 128 else 0

/-- The quadrant and its row and column at a geometry cell (08 R276). -/
def geoCell (mask i j : Nat) : Nat × Nat × Nat :=
  match (List.range 4).find? fun q => hasQuad mask q && decide (rowBase mask q ≤ i ∧ i < rowBase mask q + 128) &&
      decide (colBase mask q ≤ j ∧ j < colBase mask q + 128) with
  | some q => (q, i - rowBase mask q, j - colBase mask q)
  | none => (0, 0, 0)

/-- Whether a geometry row is parked: any of its quadrant rows holds a register (02 R53). -/
def Lantern.geoParked (l : Lantern) (mask i : Nat) : Bool :=
  (leaseQuads mask).any fun q => decide (rowBase mask q ≤ i ∧ i < rowBase mask q + 128) && (l.quad q).rowParked (i - rowBase mask q)

/-- ParkedRows: H minus the lowest parked geometry row (02 R53). -/
def Lantern.parkedRows (l : Lantern) (mask : Nat) : Nat :=
  match (List.range (geoH mask)).find? (l.geoParked mask) with
  | some i => geoH mask - i
  | none => 0

/-- RoundDown8. -/
def down8 (n : Nat) : Nat := n / 8 * 8
/-- RoundUp8. -/
def up8 (n : Nat) : Nat := (n + 7) / 8 * 8
/-- RoundUp64. -/
def up64 (n : Nat) : Nat := (n + 63) / 64 * 64

/-- The largest GM a lease grants now. -/
def Lantern.capM (l : Lantern) (mask : Nat) : Nat := if mask = 0 then 0 else down8 (geoH mask - l.parkedRows mask)
/-- The largest GN. -/
def capN (mask : Nat) : Nat := if mask = 0 then 0 else geoW mask

/-- The grant of a request under a lease mask, 0 for none (02 R53; log 123). -/
def State.grant (s : State) (mask : Nat) (h : Shape) : Shape :=
  { h with gm := BitVec.ofNat 16 (min (up8 h.rm.toNat) (s.lantern.capM mask)),
           gn := BitVec.ofNat 16 (min (up8 h.rn.toNat) (capN mask)),
           gk := BitVec.ofNat 16 (min h.rk.toNat 4096),
           gvl := BitVec.ofNat 9 (min h.rm.toNat (s.vlanes * 32 / max 8 (fmtWidth h.afmt.toNat))) }

/-- Recompute all eight grants at the lane of an engine (02 R55; log 123). -/
def State.regrant (s : State) (e : Engine) : State :=
  (List.range 8).foldl (fun t i =>
    let h := (s.view e).shape i
    -- an unwritten register requests nothing (02 R82)
    if h = Shape.zero then t else t.write e (.sh i (t.grant t.core.c.mat.lease h))) s

/-- The largest GM among the unit's shape registers at an engine's lane (02 R67). -/
def State.maxGM (s : State) (e : Engine) : Nat := (List.range 8).foldl (fun m i => max m ((s.view e).shape i).gm.toNat) 0

/-- A free quadrant row under R67. -/
def State.rowFree (s : State) (e : Engine) (mask q r : Nat) : Bool :=
  !(s.lantern.quad q).rowParked r && decide (s.maxGM e ≤ rowBase mask q + r)

/-- The quadrant rows of a lease, highest geometry row first, its quadrants in ascending number (02 R67). -/
def leaseRows (mask : Nat) : List (Nat × Nat) :=
  (List.range (geoH mask)).reverse.flatMap fun i =>
    ((leaseQuads mask).filter fun q => decide (rowBase mask q ≤ i ∧ i < rowBase mask q + 128)).map fun q => (q, i - rowBase mask q)

/-- The rows that hold registers of the unit in focus. -/
def State.ownRow (s : State) (q r : Nat) : Bool :=
  (List.range 4).any fun i => match Sparse.get none (s.lantern.quad q).parked (4 * r + i) with
    | some p => p.isOf (s.cur % 4) s.core.unit
    | none => false

/-- PARKST (02 R79), as it stands at an engine's lane. -/
def State.parkst (s : State) (e : Engine) : Word :=
  let own := ((List.range 4).flatMap fun q => (List.range 128).filter (s.ownRow q)).length
  let free := if s.core.c.mat.lease = 0 then 0
    else ((leaseRows s.core.c.mat.lease).filter fun x => s.rowFree e s.core.c.mat.lease x.1 x.2).length
  BitVec.ofNat 64 (own * 2 ^ 10 + free)

/-- CAPCLS (01 R25); a quadrant fenced while the unit runs is gone from it at once (log 99). A lamplighter has neither lanes nor a
lantern: its fields are free (log 119). -/
def State.capcls (s : State) : Word :=
  let q := s.lantern.live
  BitVec.ofNat 64 (if s.cur < 512 then s.vlanes + q * 2 ^ 8 + quadCount q * 2 ^ 12 + s.cur % 4 * 2 ^ 15 + s.cur / 4 * 2 ^ 17
    else Config.lampClass s.cur % 2 ^ 24)

end Sys2Proof.Machine
end

