-- ==== Sys2Proof/Machine/Handles.lean ====
section
/-! DEFINITION. Shape registers and tensor handles (02 R51-R57; 06 R215-R219). -/

namespace Sys2Proof.Machine

open Sys2Proof Host

/-- SETSHAPE sh, s1, s2, s3, fmt: the request, then its grant (06 R215, 02 R53; log 123). -/
def execSetShape (h : ShReg) (s1 s2 s3 : CSrc) (fmt : BitVec 7) (s : State) : Outcome State Fault Refusal :=
  lane .c s do
    s.useC [s1, s2, s3] []
    let m := s.valC s1
    let n := s.valC s2
    let k := s.valC s3
    chk (decide (m.toNat ≤ 65535 ∧ n.toNat ≤ 65535 ∧ k.toNat ≤ 65535)) .shapeRequest
    chk (fmtOk fmt.toNat && fmt.toNat != 0) .shapeFormat
    let r : Shape := { Shape.zero with rm := m.setWidth 16, rn := n.setWidth 16, rk := k.setWidth 16, afmt := fmt.setWidth 8 }
    pure (s.write .c (.sh h.toNat (s.grant s.core.c.mat.lease r)))

/-- What GETSHAPE reads of a shape register (06 R216). -/
def Shape.sel (h : Shape) (sl : Nat) : Word :=
  match sl with
  | 0 => h.gm.setWidth 64
  | 1 => h.gn.setWidth 64
  | 2 => h.gk.setWidth 64
  | 3 => h.gvl.setWidth 64
  | _ => BitVec.ofNat 64 (h.gm.toNat + h.gn.toNat * 2 ^ 16 + h.gk.toNat * 2 ^ 32 + h.gvl.toNat * 2 ^ 48)

/-- GETSHAPE rd, sh, sel (06 R216). -/
def execGetShape (rd : CReg) (h : ShReg) (sl : BitVec 3) (s : State) : Outcome State Fault Refusal :=
  lane .c s do
    s.useC [] [rd]
    pure (s.setRd rd (((s.view .c).shape h.toNat).sel sl.toNat))

/-! ### Handles -/

/-- The place of a field in a handle: lowest bit and width (02 R51, 06 R218). -/
def handleField (fs : Nat) : Nat × Nat :=
  match fs with
  | 0 => (0, 56) | 1 => (56, 2) | 2 => (58, 1) | 3 => (59, 1) | 4 => (60, 12)
  | 5 => (72, 20) | 6 => (92, 20) | 7 => (112, 20) | 8 => (132, 20)
  | 9 => (152, 24) | 10 => (176, 24) | 11 => (200, 24)
  | 12 => (224, 4) | 13 => (228, 4) | _ => (232, 24)

/-- The value of a field. -/
def thField (h : BitVec 256) (fs : Nat) : Nat := h.toNat / 2 ^ (handleField fs).1 % 2 ^ (handleField fs).2

/-- A handle with one field replaced. -/
def thWith (h : BitVec 256) (fs v : Nat) : BitVec 256 :=
  let (lo, w) := handleField fs
  BitVec.ofNat 256 (h.toNat - thField h fs * 2 ^ lo + v % 2 ^ w * 2 ^ lo)

/-- BASE. -/
def thBase (h : BitVec 256) : Nat := thField h 0
/-- The number of dimensions, RANK + 1. -/
def thRank (h : BitVec 256) : Nat := thField h 1 + 1
/-- VALID. -/
def thValid (h : BitVec 256) : Bool := thField h 3 == 1
/-- SPARSE. -/
def thSparse (h : BitVec 256) : Bool := thField h 2 == 1
/-- KEY. -/
def thKey (h : BitVec 256) : Nat := thField h 4
/-- The extent of dimension `d`. -/
def thExt (h : BitVec 256) (d : Nat) : Nat := thField h (5 + d) + 1
/-- The stride of dimension `d`, from 1 to 3, in 64-byte blocks. -/
def thStride (h : BitVec 256) (d : Nat) : Nat := thField h (8 + d)

/-- The check of a handle that would hold VALID = 1 (06 R219). -/
def thOk (h : BitVec 256) : Bool :=
  !thValid h || (decide (thBase h % 64 = 0 ∧ thField h 12 ≤ 5 ∧ thField h 13 ≤ 5) &&
    (List.range 4).all fun d => decide (d < thRank h) ||
      (thField h (5 + d) == 0 && (d == 0 || thStride h d == 0)))

/-- The address of THLD and THST (06 R217). -/
def State.handleAddr (s : State) (s1 : CSrc) (off : BitVec 7) : Word := s.valC s1 + BitVec.ofNat 64 (32 * off.toNat)

/-- THLD th, [s1 + 32·off] (06 R217, R219). -/
def execThld (h : ThReg) (s1 : CSrc) (off : BitVec 7) (s : State) : Outcome State Fault Refusal :=
  lane .c s do
    s.useC [s1] []
    let (t, v) ← s.loadG (s.handleAddr s1 off) 32
    let x := BitVec.ofNat 256 v
    chk (thOk x) .handleFormat
    pure (t.write .c (.th h.toNat x))

/-- THST th, [s1 + 32·off] (06 R217). -/
def execThst (h : ThReg) (s1 : CSrc) (off : BitVec 7) (s : State) : Outcome State Fault Refusal :=
  lane .c s do
    s.useC [s1] []
    s.storeG (s.handleAddr s1 off) 32 ((s.view .c).handle h.toNat).toNat

/-- THSET th, field, s1 (06 R217-R219). -/
def execThset (h : ThReg) (fs : BitVec 7) (s1 : CSrc) (s : State) : Outcome State Fault Refusal :=
  lane .c s do
    s.useC [s1] []
    let v := (s.valC s1).toNat
    chk (decide (v < 2 ^ (handleField fs.toNat).2)) .handleField
    let x := thWith ((s.view .c).handle h.toNat) fs.toNat v
    chk (thOk x) .handleFormat
    pure (s.write .c (.th h.toNat x))

/-- THGET rd, th, field (06 R217, R218). -/
def execThget (rd : CReg) (h : ThReg) (fs : BitVec 7) (s : State) : Outcome State Fault Refusal :=
  lane .c s do
    s.useC [] [rd]
    pure (s.setRd rd (BitVec.ofNat 64 (thField ((s.view .c).handle h.toNat) fs.toNat)))

end Sys2Proof.Machine
end

