-- ==== Sys2Proof/Machine/Region.lean ====
section
/-! DEFINITION. Regions (06 R226; 17 R475, R478): the layout of a saved vector register, the region record, the region shadow,
and what a restart reads back of them. -/

namespace Sys2Proof.Machine

open Sys2Proof Host

/-! ### Vector registers in memory (07 R275) -/

/-- Bytes of payload: 256 on a full unit, 128 on a half unit. -/
def State.payload (s : State) : Nat := s.vlanes * 4

/-- A saved register: `n` bytes of payload, format byte, four scales, three zero bytes. -/
def packElem (n : Nat) (e : Elem) : Bytes := e.data.take n ++ [e.fmt] ++ (e.scales ++ unitScales).take 4 ++ [0, 0, 0]

/-- A register as the core in focus saves it. -/
def State.packV (s : State) (e : Elem) : Bytes := packElem s.payload e

/-- Read back a register saved with `n` bytes of payload. A half unit keeps the first half of what a full unit has saved, and a
full unit zero above what a half unit has saved (DESIGN CHOICE, log 106). -/
def State.unpackAt (s : State) (n : Nat) (bs : Bytes) : Elem :=
  ⟨bs.getD n 0, s.fitScales ((bs.drop (n + 1)).take 4), padData ((bs.take n).take s.payload)⟩

/-- Read a saved register back. -/
def State.unpackV (s : State) (bs : Bytes) : Elem := s.unpackAt s.payload bs

/-- Where a physical register is parked. -/
def State.parkAt (s : State) (p : Nat) : Option ParkAt := Sparse.get none s.core.v.park p

/-- A parked register's copy in its quadrant row (07 R273), `n` bytes: slot i takes cells 32i to 32i + 31 (log 25). -/
def Lantern.parkedElem (l : Lantern) (n : Nat) (a : ParkAt) : Elem :=
  let d := l.quad a.quad
  match Sparse.get none d.parked (4 * a.row + a.slot) with
  | none => Elem.zero
  | some k => ⟨k.fmt, k.scales, padData ((List.range (n / 8)).flatMap fun i =>
      natLe 8 (Sparse.get 0 d.acc (128 * a.row + 32 * a.slot + i)).toNat)⟩

/-- That of a register of the core in focus. -/
def State.parkedCopy (s : State) (a : ParkAt) : Elem := s.lantern.parkedElem s.payload a

/-! ### The record (17 R475) -/

/-- A little-endian field of a record. -/
def recField (r : Bytes) (off n : Nat) : Nat := leNat ((r.drop off).take n)

/-- Where the record stands. -/
def regionRecord : Nat := 0x1FE000

/-- Registers a record may name: 27, or 52 on a half unit. -/
def State.regionMax (s : State) : Nat := if s.core.sys.full then 27 else 52

/-- The register numbers a v-mask names, ascending. -/
def maskNames (m : Word) : List Nat := (List.range 64).filter fun i => m.getLsbD i

/-- The contents of v register `n` as the record takes them: a parked register's copy (02 R67), zero when dead (R73). -/
def State.regionV (s : State) (n : Nat) : Elem :=
  let p := physV (s.u.curLine .c).rb n
  match s.parkAt p with
  | some a => s.parkedCopy a
  | none => s.readV p

/-- Whether the record reads a dead register (02 R73). -/
def State.regionGated (s : State) (n : Nat) : Bool :=
  let p := physV (s.u.curLine .c).rb n
  (s.parkAt p).isNone && !(s.vreg p).live

/-- The record's 8 KiB. -/
def State.record (s : State) (line base len xm : Nat) (vm : Word) : Bytes :=
  let v := s.view .c
  let xs := (List.range 31).flatMap fun i =>
    natLe 8 (if i < 7 ∨ xm / 2 ^ (i + 1) % 2 = 1 then (v.x (i + 1)).toNat else 0)
  let ths := (List.range 16).flatMap fun i => natLe 32 (v.handle i).toNat
  let shs := (List.range 8).flatMap fun i =>
    let h := v.shape i
    natLe 2 h.rm.toNat ++ natLe 2 h.rn.toNat ++ natLe 2 h.rk.toNat ++ [h.afmt, 0]
  let gens := natLe 8 s.core.v.gen.toNat ++ (List.range 4).flatMap fun q =>
    natLe 8 (Sparse.get 0 s.core.c.mat.qgen q).toNat
  let head := natLe 8 line ++ natLe 4 xm ++ natLe 8 vm.toNat ++ natLe 4 base ++ natLe 4 len ++ natLe 1 v.slip ++ natLe 3 0
  let body := head ++ xs ++ ths ++ shs ++ gens ++ List.replicate 128 0
  (body ++ (maskNames vm).flatMap (fun n => s.packV (s.regionV n)) ++ List.replicate 8192 0).take 8192

/-- The live range of a record: base and length. -/
def recLive (r : Bytes) : Nat × Nat := (recField r 20 4, recField r 24 4)

/-! ### Region pre-emption (17 R476, 01 R44, 10 R374) -/

/-- The unit on a core may be pre-empted: it is no unit of world 15, its handler does not run, and its open region has performed
no access of 10 R374. -/
def Core.mayLeave (c : Core) : Bool :=
  c.c.busy && c.sys.saved.isNone && c.c.u.lid.isSome && c.c.u.world != 15 && (c.c.seq.region.isNone || !c.c.seq.guarded)

/-- Bytes `v` of a record put at offset `o`. -/
def putRec (r : Bytes) (o : Nat) (v : Bytes) : Bytes := (r.take o ++ v ++ r.drop (o + v.length)).take 8192

/-- The region record of the unit on a core, each register that it names live-in and that is parked now copied into it (02 R67). -/
def Core.fullRecord (c : Core) (l : Lantern) : Bytes :=
  let r := Memory.reads c.spad regionRecord 8192
  let n := if c.sys.full then 256 else 128
  if c.c.seq.region.isNone then r
  else (maskNames (BitVec.ofNat 64 (recField r 12 8))).zipIdx.foldl (fun r x =>
    match Sparse.get none c.v.park (physV c.c.seq.regionRb x.1) with
    | some a => putRec r (1024 + (n + 8) * x.2) (packElem n (l.parkedElem n a))
    | none => r) r

/-- What a region pre-emption keeps of the unit on a core of a lantern. -/
def Core.toRestart (c : Core) (l : Lantern) (n lid : Nat) : Restart :=
  let r := c.fullRecord l
  let (base, len) := recLive r
  let u := c.unit
  ⟨n, lid, u.idx, u.run, u.world, c.c.seq.region, r, c.c.seq.shadow, Memory.reads c.spad base len,
   Sparse.getMany Desc.zero c.tag (base / 64) (len / 64), c.c.seq.everGuarded,
   if c.c.seq.region.isSome then c.c.seq.takenAt else [], u.grans, c.sys.full⟩

/-- The unit on a core leaves it, to be restarted: everything but the record, the shadow and the live range is discarded, its
lease and its parked rows are freed. -/
def State.preemptUnit (s : State) (n : Nat) : State :=
  let c := s.coreAt n
  match c.unit.lid.bind s.launch? with
  | none => s
  | some l =>
    let r := c.toRestart (s.lanternAt (n / 4)) n l.lid
    let t := (s.clearCore n).setLaunch { l with placed := l.placed.filter fun p => !(p.idx == r.idx && p.run == r.run) }
    t.modDev fun d => { d with waiting := d.waiting ++ [r] }

/-- The units that leave with core `n`'s all may, and each stands on its core; no leased quadrant of theirs is stopped (18 R482). -/
def State.allLeave (s : State) (n : Nat) : Bool :=
  !(s.leavers n).isEmpty && (s.leavers n).all fun m => !(s.focus m).quadStopped &&
    (m == n || ((s.coreAt m).mayLeave && (s.coreAt m).unit.lid == (s.coreAt n).unit.lid))

/-- Region pre-emption of the unit on a core, with its gang. -/
def State.preempt (s : State) (n : Nat) : State := (s.leavers n).foldl State.preemptUnit s

/-- The unit on a core stays for the rotation: a gang's, or one of world 15. -/
def State.testWaits (s : State) (n : Nat) : Bool :=
  (s.coreAt n).unit.world == 15 || match (s.coreAt n).unit.lid.bind s.launch? with | some l => l.gang | none => false

/-- The unit on a core leaves it at its next REGION lane: its partition holds the core no more (16 R452), or the rotation drains the
core (20 R508). -/
def State.departs (s : State) (n : Nat) : Bool :=
  ((s.coreAt n).sys.draining && !s.testWaits n) ||
  match (s.coreAt n).unit.lid.bind s.launch? with
  | some l => match s.part? l.part with | some p => p.lost n | none => false
  | none => false

/-- The unit on the core in focus leaves now. -/
def State.leavesHere (s : State) : Bool := s.departs s.cur && s.core.mayLeave && s.allLeave s.cur

/-- REGION s1, s2, s3, s4 (06 R226; 17 R475, R478): after every earlier lane and command, the record and the shadow are
written and the region opens, a group switch. A unit that is to leave its core does so here. -/
def execRegion (s1 s2 s3 s4 : CSrc) (s : State) : Outcome State Fault Refusal :=
  lane .c s do
    s.useC [s1, s2, s3, s4] []
    let base := (s.valC s1).toNat
    let len := (s.valC s2).toNat
    let xm := (s.valC s3).toNat % 2 ^ 32
    let vm := s.valC s4
    chk (decide (base % 64 = 0 ∧ len % 64 = 0 ∧ base + len ≤ 0x1F0000)) .regionRange
    chk (decide ((maskNames vm).length ≤ s.regionMax)) .regionRange
    chk (decide (s.u.depth = 0)) .regionRange
    holdUntil (s.matIdle && s.core.x.xq.isEmpty && (List.range 8).all fun k => s.token k == 0)
    let line := s.lineAddr .c
    let v := s.view .c
    let sh : Shadow := ⟨v.ts, v.cb, s.core.a.cbc, s.core.c.seq.binds⟩
    let t := if (maskNames vm).any s.regionGated then s.stick (some .c) stGATED else s
    let t := t.setSpad regionRecord (s.record line base len xm vm)
    let t := t.modSeq fun q => { q with region := some line, shadow := sh, guarded := false, takenAt := q.taken, regionRb := (s.u.curLine .c).rb }
    let t := t.emptyLatches .c
    if t.leavesHere then .error (.gone (t.preempt t.cur)) else pure t

/-- REGION.end: the open region closes; a group switch (06 R226). -/
def execRegionEnd (s : State) : Outcome State Fault Refusal :=
  lane .c s do
    let t := s.modSeq fun q => { q with region := none, guarded := false }
    pure (t.emptyLatches .c)

/-! ### Reading a record back -/

/-- The unit state that a record restores: registers with WB 0 and frame 24, handles, request halves with no lease, SLIP,
generator states, the v registers under their names with RB 0 (14 R409, 17 R476). `full` tells the width of the unit that made the
record. -/
def State.restoreRecord (s : State) (full : Bool) (r : Bytes) : State :=
  let n := if full then 256 else 128
  let sh0 := Shared.reset
  let xg := (List.range 7).foldl (fun m i => Sparse.set 0 m (i + 1) (BitVec.ofNat 64 (recField r (32 + 8 * i) 8))) sh0.xg
  let xf := (List.range 24).foldl (fun m i => Sparse.set 0 m i (BitVec.ofNat 64 (recField r (88 + 8 * i) 8))) sh0.xf
  let th := (List.range 16).foldl (fun m i => Sparse.set 0 m i (BitVec.ofNat 256 (recField r (280 + 32 * i) 32))) sh0.th
  let shp := (List.range 8).foldl (fun m i =>
    let o := 792 + 8 * i
    let h : Shape := { Shape.zero with rm := BitVec.ofNat 16 (recField r o 2), rn := BitVec.ofNat 16 (recField r (o + 2) 2),
                                       rk := BitVec.ofNat 16 (recField r (o + 4) 2), afmt := r.getD (o + 6) 0 }
    if h = Shape.zero then m else Sparse.set Shape.zero m i (s.grant 0 h)) sh0.sh
  let names := maskNames (BitVec.ofNat 64 (recField r 12 8))
  let step := n + 8
  let vs := names.zipIdx.foldl (fun m x =>
    Sparse.set VReg.zero m x.1 ⟨true, s.unpackAt n ((r.drop (1024 + step * x.2)).take step)⟩) []
  let gens := (List.range 4).foldl (fun m q => Sparse.set 0 m q (BitVec.ofNat 64 (recField r (864 + 8 * q) 8))) []
  let t := s.setU { s.u with sh := { sh0 with xg := xg, xf := xf, th := th, sh := shp, slip := recField r 28 1 % 128 } }
  let t := t.modV fun v => { v with v := vs, gen := BitVec.ofNat 64 (recField r 856 8) }
  t.modMat fun m => { m with qgen := gens }

end Sys2Proof.Machine
end

