-- ==== Sys2Proof/Machine/Tiles.lean ====
section
/-! DEFINITION. Tiles in scratchpad (08 R278-R280; 02 R63): their extent, elements of element-major tiles, planes with their side
array, and the rewriting of single elements of a block. -/

namespace Sys2Proof.Machine

open Sys2Proof

/-- RB, the bytes of an element-major row (08 R278). -/
def Tile.rowBytes (t : Tile) : Nat := 64 * ((t.cols + fmtCap t.fmt.toNat - 1) / fmtCap t.fmt.toNat)

/-- TB, the bytes of a tile (08 R278, R279). -/
def Tile.bytes (t : Tile) : Nat :=
  if t.plane then up64 (32 * t.rows * t.planes + 2 * t.rows * t.cols) else t.rows * t.rowBytes

/-- P of a planes slot (08 R279). -/
def planesOf (fmt : Nat) : Nat := if fmt = 10 then 1 else fmtPlanes fmt

/-- The address of the block that holds element (r, c). -/
def Tile.blockAt (t : Tile) (r c : Nat) : Nat := t.base + r * t.rowBytes + 64 * (c / fmtCap t.fmt.toNat)

/-- The place of element (r, c) in its block. -/
def Tile.slotAt (t : Tile) (c : Nat) : Nat := c % fmtCap t.fmt.toNat

/-- The address of element (r, c), of a format of whole bytes. -/
def Tile.elemAt (t : Tile) (r c : Nat) : Nat := t.blockAt r c + t.slotAt c * (fmtWidth t.fmt.toNat / 8)

/-- The addresses of a tile's blocks. -/
def Tile.blocks (t : Tile) : List Nat := (List.range (t.bytes / 64)).map fun i => t.base + 64 * i

/-- The checks of a decoding of blocks (03 R87): of R89, then of R90 (log 108). -/
def decodeChecks (fs : List Byte) : M PUnit := do
  chk (fs.all fun f => fmtOk f.toNat) .reservedFormat
  chk (fs.all fun f => f != 0) .rawOperand

/-! ### Elements of a block (03 R91-R98) -/

/-- Element `k` of a block: its value and its sign bit; none where INT4O decoding meets a late outlier (03 R93). -/
def blockElem (fmt : Nat) (d : Bytes) (k : Nat) : Option (Val × Bool) :=
  if fmt = 8 then (int4Block d).map fun l =>
    let v := l.getD k (.fin false 0 0)
    (v, match v with | .fin s _ _ => s | .inf s => s | .nan _ => nibble d (k + 1) / 8 == 1)
  else if fmt = 9 then
    let t := tritOf (d.getD (k / 5) 0).toNat (k % 5)
    some (Val.ofInt t, decide (t < 0))
  else if fmt = 10 then some (.fin false ((d.getD (k / 8) 0).toNat / 2 ^ (k % 8) % 2) 0, false)
  else
    let n := laneOf d (fmtWidth fmt) k
    if fmtI fmt then some (Val.ofInt (intOf fmt n), decide (intOf fmt n < 0))
    else some (floatOf fmt n, decide (signBit fmt ≤ n))

/-- The element lies in an illegal TERN5 byte (03 R95). -/
def badTern (fmt : Nat) (d : Bytes) (k : Nat) : Bool := fmt == 9 && decide (243 ≤ (d.getD (k / 5) 0).toNat)

/-- A byte of five digits (03 R94). -/
def ternByte (ds : List Nat) : Byte := BitVec.ofNat 8 (ds.foldr (fun d n => d + 3 * n) 0)

/-- A block's bytes that replacing some elements changes: byte number and value. Patterns are those of `convert`: a nibble for
INT4O, a digit for TERN5. -/
def elemBytes (fmt : Nat) (d : Bytes) (upd : Nat → Option Nat) : List (Nat × Byte) :=
  let per := if fmt = 9 then 5 else if fmt = 10 then 8 else if fmt = 8 then 2 else 1
  if fmt = 8 ∨ fmt = 9 ∨ fmt = 10 then
    (List.range 64).filterMap fun j =>
      if (List.range per).any fun i => (upd (per * j + i)).isSome then
        let b := (d.getD j 0).toNat
        some (j, if fmt = 9 then
            ternByte ((List.range 5).map fun i => (upd (5 * j + i)).getD (tritOf b i + 1).toNat)
          else
            let w := 8 / per
            BitVec.ofNat 8 ((List.range per).foldl
              (fun n i => n + (upd (per * j + i)).getD (b / 2 ^ (w * i) % 2 ^ w) % 2 ^ w * 2 ^ (w * i)) 0))
      else none
  else
    let n := fmtWidth fmt / 8
    (List.range (fmtCap fmt)).flatMap fun k => match upd k with
      | some v => ((natLe n v).zipIdx (k * n)).map fun x => (x.2, x.1)
      | none => []

/-- An overwriting iteration does not write the byte at an address: its cell is covered (14 R417). -/
def State.suppressed (s : State) (ovr : Bool) (a : Nat) : Bool := ovr && s.covered (a / 8)

/-- Write bytes of one block. -/
def State.putIn (s : State) (ovr : Bool) (blk : Nat) (ws : List (Nat × Byte)) (d : Desc) : State :=
  ws.foldl (fun t w => t.putByte ovr d (blk + w.1, w.2)) s

/-- Rewrite elements (r, c) of an element-major tile for c below `n`, with a block's descriptor from the one it holds. -/
def State.putRow (s : State) (ovr : Bool) (t : Tile) (r n : Nat) (v : Nat → Option Nat) (d : Desc → Desc) : State :=
  let cap := fmtCap t.fmt.toNat
  (List.range ((n + cap - 1) / cap)).foldl (fun s m =>
    let blk := t.base + r * t.rowBytes + 64 * m
    let ws := elemBytes t.fmt.toNat (s.spad blk 64) fun k => if cap * m + k < n then v (cap * m + k) else none
    s.putIn ovr blk ws (d (s.desc (blk / 64)))) s

/-- Element (r, c) of an element-major tile as it stands. -/
def State.tileElem (s : State) (t : Tile) (r c : Nat) : Option (Val × Bool) :=
  blockElem t.fmt.toNat (s.spad (t.blockAt r c) 64) (t.slotAt c)

/-! ### Planes (08 R279) -/

/-- The element's block breaks 03 R103, so that a fill marks it (08 R279): a scale in a wide format, the NaN scale in an integer
format, a scale of BIN1, which only an integer accumulator takes (DEDUCED, log 107). -/
def sideBad (fmt scale : Nat) : Bool :=
  (8 < fmtWidth fmt && scale != 0x7F) || ((fmtI fmt || fmt == 9) && scale == 0xFF) || (fmt == 10 && scale != 0x7F)

/-- The side entry of an infinity or a NaN, without its sign bit: SPEC, and an EXP that is free but never makes the marker (log 145). -/
def specSide (fmt scale : Nat) (nan neg : Bool) : Nat := 0x4000 + Config.specExp fmt scale nan neg % 0x3FFF

/-- The magnitude of a NaN in planes: free, but not zero (log 145). -/
def nanSide (fmt scale : Nat) (neg : Bool) : Nat := 1 + Config.nanMag fmt scale neg % (2 ^ fmtPlanes fmt - 1)

/-- The magnitude and side entry of an element (08 R279, 09 R327); the marker leaves its magnitude and sign as they are. -/
def sideOf (fmt scale : Nat) (x : Val × Bool) : Nat × Nat :=
  let sg := if x.2 then 0x8000 else 0
  let r : Nat × Nat :=
    if fmt = 10 then (match x.1 with | .fin _ m _ => (m, 0) | _ => (0, 0))
    else if scale = 0xFF && !(fmtI fmt || fmt == 9) then (nanSide fmt scale false, specSide fmt scale true false)
    else match x.1 with
      | .inf _ => (0, sg + specSide fmt scale false x.2)
      | .nan _ => (nanSide fmt scale x.2, sg + specSide fmt scale true x.2)
      | .fin _ m e => (m, sg + ((e + 8192 + (if fmtWidth fmt ≤ 8 then (scale : Int) - 127 else 0)) % 16384).toNat)
  if sideBad fmt scale then (r.1, r.2 / 2 ^ 15 * 2 ^ 15 + 0x7FFF) else r

/-- The byte that holds plane `q` of element (k, j), and its bit. -/
def Tile.planeAt (t : Tile) (k j q : Nat) : Nat := t.base + 32 * (k * t.planes + q) + j / 8

/-- The address of the side entry of (k, j). -/
def Tile.sideAt (t : Tile) (k j : Nat) : Nat := t.base + 32 * t.rows * t.planes + 2 * (k * t.cols + j)

/-- The descriptor of every block a fill of planes writes. -/
def rawDesc : Desc := ⟨0, 0x7F⟩

/-- Write the planes and side entries of columns below `n` of row `k`; the bits at and above Ct become zero (08 R279). -/
def State.putPlanes (s : State) (ovr : Bool) (t : Tile) (k n : Nat) (v : Nat → Nat × Nat) : State :=
  let s := (List.range t.planes).foldl (fun s q =>
    (List.range 32).foldl (fun s b =>
      let a := t.base + 32 * (k * t.planes + q) + b
      let old := (Memory.read s.core.spad a).toNat
      let byte := (List.range 8).foldl (fun m i =>
        let j := 8 * b + i
        let bit := if j < n then (v j).1 / 2 ^ q % 2 else if j < t.cols then old / 2 ^ i % 2 else 0
        m + bit * 2 ^ i) 0
      s.putByte ovr rawDesc (a, BitVec.ofNat 8 byte)) s) s
  (List.range n).foldl (fun s j => s.putBytes ovr (t.sideAt k j) (natLe 2 (v j).2) rawDesc) s

/-- The magnitude and side entry that stand for (k, j). -/
def State.getPlanes (s : State) (t : Tile) (k j : Nat) : Nat × Nat :=
  ((List.range t.planes).foldl (fun m q =>
      m + (Memory.read s.core.spad (t.planeAt k j q)).toNat / 2 ^ (j % 8) % 2 * 2 ^ q) 0,
   leNat (s.spad (t.sideAt k j) 2))

/-- Whether a side entry is the marker. -/
def isMarker (side : Nat) : Bool := side % 2 ^ 15 == 0x7FFF

/-- The value of a magnitude and side entry. -/
def sideVal (x : Nat × Nat) : Val :=
  let neg := decide (x.2 / 2 ^ 15 % 2 = 1)
  if x.2 / 2 ^ 14 % 2 = 1 then (if x.1 = 0 then .inf neg else .nan false)
  else .fin neg x.1 (((x.2 % 2 ^ 14 : Nat) : Int) - 8192)

end Sys2Proof.Machine
end

