-- ==== Sys2Proof/Machine/Access.lean ====
section
/-! DEFINITION. The access engine (09 R311-R331): address arithmetic, elements between scratchpad and queues, streams, tile
slots and planes, circular buffers. -/

namespace Sys2Proof.Machine

open Sys2Proof Host

/-! ### Address arithmetic (09 R315-R317) -/

/-- A two-source lane: (as1 op as2) mod 2^32. -/
def State.addrReg (s : State) (ad : AReg) (s1 s2 : ASrc) (f : BitVec 32 → BitVec 32 → BitVec 32) : M State := do
  s.useA [s1, s2]
  s.setA ad (f (s.valA s1) (s.valA s2))

/-- An immediate lane. -/
def State.addrImm (s : State) (ad : AReg) (s1 : ASrc) (imm : Imm 12) (f : BitVec 32 → BitVec 32 → BitVec 32) : M State := do
  s.useA [s1]
  s.setA ad (f (s.valA s1) (BitVec.ofInt 32 (immS imm)))

/-- AADD (09 R315). -/
def execAadd (ad : AReg) (s1 s2 : ASrc) (s : State) : Outcome State Fault Refusal := lane .a s (s.addrReg ad s1 s2 (· + ·))
/-- AADD with an immediate. -/
def execAaddImm (ad : AReg) (s1 : ASrc) (imm : Imm 12) (s : State) : Outcome State Fault Refusal :=
  lane .a s (s.addrImm ad s1 imm (· + ·))
/-- AMUL (09 R315). -/
def execAmul (ad : AReg) (s1 s2 : ASrc) (s : State) : Outcome State Fault Refusal := lane .a s (s.addrReg ad s1 s2 (· * ·))
/-- AMUL with an immediate. -/
def execAmulImm (ad : AReg) (s1 : ASrc) (imm : Imm 12) (s : State) : Outcome State Fault Refusal :=
  lane .a s (s.addrImm ad s1 imm (· * ·))
/-- AAND (09 R315). -/
def execAand (ad : AReg) (s1 s2 : ASrc) (s : State) : Outcome State Fault Refusal := lane .a s (s.addrReg ad s1 s2 (· &&& ·))
/-- AAND with an immediate. -/
def execAandImm (ad : AReg) (s1 : ASrc) (imm : Imm 12) (s : State) : Outcome State Fault Refusal :=
  lane .a s (s.addrImm ad s1 imm (· &&& ·))
/-- ASHL: the count is t[4:0] (09 R315). -/
def execAshl (ad : AReg) (s1 s2 : ASrc) (s : State) : Outcome State Fault Refusal :=
  lane .a s (s.addrReg ad s1 s2 fun a b => a <<< (b.toNat % 32))
/-- ASHL with an immediate, from 0 to 31 (09 R315). -/
def execAshlImm (ad : AReg) (s1 : ASrc) (imm : Imm 12) (s : State) : Outcome State Fault Refusal :=
  lane .a s do
    chk (decide (0 ≤ immS imm ∧ immS imm ≤ 31)) .immediateRange
    s.addrImm ad s1 imm fun a b => a <<< b.toNat

/-- AMOV ad, as1 (09 R316). -/
def execAmov (ad : AReg) (s1 : ASrc) (s : State) : Outcome State Fault Refusal :=
  lane .a s do
    s.useA [s1]
    s.setA ad (s.valA s1)

/-- AMOV ad, xs: a control register in text order (09 R316). -/
def execAmovCtrl (ad : AReg) (e1 : CSrc) (s : State) : Outcome State Fault Refusal :=
  lane .a s do
    s.useX .a [e1]
    s.setA ad ((s.valX .a e1).setWidth 32)

/-- ALI ad, imm (09 R317). -/
def execAli (ad : AReg) (imm : Imm 19) (s : State) : Outcome State Fault Refusal :=
  lane .a s (s.setA ad (BitVec.ofInt 32 (immS imm)))

/-! ### Elements (09 R313, R318) -/

/-- E, the bytes of a queue element. -/
def State.accBytes (s : State) : Nat := s.payload
/-- NB, its blocks. -/
def State.elemBlocks (s : State) : Nat := s.payload / 64

/-- Whether the lane stands in an overwriting iteration, whose scratchpad accesses go through the cover map (14 R417, R418). -/
def State.overA (s : State) : Bool := (s.laneAt .a).ovr

/-- The address checks of an element: ranges, then alignment (02 R70, 09 R312, R313). -/
def State.elemAddr (s : State) (a n align : Nat) : M PUnit := do
  s.spadRange a n
  chkAt (decide (a % align = 0)) .spadAlign (BitVec.ofNat 64 a)

/-- A queue bound to a stream or an XGATH may not be accessed by a lane (02 R62). -/
def State.unboundQ (s : State) (q : Nat) : M PUnit := chk (s.qbind q).isNone .queueBound

/-- The element that ARD reads at an address, after its format checks (09 R318). -/
def State.readElem (s : State) (a : Nat) : M Elem := do
  let ds := (List.range s.elemBlocks).map fun n => s.desc (a / 64 + n)
  chk (ds.all fun d => fmtOk d.fmt.toNat) .reservedFormat
  chk (ds.all fun d => d.fmt == (ds.headD Desc.zero).fmt) .mixedFormat
  pure ⟨(ds.headD Desc.zero).fmt, (ds.map Desc.scale ++ unitScales).take 4, padData (s.spad a s.accBytes)⟩

/-- Write an element with its descriptors (09 R318). -/
def State.writeElem (s : State) (ovr : Bool) (a : Nat) (e : Elem) : State :=
  (List.range s.elemBlocks).foldl (fun t n =>
    t.putBytes ovr (a + 64 * n) ((e.data.drop (64 * n)).take 64) ⟨e.fmt, e.scales.getD n 0x7F⟩) s

/-- The address of ARD and AWR (09 R318). -/
def State.elemAt (s : State) (s1 : ASrc) (off : Imm 15) : Nat := (s.valA s1 + BitVec.ofInt 32 (immS off)).toNat

/-- ARD q, [as1 + off] (09 R318). -/
def execArd (q : QReg) (s1 : ASrc) (off : Imm 15) (s : State) : Outcome State Fault Refusal :=
  lane .a s do
    s.useA [s1]
    s.walkerRuns s.overA
    let a := s.elemAt s1 off
    s.elemAddr a s.accBytes 64
    let e ← s.readElem a
    s.unboundQ q.toNat
    s.coverRead s.overA a s.accBytes
    holdUntil (decide ((s.queueOf q.toNat).length < 16))
    pure (s.pushQ q.toNat e)

/-- AWR q, [as1 + off] (09 R318). -/
def execAwr (q : QReg) (s1 : ASrc) (off : Imm 15) (s : State) : Outcome State Fault Refusal :=
  lane .a s do
    s.useA [s1]
    s.walkerRuns s.overA
    let a := s.elemAt s1 off
    s.elemAddr a s.accBytes 64
    s.unboundQ q.toNat
    match s.queueOf q.toNat with
    | [] => wait
    | e :: _ => pure ((s.popQ q.toNat).writeElem s.overA a e)

/-! ### Gathers and scatters (09 R319, R320) -/

/-- The active lanes of an index element, ascending: lane number and index. -/
def activeIdx (x : Elem) (n : Nat) : List (Nat × Nat) :=
  (List.range n).filterMap fun k => if x.lane 32 k = 0xFFFFFFFF then none else some (k, x.lane 32 k)

/-- INT4O, TERN5 and BIN1. -/
def narrow (c : Nat) : Bool := c == 8 || c == 9 || c == 10

/-- ARDG q, as1, qi, ew (09 R319). -/
def execArdg (q : QReg) (s1 : ASrc) (qi : QReg) (ew : BitVec 2) (s : State) : Outcome State Fault Refusal :=
  lane .a s do
    s.useA [s1]
    s.walkerRuns s.overA
    let w := 8 * 2 ^ ew.toNat
    let base := (s.valA s1).toNat
    match s.queueOf qi.toNat with
    | [] => do
      chkAt (decide (base % (w / 8) = 0)) .spadAlign (BitVec.ofNat 64 base)
      s.unboundQ q.toNat
      s.unboundQ qi.toNat
      wait
    | x :: _ => do
      let n := min (s.lanes 4) (s.vlanes * 32 / w)
      let act := if x.code = 4 then (activeIdx x n).map fun k => (k.1, base + k.2 * (w / 8)) else []
      s.spadRanges (act.map fun k => (k.2, w / 8))
      chkAt (decide (base % (w / 8) = 0)) .spadAlign (BitVec.ofNat 64 base)
      chk (x.code == 4) .mixedFormat
      let ds := act.map fun k => s.desc (k.2 / 64)
      let d := ds.headD Desc.zero
      chk (ds.all fun e => fmtOk e.fmt.toNat) .reservedFormat
      chk (ds.all fun e => !narrow e.fmt.toNat) .unsupportedFormat
      chk (ds.all fun e => e == d && fmtWidth e.fmt.toNat == w) .mixedFormat
      s.unboundQ q.toNat
      s.unboundQ qi.toNat
      act.forM fun k => s.coverRead s.overA k.2 (w / 8)
      holdUntil (decide ((s.queueOf q.toNat).length < 16))
      let ls := (List.range n).map fun k => match act.find? fun a => a.1 == k with
        | some a => leNat (s.spad a.2 (w / 8))
        | none => 0
      let sc := s.fitScales (List.replicate 4 d.scale)
      pure ((s.popQ qi.toNat).pushQ q.toNat (mkElem d.fmt sc w ls))

/-- AWRS as1, qd, qi (09 R320). -/
def execAwrs (s1 : ASrc) (qd qi : QReg) (s : State) : Outcome State Fault Refusal :=
  lane .a s do
    s.useA [s1]
    s.walkerRuns s.overA
    let base := (s.valA s1).toNat
    match s.queueOf qd.toNat, s.queueOf qi.toNat with
    | e :: _, x :: _ => do
      let w := fmtWidth e.code
      let n := min (s.lanes 4) (s.lanes e.code)
      let act := if x.code = 4 then (activeIdx x n).map fun k => (k.1, base + k.2 * (w / 8)) else []
      s.spadRanges (act.map fun k => (k.2, w / 8))
      chkAt (decide (base % (w / 8) = 0)) .spadAlign (BitVec.ofNat 64 base)
      chk (!narrow e.code) .unsupportedFormat
      chk (x.code == 4) .mixedFormat
      s.unboundQ qd.toNat
      s.unboundQ qi.toNat
      let t := act.foldl (fun t k => t.putBytes s.overA k.2 (natLe (w / 8) (e.lane w k.1))
        ⟨e.fmt, BitVec.ofNat 8 (e.laneScale w k.1)⟩) s
      pure ((t.popQ qd.toNat).popQ qi.toNat)
    | _, _ => do
      s.unboundQ qd.toNat
      s.unboundQ qi.toNat
      wait

/-! ### Streams (09 R321-R324) -/

/-- The lowest and highest displacement of a pattern. -/
def patternSpan (cs : List Nat) (ss : List Int) : Int × Int :=
  (cs.zip ss).foldl (fun p x =>
    let d := ((x.1 : Int) - 1) * x.2
    (p.1 + min 0 d, p.2 + max 0 d)) (0, 0)

/-- ASTREAM q, an, L (09 R321). -/
def execAstream (q : QReg) (n : BitVec 6) (lv : BitVec 2) (s : State) : Outcome State Fault Refusal :=
  lane .a s do
    let r (i : Nat) : BitVec 32 := s.readA (n.toNat + i)
    let used (i : Nat) : Bool := decide (i ≤ lv.toNat)
    let cs := (List.range 4).map fun i => if used i then (r (1 + i)).toNat else 1
    let ss := (List.range 4).map fun i => if used i then (r (5 + i)).toInt else 0
    let total := cs.foldl (· * ·) 1
    let base := (r 0).toNat
    let span := patternSpan cs ss
    let lo : Int := (base : Int) + span.1
    let hi : Int := (base : Int) + span.2 + s.accBytes
    chkAt (decide (total = 0 ∨ (0 ≤ lo ∧ hi ≤ 0x200000))) .scratchpadRange (BitVec.ofNat 64 base)
    chkAt (decide (total = 0 ∨ s.privileged = true ∨ hi ≤ 0x1F0000)) .reservedScratchpad (BitVec.ofNat 64 base)
    chkAt (decide (base % 64 = 0) && ss.all fun x => decide (x % 64 = 0)) .spadAlign (BitVec.ofNat 64 base)
    s.unboundQ q.toNat
    if total = 0 then pure s
    else pure (s.setQbind q.toNat (some (.stream ⟨base, cs, ss, 0, total, s.laneAt .a⟩)))

/-- The address of element `e` of a stream. -/
def Stream.addr (p : Stream) (e : Nat) : Nat :=
  let c (i : Nat) : Nat := p.counts.getD i 1
  let st (i : Nat) : Int := p.strides.getD i 0
  let i0 := e % c 0
  let i1 := e / c 0 % c 1
  let i2 := e / (c 0 * c 1) % c 2
  let i3 := e / (c 0 * c 1 * c 2)
  (BitVec.ofInt 32 ((p.base : Int) + i0 * st 0 + i1 * st 1 + i2 * st 2 + i3 * st 3)).toNat

/-- A stream after one more element: its binding ends after the last. -/
def Stream.next? (p : Stream) : Option QBind := if p.next + 1 < p.total then some (.stream { p with next := p.next + 1 }) else none

/-- The access segment of the core in focus moves: its clock runs and it has finished shifting in (17 R470, 02 R74). -/
def State.accessRuns (s : State) : Bool :=
  s.segRuns 1 && s.core.c.pend.isNone && !s.handling

/-- STREAM_LOAD_ELEMENT: a load stream pushes its next element once the queue has room; a format check that fails is reported
at the ASTREAM lane and ends the binding (09 R322). -/
def execStreamLoadElement (core : Nat) (q : QReg) (s : State) : Outcome State Fault Refusal :=
  let t := s.focus core
  event s do
    match t.qbind q.toNat with
    | some (.stream p) =>
      if 4 ≤ q.toNat ∨ t.accessRuns = false ∨ 16 ≤ (t.queueOf q.toNat).length then pure t
      else match t.readElem (p.addr p.next) with
        | .ok e => pure ((t.pushQ q.toNat e).setQbind q.toNat p.next?)
        | .error (.trap c v _) => pure ((t.setQbind q.toNat none).pendTrap .a c v p.lane)
        | .error _ => pure t
    | _ => pure t

/-- STREAM_STORE_ELEMENT: a store stream writes the oldest element at its next address (09 R323). -/
def execStreamStoreElement (core : Nat) (q : QReg) (s : State) : Outcome State Fault Refusal :=
  let t := s.focus core
  event s do
    match t.qbind q.toNat, t.queueOf q.toNat with
    | some (.stream p), e :: _ =>
      if q.toNat < 4 ∨ t.accessRuns = false then pure t
      else pure (((t.popQ q.toNat).writeElem false (p.addr p.next) e).setQbind q.toNat p.next?)
    | _, _ => pure t

/-- The vector destination of a lane. -/
def laneVdst : Instr → Option VDst
  | .vadd vd _ _ _ => some vd
  | .vsub vd _ _ _ => some vd
  | .vmul vd _ _ _ => some vd
  | .vmulh vd _ _ => some vd
  | .vma vd _ _ _ _ => some vd
  | .vdiv vd _ _ _ => some vd
  | .vsqrt vd _ _ => some vd
  | .vmin vd _ _ => some vd
  | .vmax vd _ _ => some vd
  | .vabs vd _ => some vd
  | .vneg vd _ => some vd
  | .vshl vd _ _ => some vd
  | .vshr vd _ _ => some vd
  | .vsar vd _ _ => some vd
  | .vand vd _ _ => some vd
  | .vor vd _ _ => some vd
  | .vxor vd _ _ => some vd
  | .vnot vd _ => some vd
  | .vpopc vd _ => some vd
  | .vclz vd _ => some vd
  | .vexp vd _ _ => some vd
  | .vexp2 vd _ _ => some vd
  | .vlog vd _ _ => some vd
  | .vlog2 vd _ _ => some vd
  | .vsin vd _ _ => some vd
  | .vcos vd _ _ => some vd
  | .vtanh vd _ _ => some vd
  | .verf vd _ _ => some vd
  | .vrcp vd _ _ => some vd
  | .vrsqrt vd _ _ => some vd
  | .vcvt vd _ _ _ _ => some vd
  | .vscale vd _ _ => some vd
  | .vscaleAdd vd _ _ => some vd
  | .vtag vd _ _ => some vd
  | .vunt5 vd _ _ _ => some vd
  | .vun4o vd _ _ _ _ => some vd
  | .vpk vd _ _ _ _ => some vd
  | .vtadd vd _ _ _ => some vd
  | .vrsum vd _ _ => some vd
  | .vrmax vd _ => some vd
  | .vrmin vd _ => some vd
  | .vshuf vd _ _ => some vd
  | .vslide vd _ _ => some vd
  | .vbcast vd _ _ => some vd
  | .vsplat vd _ _ => some vd
  | .vmov vd _ => some vd
  | .vli vd _ => some vd
  | .vmget vd _ => some vd
  | _ => none

/-- AUNBIND q: a store stream ends once earlier vector writers of the queue have executed and the elements in it are written
(09 R324). -/
def execAunbind (q : QReg) (s : State) : Outcome State Fault Refusal :=
  lane .a s do
    match s.qbind q.toNat with
    | none => pure s
    | some .gath => trap .queueBound
    | some (.stream _) =>
      let writers := (s.pending .v (s.u.eng .a).pos).any fun i => (i.2.bind laneVdst).any fun d => dstQueue? d == some q.toNat
      holdUntil (decide (q.toNat < 4) || (!writers && (s.queueOf q.toNat).isEmpty))
      pure (s.setQbind q.toNat none)

/-! ### Tile slots and planes (09 R326-R328) -/

/-- ATILE ts, as1, as2, fmt (09 R326). -/
def execAtile (t : TsReg) (s1 s2 : ASrc) (fmt : BitVec 7) (s : State) : Outcome State Fault Refusal :=
  lane .a s do
    s.useA [s1, s2]
    let base := (s.valA s1).toNat
    let g := (s.valA s2).toNat
    let c := fmt.toNat
    if g = 0 ∧ c = 0 then pure (s.write .a (.ts t.toNat none))
    else do
      let rows := g % 512
      let cols := g / 512 % 512
      let plane := g / 2 ^ 18 % 2 == 1
      chkAt (decide (base % 64 = 0)) .spadAlign (BitVec.ofNat 64 base)
      chk (fmtOk c) .reservedFormat
      chk (!(plane && c == 0)) .rawOperand
      chk (decide (g / 2 ^ 19 = 0 ∧ rows % 8 = 0 ∧ cols % 8 = 0 ∧ 8 ≤ rows ∧ rows ≤ 256 ∧ 8 ≤ cols ∧ cols ≤ 256)) .tileShape
      let x : Tile := ⟨base, rows, cols, fmt.setWidth 8, plane, if plane then planesOf c else 0⟩
      chkAt (decide (base + x.bytes ≤ 0x1F0000)) .tileRange (BitVec.ofNat 64 base)
      pure (s.write .a (.ts t.toNat (some x)))

/-- A bound tile slot as an engine sees it (02 R63). -/
def State.boundTile (s : State) (e : Engine) (t : TsReg) : M Tile :=
  match (s.view e).tile t.toNat with
  | some x => .ok x
  | none => trap .unboundSlot

/-- Whether two byte ranges meet. -/
def overlap (a n b m : Nat) : Bool := decide (a < b + m ∧ b < a + n)

/-- The slot causes of APLN and AUNPLN, in order (09 R327): destination and source. -/
def State.planeSlots (s : State) (td ts : TsReg) (toPlanes : Bool) : M (Tile × Tile) := do
  let d ← s.boundTile .a td
  let x ← s.boundTile .a ts
  chk (d.plane == toPlanes && x.plane == !toPlanes) .tileForm
  chk (decide (d.rows = x.rows ∧ d.cols = x.cols ∧ d.fmt = x.fmt)) .tileShape
  chk (!overlap d.base d.bytes x.base x.bytes) .tileOverlap
  pure (d, x)

/-- The block checks of a conversion to planes (09 R327); the checks of every decoding stand first (03 R87; log 108). -/
def State.fillChecks (s : State) (fmt : Nat) (blks : List Nat) : M PUnit := do
  decodeChecks (blks.map fun a => (s.desc (a / 64)).fmt)
  chk (blks.all fun a => (s.desc (a / 64)).fmt.toNat == fmt) .mixedFormat
  chk (fmt != 8 || blks.all fun a => (int4Block (s.spad a 64)).isSome) .outlierPosition

/-- APLN tsd, tss (09 R327). -/
def execApln (td ts : TsReg) (s : State) : Outcome State Fault Refusal :=
  lane .a s do
    s.walkerRuns s.overA
    let (d, x) ← s.planeSlots td ts true
    s.coverRead s.overA x.base x.bytes
    let fmt := x.fmt.toNat
    s.fillChecks fmt x.blocks
    let bad := (List.range x.rows).any fun r => (List.range x.cols).any fun c =>
      badTern fmt (s.spad (x.blockAt r c) 64) (x.slotAt c)
    let t := if bad then s.stick (some .a) stBADCODE else s
    pure ((List.range x.rows).foldl (fun t k =>
      t.putPlanes s.overA d k x.cols fun j =>
        sideOf fmt (s.desc (x.blockAt k j / 64)).scale.toNat ((s.tileElem x k j).getD (.fin false 0 0, false))) t)

/-- The element that a magnitude and side entry give an element-major slot (09 R328): a BIN1 element is its plane bit (log
26). -/
def unplaned (fmt rm : Nat) (x : Nat × Nat) : Nat := if fmt = 10 then x.1 % 2 else (convert (sideVal x) 127 fmt 127 rm 0).1

/-- AUNPLN.rm tsd, tss (09 R328). -/
def execAunpln (td ts : TsReg) (rm : BitVec 3) (s : State) : Outcome State Fault Refusal :=
  lane .a s do
    s.walkerRuns s.overA
    let (d, x) ← s.planeSlots td ts false
    s.coverRead s.overA x.base x.bytes
    chk (decide (rm.toNat ≤ 5)) .roundingMode
    chk ((List.range x.rows).all fun k => (List.range x.cols).all fun j => !isMarker (s.getPlanes x k j).2) .arrayScale
    pure ((List.range x.rows).foldl (fun t k =>
      t.putRow s.overA d k d.cols (fun j => some (unplaned x.fmt.toNat rm.toNat (s.getPlanes x k j))) fun _ => ⟨x.fmt, 0x7F⟩) s)

/-! ### Circular buffers (09 R329-R331) -/

/-- The counters of buffer `c` under a binding. -/
def State.cbCount (s : State) (c : Nat) (b : Buf) : Option BufCount := Sparse.get none s.core.a.cbc (c + 8 * b.gen)
/-- Replace them. -/
def State.setCbCount (s : State) (c : Nat) (b : Buf) (n : BufCount) : State :=
  s.modA fun a => { a with cbc := Sparse.set none a.cbc (c + 8 * b.gen) (some n) }

/-- The generation of the next binding of buffer `c`. -/
def State.bufGen (s : State) (c : Nat) : Nat :=
  s.core.a.cbc.foldl (fun n x => if x.1 % 8 = c then max n (x.1 / 8 + 1) else n) 0

/-- A command is a fill of buffer `c` under a binding. -/
def XCmd.fills (k : XCmd) (c : Nat) (b : Buf) : Bool :=
  match k.instr with | .xcb x .. => x.toNat == c && k.buf == some b | _ => false

/-- Fills of buffer `c` under a binding that have taken their slot and not completed. -/
def State.fillsIn (s : State) (c : Nat) (b : Buf) : Nat := (s.core.x.xq.filter fun k => k.begun && k.fills c b).length

/-- Slots of buffer `c` taken by ACB.get and not released (09 R330). -/
def State.slotsHeld (s : State) (c : Nat) (b : Buf) (n : BufCount) : Nat := b.count - n.free - n.filled - s.fillsIn c b

/-- ACB cb, as1, as2, size: bind or unbind (09 R329). A slot that a fill holds counts as in transit (log 27). -/
def execAcb (c : CbReg) (s1 s2 : ASrc) (size : BitVec 4) (s : State) : Outcome State Fault Refusal :=
  lane .a s do
    s.useA [s1, s2]
    let base := (s.valA s1).toNat
    let n := (s.valA s2).toNat
    let code := size.toNat
    let unbind := decide (n = 0 ∧ code = 0)
    let sz := 64 * 2 ^ code
    chkAt (unbind || decide (base % 64 = 0)) .spadAlign (BitVec.ofNat 64 base)
    chk (unbind || decide (2 ≤ n ∧ n ≤ 256 ∧ code ≤ 10)) .bufferShape
    chkAt (unbind || decide (base + n * sz ≤ 0x1F0000)) .tileRange (BitVec.ofNat 64 base)
    let busy := match (s.view .a).buf c.toNat with
      | some b => (s.cbCount c.toNat b).any fun k => decide (k.free ≠ b.count)
      | none => false
    chk (!busy) .bufferBusy
    if unbind then pure (s.write .a (.cb c.toNat none))
    else
      let b : Buf := ⟨base, sz, n, s.bufGen c.toNat⟩
      pure ((s.write .a (.cb c.toNat (some b))).setCbCount c.toNat b ⟨n, 0, 0, 0, 0⟩)

/-- The binding and counters of a bound buffer. -/
def State.boundBuf (s : State) (c : CbReg) : M (Buf × BufCount) :=
  match (s.view .a).buf c.toNat with
  | some b => match s.cbCount c.toNat b with
    | some k => .ok (b, k)
    | none => trap .unboundSlot
  | none => trap .unboundSlot

/-- ACB.get ad, cb (09 R330). -/
def execAcbGet (ad : AReg) (c : CbReg) (s : State) : Outcome State Fault Refusal :=
  lane .a s do
    let (b, k) ← s.boundBuf c
    chk (!s.strideBound ad.toNat) .seqStrideWrite
    holdUntil (decide (0 < k.filled))
    let t ← s.setA ad (BitVec.ofNat 32 (b.base + k.take * b.size))
    pure (t.setCbCount c.toNat b ({ k with filled := k.filled - 1, take := (k.take + 1) % b.count }))

/-- ACBREL cb (09 R331). -/
def execAcbRel (c : CbReg) (s : State) : Outcome State Fault Refusal :=
  lane .a s do
    let (b, k) ← s.boundBuf c
    chk (decide (0 < s.slotsHeld c.toNat b k)) .bufferRelease
    pure (s.setCbCount c.toNat b ({ k with rel := (k.rel + 1) % b.count, free := k.free + 1 }))

end Sys2Proof.Machine
end

