-- ==== Sys2Proof/Machine/Alu.lean ====
section
/-! DEFINITION. Integer arithmetic of the control engine (06 R186-R193). A result goes to rd and to b0 (R187); no instruction
here traps on a value or sets a flag (R190). -/

namespace Sys2Proof.Machine

open Sys2Proof Host

/-- A two-source lane: both sources read, the result written (06 R187, R190). -/
def aluReg (rd : CReg) (s1 s2 : CSrc) (f : Word → Word → Word) (s : State) : M State := do
  s.useC [s1, s2] [rd]
  pure (s.setRd rd (f (s.valC s1) (s.valC s2)))

/-- A one-source lane. -/
def aluOne (rd : CReg) (s1 : CSrc) (f : Word → Word) (s : State) : M State := do
  s.useC [s1] [rd]
  pure (s.setRd rd (f (s.valC s1)))

/-- An immediate lane whose immediate is limited to `lo` to `hi` (06 R190). -/
def aluLimited (rd : CReg) (s1 : CSrc) (imm : Imm 12) (lo hi : Int) (f : Word → Nat → Word) (s : State) : M State := do
  chk (decide (lo ≤ immS imm ∧ immS imm ≤ hi)) .immediateRange
  s.useC [s1] [rd]
  pure (s.setRd rd (f (s.valC s1) (immS imm).toNat))

/-- ADD: (s1 + t) mod 2^64 (06 R190). -/
def addFn (a b : Word) : Word := a + b

/-- SUB: (s1 − t) mod 2^64 (06 R190). -/
def subFn (a b : Word) : Word := a - b

/-- MUL: (s1 × t) mod 2^64 (06 R190). -/
def mulFn (a b : Word) : Word := a * b

/-- MULHU: the high half of the unsigned product (06 R190). -/
def mulhuFn (a b : Word) : Word := BitVec.ofNat 64 (a.toNat * b.toNat / 2 ^ 64)

/-- MULHS: the high half of the signed product (06 R190). -/
def mulhsFn (a b : Word) : Word := BitVec.ofInt 64 (Int.fdiv (a.toInt * b.toInt) (2 ^ 64))

/-- DIVU: the unsigned quotient, all ones for t = 0 (06 R190). -/
def divuFn (a b : Word) : Word := if b = 0 then BitVec.allOnes 64 else BitVec.ofNat 64 (a.toNat / b.toNat)

/-- DIVS: the quotient truncated toward zero, −1 for t = 0, −2^63 for −2^63 by −1 (06 R190). -/
def divsFn (a b : Word) : Word := if b = 0 then BitVec.allOnes 64 else BitVec.ofInt 64 (Int.tdiv a.toInt b.toInt)

/-- REMU: the unsigned remainder, s1 for t = 0 (06 R190). -/
def remuFn (a b : Word) : Word := if b = 0 then a else BitVec.ofNat 64 (a.toNat % b.toNat)

/-- REMS: the remainder with the sign of s1, s1 for t = 0 (06 R190). -/
def remsFn (a b : Word) : Word := if b = 0 then a else BitVec.ofInt 64 (Int.tmod a.toInt b.toInt)

/-- AND: s1 AND t (06 R190). -/
def andFn (a b : Word) : Word := a &&& b

/-- OR: s1 OR t (06 R190). -/
def orFn (a b : Word) : Word := a ||| b

/-- XOR: s1 XOR t (06 R190). -/
def xorFn (a b : Word) : Word := a ^^^ b

/-- ANDN: s1 AND NOT t (06 R190). -/
def andnFn (a b : Word) : Word := a &&& ~~~b

/-- MIN: the smaller, signed (06 R190). -/
def minFn (a b : Word) : Word := if b.slt a then b else a

/-- MAX: the larger, signed (06 R190). -/
def maxFn (a b : Word) : Word := if a.slt b then b else a

/-- MINU: the smaller, unsigned (06 R190). -/
def minuFn (a b : Word) : Word := if b.ult a then b else a

/-- MAXU: the larger, unsigned (06 R190). -/
def maxuFn (a b : Word) : Word := if a.ult b then b else a

/-- SHL: s1 shifted left by n (06 R190). -/
def shlFn (a : Word) (n : Nat) : Word := a <<< n

/-- SHR: s1 shifted right by n (06 R190). -/
def shrFn (a : Word) (n : Nat) : Word := a >>> n

/-- SAR: s1 shifted right arithmetically by n (06 R190). -/
def sarFn (a : Word) (n : Nat) : Word := a.sshiftRight n

/-- ROTL: s1 rotated left by n (06 R190). -/
def rotlFn (a : Word) (n : Nat) : Word := a.rotateLeft n

/-- SEXT: sign extension from w bits (06 R190). -/
def sextFn (a : Word) (n : Nat) : Word := BitVec.ofInt 64 (signed n a.toNat)

/-- ZEXT: zero extension from w bits (06 R190). -/
def zextFn (a : Word) (n : Nat) : Word := BitVec.ofNat 64 (a.toNat % 2 ^ n)

/-- CLZ: leading zeros (06 R190). -/
def clzFn (a : Word) : Word := BitVec.ofNat 64 (64 - bitLen a.toNat)

/-- CTZ: trailing zeros (06 R190). -/
def ctzFn (a : Word) : Word := BitVec.ofNat 64 (if a = 0 then 64 else ((List.range 64).find? fun i => a.getLsbD i).getD 64)

/-- POPC: number of 1 bits (06 R190). -/
def popcFn (a : Word) : Word := BitVec.ofNat 64 ((List.range 64).countP fun i => a.getLsbD i)

/-- The count of a register-form shift: bits [5:0] (06 R190). -/
def shiftCount (b : Word) : Nat := b.toNat % 64

/-- The width of a register-form extension: bits [5:0], 0 meaning 64 (06 R190). -/
def extWidth (b : Word) : Nat := if b.toNat % 64 = 0 then 64 else b.toNat % 64

/-- ADD rd, s1, s2 (06 R190). -/
def execAdd (rd : CReg) (s1 s2 : CSrc) (s : State) : Outcome State Fault Refusal :=
  lane .c s (aluReg rd s1 s2 addFn s)

/-- ADD rd, s1, imm (06 R190). -/
def execAddImm (rd : CReg) (s1 : CSrc) (imm : Imm 12) (s : State) : Outcome State Fault Refusal :=
  lane .c s (aluOne rd s1 (fun a => addFn a (immWord imm)) s)

/-- SUB rd, s1, s2 (06 R190). -/
def execSub (rd : CReg) (s1 s2 : CSrc) (s : State) : Outcome State Fault Refusal :=
  lane .c s (aluReg rd s1 s2 subFn s)

/-- SUB rd, s1, imm (06 R190). -/
def execSubImm (rd : CReg) (s1 : CSrc) (imm : Imm 12) (s : State) : Outcome State Fault Refusal :=
  lane .c s (aluOne rd s1 (fun a => subFn a (immWord imm)) s)

/-- MUL rd, s1, s2 (06 R190). -/
def execMul (rd : CReg) (s1 s2 : CSrc) (s : State) : Outcome State Fault Refusal :=
  lane .c s (aluReg rd s1 s2 mulFn s)

/-- MUL rd, s1, imm (06 R190). -/
def execMulImm (rd : CReg) (s1 : CSrc) (imm : Imm 12) (s : State) : Outcome State Fault Refusal :=
  lane .c s (aluOne rd s1 (fun a => mulFn a (immWord imm)) s)

/-- MULHU rd, s1, s2 (06 R190). -/
def execMulhu (rd : CReg) (s1 s2 : CSrc) (s : State) : Outcome State Fault Refusal :=
  lane .c s (aluReg rd s1 s2 mulhuFn s)

/-- MULHU rd, s1, imm (06 R190). -/
def execMulhuImm (rd : CReg) (s1 : CSrc) (imm : Imm 12) (s : State) : Outcome State Fault Refusal :=
  lane .c s (aluOne rd s1 (fun a => mulhuFn a (immWord imm)) s)

/-- MULHS rd, s1, s2 (06 R190). -/
def execMulhs (rd : CReg) (s1 s2 : CSrc) (s : State) : Outcome State Fault Refusal :=
  lane .c s (aluReg rd s1 s2 mulhsFn s)

/-- MULHS rd, s1, imm (06 R190). -/
def execMulhsImm (rd : CReg) (s1 : CSrc) (imm : Imm 12) (s : State) : Outcome State Fault Refusal :=
  lane .c s (aluOne rd s1 (fun a => mulhsFn a (immWord imm)) s)

/-- DIVU rd, s1, s2 (06 R190). -/
def execDivu (rd : CReg) (s1 s2 : CSrc) (s : State) : Outcome State Fault Refusal :=
  lane .c s (aluReg rd s1 s2 divuFn s)

/-- DIVU rd, s1, imm (06 R190). -/
def execDivuImm (rd : CReg) (s1 : CSrc) (imm : Imm 12) (s : State) : Outcome State Fault Refusal :=
  lane .c s (aluOne rd s1 (fun a => divuFn a (immWord imm)) s)

/-- DIVS rd, s1, s2 (06 R190). -/
def execDivs (rd : CReg) (s1 s2 : CSrc) (s : State) : Outcome State Fault Refusal :=
  lane .c s (aluReg rd s1 s2 divsFn s)

/-- DIVS rd, s1, imm (06 R190). -/
def execDivsImm (rd : CReg) (s1 : CSrc) (imm : Imm 12) (s : State) : Outcome State Fault Refusal :=
  lane .c s (aluOne rd s1 (fun a => divsFn a (immWord imm)) s)

/-- REMU rd, s1, s2 (06 R190). -/
def execRemu (rd : CReg) (s1 s2 : CSrc) (s : State) : Outcome State Fault Refusal :=
  lane .c s (aluReg rd s1 s2 remuFn s)

/-- REMU rd, s1, imm (06 R190). -/
def execRemuImm (rd : CReg) (s1 : CSrc) (imm : Imm 12) (s : State) : Outcome State Fault Refusal :=
  lane .c s (aluOne rd s1 (fun a => remuFn a (immWord imm)) s)

/-- REMS rd, s1, s2 (06 R190). -/
def execRems (rd : CReg) (s1 s2 : CSrc) (s : State) : Outcome State Fault Refusal :=
  lane .c s (aluReg rd s1 s2 remsFn s)

/-- REMS rd, s1, imm (06 R190). -/
def execRemsImm (rd : CReg) (s1 : CSrc) (imm : Imm 12) (s : State) : Outcome State Fault Refusal :=
  lane .c s (aluOne rd s1 (fun a => remsFn a (immWord imm)) s)

/-- AND rd, s1, s2 (06 R190). -/
def execAnd (rd : CReg) (s1 s2 : CSrc) (s : State) : Outcome State Fault Refusal :=
  lane .c s (aluReg rd s1 s2 andFn s)

/-- AND rd, s1, imm (06 R190). -/
def execAndImm (rd : CReg) (s1 : CSrc) (imm : Imm 12) (s : State) : Outcome State Fault Refusal :=
  lane .c s (aluOne rd s1 (fun a => andFn a (immWord imm)) s)

/-- OR rd, s1, s2 (06 R190). -/
def execOr (rd : CReg) (s1 s2 : CSrc) (s : State) : Outcome State Fault Refusal :=
  lane .c s (aluReg rd s1 s2 orFn s)

/-- OR rd, s1, imm (06 R190). -/
def execOrImm (rd : CReg) (s1 : CSrc) (imm : Imm 12) (s : State) : Outcome State Fault Refusal :=
  lane .c s (aluOne rd s1 (fun a => orFn a (immWord imm)) s)

/-- XOR rd, s1, s2 (06 R190). -/
def execXor (rd : CReg) (s1 s2 : CSrc) (s : State) : Outcome State Fault Refusal :=
  lane .c s (aluReg rd s1 s2 xorFn s)

/-- XOR rd, s1, imm (06 R190). -/
def execXorImm (rd : CReg) (s1 : CSrc) (imm : Imm 12) (s : State) : Outcome State Fault Refusal :=
  lane .c s (aluOne rd s1 (fun a => xorFn a (immWord imm)) s)

/-- ANDN rd, s1, s2 (06 R190). -/
def execAndn (rd : CReg) (s1 s2 : CSrc) (s : State) : Outcome State Fault Refusal :=
  lane .c s (aluReg rd s1 s2 andnFn s)

/-- ANDN rd, s1, imm (06 R190). -/
def execAndnImm (rd : CReg) (s1 : CSrc) (imm : Imm 12) (s : State) : Outcome State Fault Refusal :=
  lane .c s (aluOne rd s1 (fun a => andnFn a (immWord imm)) s)

/-- MIN rd, s1, s2 (06 R190). -/
def execMin (rd : CReg) (s1 s2 : CSrc) (s : State) : Outcome State Fault Refusal :=
  lane .c s (aluReg rd s1 s2 minFn s)

/-- MIN rd, s1, imm (06 R190). -/
def execMinImm (rd : CReg) (s1 : CSrc) (imm : Imm 12) (s : State) : Outcome State Fault Refusal :=
  lane .c s (aluOne rd s1 (fun a => minFn a (immWord imm)) s)

/-- MAX rd, s1, s2 (06 R190). -/
def execMax (rd : CReg) (s1 s2 : CSrc) (s : State) : Outcome State Fault Refusal :=
  lane .c s (aluReg rd s1 s2 maxFn s)

/-- MAX rd, s1, imm (06 R190). -/
def execMaxImm (rd : CReg) (s1 : CSrc) (imm : Imm 12) (s : State) : Outcome State Fault Refusal :=
  lane .c s (aluOne rd s1 (fun a => maxFn a (immWord imm)) s)

/-- MINU rd, s1, s2 (06 R190). -/
def execMinu (rd : CReg) (s1 s2 : CSrc) (s : State) : Outcome State Fault Refusal :=
  lane .c s (aluReg rd s1 s2 minuFn s)

/-- MINU rd, s1, imm (06 R190). -/
def execMinuImm (rd : CReg) (s1 : CSrc) (imm : Imm 12) (s : State) : Outcome State Fault Refusal :=
  lane .c s (aluOne rd s1 (fun a => minuFn a (immWord imm)) s)

/-- MAXU rd, s1, s2 (06 R190). -/
def execMaxu (rd : CReg) (s1 s2 : CSrc) (s : State) : Outcome State Fault Refusal :=
  lane .c s (aluReg rd s1 s2 maxuFn s)

/-- MAXU rd, s1, imm (06 R190). -/
def execMaxuImm (rd : CReg) (s1 : CSrc) (imm : Imm 12) (s : State) : Outcome State Fault Refusal :=
  lane .c s (aluOne rd s1 (fun a => maxuFn a (immWord imm)) s)

/-- SHL rd, s1, s2 (06 R190). -/
def execShl (rd : CReg) (s1 s2 : CSrc) (s : State) : Outcome State Fault Refusal :=
  lane .c s (aluReg rd s1 s2 (fun a b => shlFn a (shiftCount b)) s)

/-- SHL rd, s1, imm: 0 to 63 (06 R190). -/
def execShlImm (rd : CReg) (s1 : CSrc) (imm : Imm 12) (s : State) : Outcome State Fault Refusal :=
  lane .c s (aluLimited rd s1 imm 0 63 shlFn s)

/-- SHR rd, s1, s2 (06 R190). -/
def execShr (rd : CReg) (s1 s2 : CSrc) (s : State) : Outcome State Fault Refusal :=
  lane .c s (aluReg rd s1 s2 (fun a b => shrFn a (shiftCount b)) s)

/-- SHR rd, s1, imm: 0 to 63 (06 R190). -/
def execShrImm (rd : CReg) (s1 : CSrc) (imm : Imm 12) (s : State) : Outcome State Fault Refusal :=
  lane .c s (aluLimited rd s1 imm 0 63 shrFn s)

/-- SAR rd, s1, s2 (06 R190). -/
def execSar (rd : CReg) (s1 s2 : CSrc) (s : State) : Outcome State Fault Refusal :=
  lane .c s (aluReg rd s1 s2 (fun a b => sarFn a (shiftCount b)) s)

/-- SAR rd, s1, imm: 0 to 63 (06 R190). -/
def execSarImm (rd : CReg) (s1 : CSrc) (imm : Imm 12) (s : State) : Outcome State Fault Refusal :=
  lane .c s (aluLimited rd s1 imm 0 63 sarFn s)

/-- ROTL rd, s1, s2 (06 R190). -/
def execRotl (rd : CReg) (s1 s2 : CSrc) (s : State) : Outcome State Fault Refusal :=
  lane .c s (aluReg rd s1 s2 (fun a b => rotlFn a (shiftCount b)) s)

/-- ROTL rd, s1, imm: 0 to 63 (06 R190). -/
def execRotlImm (rd : CReg) (s1 : CSrc) (imm : Imm 12) (s : State) : Outcome State Fault Refusal :=
  lane .c s (aluLimited rd s1 imm 0 63 rotlFn s)

/-- SEXT rd, s1, s2 (06 R190). -/
def execSext (rd : CReg) (s1 s2 : CSrc) (s : State) : Outcome State Fault Refusal :=
  lane .c s (aluReg rd s1 s2 (fun a b => sextFn a (extWidth b)) s)

/-- SEXT rd, s1, imm: 1 to 64 (06 R190). -/
def execSextImm (rd : CReg) (s1 : CSrc) (imm : Imm 12) (s : State) : Outcome State Fault Refusal :=
  lane .c s (aluLimited rd s1 imm 1 64 sextFn s)

/-- ZEXT rd, s1, s2 (06 R190). -/
def execZext (rd : CReg) (s1 s2 : CSrc) (s : State) : Outcome State Fault Refusal :=
  lane .c s (aluReg rd s1 s2 (fun a b => zextFn a (extWidth b)) s)

/-- ZEXT rd, s1, imm: 1 to 64 (06 R190). -/
def execZextImm (rd : CReg) (s1 : CSrc) (imm : Imm 12) (s : State) : Outcome State Fault Refusal :=
  lane .c s (aluLimited rd s1 imm 1 64 zextFn s)

/-- CLZ rd, s1 (06 R190). -/
def execClz (rd : CReg) (s1 : CSrc) (s : State) : Outcome State Fault Refusal :=
  lane .c s (aluOne rd s1 clzFn s)

/-- CTZ rd, s1 (06 R190). -/
def execCtz (rd : CReg) (s1 : CSrc) (s : State) : Outcome State Fault Refusal :=
  lane .c s (aluOne rd s1 ctzFn s)

/-- POPC rd, s1 (06 R190). -/
def execPopc (rd : CReg) (s1 : CSrc) (s : State) : Outcome State Fault Refusal :=
  lane .c s (aluOne rd s1 popcFn s)

/-- SEL: s2 when s1 is not zero, s3 otherwise (06 R192). -/
def execSel (rd : CReg) (s1 s2 s3 : CSrc) (s : State) : Outcome State Fault Refusal :=
  lane .c s do
    s.useC [s1, s2, s3] [rd]
    pure (s.setRd rd (if s.valC s1 ≠ 0 then s.valC s2 else s.valC s3))

/-- CMP: 1 when the condition holds, 0 otherwise (06 R191). -/
def execCmp (rd : CReg) (s1 s2 : CSrc) (cond : Cond) (s : State) : Outcome State Fault Refusal :=
  lane .c s (aluReg rd s1 s2 (fun a b => if condHolds cond a b then 1 else 0) s)

/-- LI: the sign-extended immediate (06 R193). -/
def execLi (rd : CReg) (imm : Imm 19) (s : State) : Outcome State Fault Refusal :=
  lane .c s do
    s.useC [] [rd]
    pure (s.setRd rd (immWord imm))

end Sys2Proof.Machine
end

