-- ==== Sys2Proof/Machine/Universal.lean ====
section
/-! DEFINITION. The universal instructions, which every engine has (06 R209-R214; 05 R180). -/

namespace Sys2Proof.Machine

open Sys2Proof Host

/-- The limit of a flag operand (05 R175). -/
def flagLimit : Nat := 0xFFFFFFFF

/-- A FINC or FSET of the matrix or copy engine takes effect only when every earlier command of its engine has completed
(10 R363). -/
def State.commandsDone (s : State) : Engine → Bool
  | .m => s.matIdle
  | .x => s.core.x.xq.isEmpty
  | _ => true

/-- NOP: nothing (05 R180). -/
def execNop (e : Engine) (s : State) : Outcome State Fault Refusal := lane e s (.ok s)

/-- The control engine counts as ended: it fetches no more, and its lanes are empty for every engine (01 R39). -/
def State.exit (s : State) : State := s.endEngine .c

/-- END: the engine executes no further lane; in the control engine it acts as EXIT (06 R214, 01 R36). -/
def execEndE (e : Engine) (s : State) : Outcome State Fault Refusal :=
  lane e s (.ok (if e = .c then s.exit else s.endEngine e))

/-- FINC f, n: the flag rises, saturating, and saturation sets STATUS.FSAT (06 R209). -/
def execFinc (e : Engine) (f : FReg) (n : Imm 18) (s : State) : Outcome State Fault Refusal :=
  lane e s do
    chk (decide (immU n ≤ flagLimit)) .immediateRange
    holdUntil (s.commandsDone e)
    pure (s.incFlag (some e) f.toNat (immU n))

/-- FSET f, n (06 R210). -/
def execFset (e : Engine) (f : FReg) (n : Imm 18) (s : State) : Outcome State Fault Refusal :=
  lane e s do
    chk (decide (immU n ≤ flagLimit)) .immediateRange
    holdUntil (s.commandsDone e)
    pure (s.setFlag f.toNat (immU n))

/-- Engines in the order in which waiting FWAIT lanes complete (06 R212). -/
def engineRank : Engine → Nat
  | .c => 0 | .a => 1 | .v => 2 | .m => 3 | .x => 4

/-- The waiter that completes next, of those for which `f` holds: the first, in engine order, whose condition holds and whose engine
can move (06 R212). -/
def State.readyWaiter (s : State) (f : FlagWait → Bool) : Option FlagWait :=
  [Engine.c, .a, .v, .m, .x].findSome? fun e =>
    s.core.c.waits.find? fun w => w.engine == e && f w && decide (w.n ≤ s.flag w.flag) && s.canMove e

/-- An engine waits no more. -/
def State.dropWaiter (s : State) (e : Engine) : State :=
  s.modC fun c => { c with waits := c.waits.filter fun w => w.engine != e }

/-- The atomic step in which a waiter finds its threshold reached (06 R211). -/
def State.passFlag (s : State) (f n : Nat) (sub : Bool) : State := if sub then s.setFlag f (s.flag f - n) else s

/-- FWAIT f, n: the engine waits until f ≥ n, not at all for an n of 0; .sub lowers the flag by n in the same step. A lane that finds its
condition true while a waiter before it on the flag can complete leaves the flag to that one (06 R211, R212). -/
def execFwait (e : Engine) (f : FReg) (sub : Bool) (n : Imm 18) (s : State) : Outcome State Fault Refusal :=
  if immU n ≤ flagLimit then
    let first := (s.readyWaiter fun w => w.flag == f.toNat).all fun w => w.engine == e
    if immU n ≤ s.flag f.toNat ∧ (immU n = 0 ∨ first = true) then
      lane e s (.ok ((s.dropWaiter e).passFlag f.toNat (immU n) sub))
    else
      .next ((s.dropWaiter e).modC fun c => { c with waits := ⟨e, f.toNat, sub, immU n⟩ :: c.waits })
  else lane e s (trap .immediateRange)

/-- FWAIT_COMPLETE: the waiter that comes first in engine order completes, in its own step (06 R212). -/
def execFwaitComplete (core : Nat) (s : State) : Outcome State Fault Refusal :=
  let t := s.focus core
  match t.readyWaiter fun _ => true with
  | none => .next t
  | some w => .next (((t.dropWaiter w.engine).passFlag w.flag w.n w.sub).advance w.engine)

/-- KWAIT k, n: the engine waits until the token stands at or below n (06 R213). -/
def execKwait (e : Engine) (k : KReg) (n : Imm 6) (s : State) : Outcome State Fault Refusal :=
  lane e s do
    chk (decide (immU n ≤ 63)) .immediateRange
    holdUntil (decide (s.token k.toNat ≤ immU n))
    pure s

end Sys2Proof.Machine
end

