-- ==== Sys2Proof/Machine/Control.lean ====
section
/-! DEFINITION. Branches, calls and frames, traps and their return, the unit's own end (06 R194-R199, R227, R228). -/

namespace Sys2Proof.Machine

open Sys2Proof Host

/-- A target: bits [4:0] and [63:56] zero (06 R194). -/
def targetOk (t : Word) : Bool := decide (t.toNat % 32 = 0 ∧ t.toNat < 2 ^ 56)

/-- Transfer control to a target, whose line is fetched: a translation fault is the transfer lane's (06 R194, 01 R35). -/
def State.transfer (s : State) (t : Word) : M State := do
  chk (targetOk t) .branchTarget
  let (s, ws) ← s.fetchLine t.toNat
  pure (s.jump t.toNat (some ws))

/-- The target of an offset in lines from the lane's own line (06 R194). -/
def State.lineTarget (s : State) (off : Int) : Word := BitVec.ofNat 64 (s.lineAddr .c) + BitVec.ofInt 64 (32 * off)

/-- B label (06 R194). -/
def execB (off : Imm 24) (s : State) : Outcome State Fault Refusal :=
  lane .c s (s.transfer (s.lineTarget (immS off)))

/-- BC.cond s1, s2, label: not taken, it goes on; no group switch then (06 R194, 05 R171). -/
def execBc (cond : Cond) (s1 s2 : CSrc) (off : Imm 8) (s : State) : Outcome State Fault Refusal :=
  lane .c s do
    s.useC [s1, s2] []
    if condHolds cond (s.valC s1) (s.valC s2) then s.transfer (s.lineTarget (immS off)) else pure s

/-- BR s1 (06 R194). -/
def execBr (s1 : CSrc) (s : State) : Outcome State Fault Refusal :=
  lane .c s do
    s.useC [s1] []
    s.transfer (s.valC s1)

/-- Bytes of the window spill area begin here (02 R49). -/
def windowSpill : Nat := 0x1F8000
/-- Bytes of the return-address spill area (02 R50). -/
def returnSpill : Nat := 0x1FC000

/-- An 8-byte entry of a spill area. -/
def State.spill (s : State) (a : Nat) (v : Word) : State := s.setSpad a (natLe 8 v.toNat)
/-- Read one. -/
def State.unspill (s : State) (a : Nat) : Word := BitVec.ofNat 64 (leNat (s.spad a 8))

/-- Push an entry on the return-address store: a full store moves its oldest entry to the spill area (02 R50). -/
def State.pushReturn (s : State) (e : Word) : M State :=
  let u := s.u
  if u.rdepth < 16 then .ok (s.setU { u with rs := u.rs.set u.rdepth e, rdepth := u.rdepth + 1 })
  else if u.rspill < 1024 then
    let t := s.spill (returnSpill + 8 * u.rspill) (u.rs.headD 0)
    .ok (t.setU { t.u with rs := u.rs.tail ++ [e], rspill := u.rspill + 1 })
  else trap .returnOverflow

/-- Pop an entry; a pop with spilled entries refills one (02 R50). -/
def State.popReturn (s : State) : M (State × Word) :=
  let u := s.u
  let back := s.unspill (returnSpill + 8 * (u.rspill - 1))
  if u.rdepth = 0 then
    if u.rspill = 0 then trap .returnUnderflow else .ok (s.setU { u with rspill := u.rspill - 1 }, back)
  else
    let e := u.rs.getD (u.rdepth - 1) 0
    if u.rspill = 0 then .ok (s.setU { u with rdepth := u.rdepth - 1 }, e)
    else .ok (s.setU { u with rs := back :: u.rs.take 15, rspill := u.rspill - 1 }, e)

/-- Write the window at the control engine's lane. -/
def State.setWindow (s : State) (wb : BitVec 8) (frame : Nat) : State := s.write .c (.win wb frame)

/-- CALL and CALLR: push the return line with the caller's frame size, slide the window, go to the target, whose first
control lane must be FRAME (06 R195, 02 R47, R48; log 125). -/
def State.callTo (s : State) (target : Word) : M State := do
  chk (targetOk target) .branchTarget
  let v := s.view .c
  let t ← s.pushReturn (BitVec.ofNat 64 ((s.lineAddr .c + 32) % 2 ^ 56 + v.frame))
  let t := t.setWindow (v.wb + 16) v.frame
  (t.setU { t.u with callPending := true }).transfer target

/-- CALL label (06 R194, R195). -/
def execCall (off : Imm 24) (s : State) : Outcome State Fault Refusal :=
  lane .c s (s.callTo (s.lineTarget (immS off)))

/-- CALLR s1 (06 R194, R195). -/
def execCallr (s1 : CSrc) (s : State) : Outcome State Fault Refusal :=
  lane .c s do
    s.useC [s1] []
    s.callTo (s.valC s1)

/-- Fill the caller's spilled frame of 16 entries back, when it stands in the spill area (02 R49). -/
def State.fillFrame (s : State) (wb : BitVec 8) : State :=
  let u := s.u
  if 16 * u.depth < u.wspill then
    let base := u.wspill - 16
    let t := (List.range 16).foldl (fun t i =>
      t.write .c (.xf ((wb.toNat + i) % 256) (s.unspill (windowSpill + 8 * (base + i))))) s
    t.setU { t.u with wspill := base }
  else s

/-- RET: pop the return line and its frame size, slide the window back, fill a spilled frame (06 R196, 02 R47, R49). -/
def execRet (s : State) : Outcome State Fault Refusal :=
  lane .c s do
    let (t, e) ← s.popReturn
    let wb := (s.view .c).wb - 16
    let t := t.setWindow wb (e.toNat % 32)
    let t := t.fillFrame wb
    t.transfer (BitVec.ofNat 64 (e.toNat / 32 * 32))

/-- The frame sizes (02 R48). -/
def frameSizes : List Nat := [4, 8, 12, 16, 20, 24]

/-- Spill the oldest frame held: its 16 entries in ascending physical order (02 R49). -/
def State.spillFrame (s : State) : State :=
  let u := s.u
  let v := s.view .c
  let first := (v.wb.toNat + 256 * 256 - (16 * u.depth - u.wspill)) % 256
  let t := (List.range 16).foldl (fun t i =>
    t.spill (windowSpill + 8 * (u.wspill + i)) (Sparse.get 0 v.xf ((first + i) % 256))) s
  t.setU { t.u with wspill := u.wspill + 16 }

/-- Spill `n` frames. -/
def State.spillFrames (s : State) : Nat → State
  | 0 => s
  | n + 1 => State.spillFrames s.spillFrame n

/-- Frames to spill so that the live span with a reservation of f fits 256 entries (02 R49). -/
def UnitCtx.excess (u : UnitCtx) (f : Nat) : Nat := (16 * u.depth - u.wspill + f - 256 + 15) / 16

/-- FRAME f: at a call's target it reserves WB to WB + f − 1, spilling first; elsewhere it traps (06 R197, 02 R48, R49). -/
def execFrame (f : BitVec 7) (s : State) : Outcome State Fault Refusal :=
  lane .c s do
    chk (frameSizes.contains f.toNat) .immediateRange
    chk s.u.callPending .framePlacement
    let n := s.u.excess f.toNat
    chk (decide (s.u.wspill + 16 * n ≤ 2048)) .windowOverflow
    let t := s.spillFrames n
    let t := t.setWindow (s.view .c).wb f.toNat
    pure (t.setU { t.u with callPending := false })

/-- TRAP s1, code: the software-trap cause, with the code and the value of s1 in the report (06 R198). -/
def execTrap (s1 : CSrc) (code : BitVec 7) (s : State) : Outcome State Fault Refusal :=
  lane .c s do
    s.useC [s1] []
    .error (.trap .softwareTrap (s.valC s1) code.toNat)

/-- ERET: privileged; the handler ends and the unit resumes (06 R199, 17 R460). -/
def execEret (s : State) : Outcome State Fault Refusal :=
  if s.privileged then .next s.returnTrap else lane .c s (trap .privilegedInstruction)

/-- EXIT (06 R227, 01 R39). -/
def execExitI (s : State) : Outcome State Fault Refusal := lane .c s (.ok s.exit)

/-- YIELD: a point at which the stream controller may pre-empt the open region in favour of a waiting launch. The pre-emption is a step
of its own, REGION_PREEMPTION while the control engine stands at this lane; without it YIELD has no effect (06 R228). -/
def execYieldI (s : State) : Outcome State Fault Refusal := lane .c s (.ok s)

end Sys2Proof.Machine
end

