-- ==== Sys2Proof/Machine/Elementary.lean ====
section
/-! DEFINITION. The elementary functions (03 R120-R122, 07 R253): a result is free within the error bound and on the side of
the exact value that the rounding mode asks for. The exact value is enclosed by fixed-point arithmetic. -/

namespace Sys2Proof.Machine

open Sys2Proof

/-! ### Enclosures -/

/-- An enclosure: the value is negative or not, and its magnitude lies strictly between lo × 2^-1400 and hi × 2^-1400. -/
structure Enc where
  neg : Bool
  lo : Nat
  hi : Nat
  deriving DecidableEq, Repr

/-- One, in units of 2^-1400. -/
def encOne : Nat := 2 ^ 1400

/-- m × 2^e in units of 2^-q, rounded down. -/
def fixedAt (q m : Nat) (e : Int) : Nat :=
  if 0 ≤ e + q then m * 2 ^ (e + q).toNat else m / 2 ^ (-(e + q)).toNat

/-- The sum of t_k for t_{k+1} = f k t_k, each term rounded down. -/
def series (f : Nat → Nat → Nat) : Nat → Nat → Nat → Nat → Nat
  | 0, _, _, acc => acc
  | n + 1, k, t, acc => series f n (k + 1) (f k t) (acc + t)

/-- The sum of (−1)^k t_k / d k, likewise; the second result is what is to be taken away. -/
def altSeries (f : Nat → Nat → Nat) (d : Nat → Nat) : Nat → Nat → Nat → Nat × Nat → Nat × Nat
  | 0, _, _, acc => acc
  | n + 1, k, t, acc =>
    altSeries f d n (k + 1) (f k t) (if k % 2 = 0 then (acc.1 + t / d k, acc.2) else (acc.1, acc.2 + t / d k))

/-- The difference of the two sums. -/
def altSum (f : Nat → Nat → Nat) (d : Nat → Nat) (n t : Nat) : Nat :=
  let p := altSeries f d n 0 t (0, 0)
  p.1 - p.2

/-- What the roundings of a series come to, at most. -/
def slack : Nat := 4096

/-- `n` squarings of an enclosure of a number. -/
def squarings : Nat → Nat × Nat → Nat × Nat
  | 0, p => p
  | n + 1, p => squarings n (p.1 * p.1 / encOne, p.2 * p.2 / encOne + 1)

/-- e^x for 0 ≤ x < 2000, x in units of 2^-1400: the series at x / 4096, squared twelve times. -/
def expPos (x : Nat) : Nat × Nat :=
  let y := x / 4096
  let s := series (fun k t => t * y / encOne / (k + 1)) 300 0 encOne 0
  squarings 12 (s, s + slack)

/-- e^±x for x between two numbers. -/
def expOf (neg : Bool) (lo hi : Nat) : Enc :=
  if 2000 * encOne ≤ lo then (if neg then ⟨false, 0, 1⟩ else ⟨false, 2 ^ 2000 * encOne, 2 ^ 2001 * encOne⟩)
  else
    let a := (expPos lo).1
    let b := (expPos hi).2
    if neg then ⟨false, encOne * encOne / b, encOne * encOne / a + 1⟩ else ⟨false, a - 1, b + 1⟩

/-- e^x. -/
def expEnc (neg : Bool) (m : Nat) (e : Int) : Enc :=
  let x := fixedAt 1400 m e
  expOf neg x x

/-- 2 × artanh (num / den) for num / den ≤ 1/3, from below. -/
def artanh2 (num den : Nat) : Nat :=
  let z := num * encOne / den
  let zz := z * z / encOne
  let rec go : Nat → Nat → Nat → Nat → Nat
    | 0, _, _, acc => acc
    | n + 1, k, t, acc => go n (k + 1) (t * zz / encOne) (acc + t / (2 * k + 1))
  2 * go 500 0 z 0

/-- ln 2, from below. -/
def ln2Lo : Nat := artanh2 1 3

/-- 2^x. -/
def exp2Enc (neg : Bool) (m : Nat) (e : Int) : Enc :=
  let x := fixedAt 1400 m e
  expOf neg (x * ln2Lo / encOne) (x * (ln2Lo + slack) / encOne + 1)

/-- ln x, or log2 x, for x neither 1 nor, for log2, a power of two: n ln 2 + ln t with t in [1, 2). -/
def logEnc (two : Bool) (m : Nat) (e : Int) : Enc :=
  let k := Nat.log2 m
  let n : Int := e + k
  let t := artanh2 (m - 2 ^ k) (m + 2 ^ k)
  let a : Int := ((ln2Lo : Nat) : Int) * n
  let b : Int := ((ln2Lo + slack : Nat) : Int) * n
  let lo := (t : Int) + min a b - 1
  let hi := ((t + slack : Nat) : Int) + max a b + 1
  let neg := decide (hi ≤ 0)
  let x := if neg then (-hi).toNat else lo.toNat
  let y := if neg then (-lo).toNat else hi.toNat
  if two then ⟨neg, x * encOne / (ln2Lo + slack), y * encOne / ln2Lo + 1⟩ else ⟨neg, x, y⟩

/-- The precision to which π is taken. -/
def piBits : Nat := 2500

/-- arctan (1 / n), in units of 2^-2500. -/
def arctanInv (n : Nat) : Nat := altSum (fun _ t => t / (n * n)) (fun k => 2 * k + 1) 600 (2 ^ piBits / n)

/-- π / 2 between two numbers, in units of 2^-2500: π = 16 arctan (1/5) − 4 arctan (1/239). -/
def halfPi : Nat × Nat :=
  let p := 8 * arctanInv 5 - 2 * arctanInv 239
  (p - 65536, p + 65536)

/-- The argument less its nearest multiple of π / 2: the multiple mod 4, whether the rest is negative, and its magnitude
between two numbers. -/
def reduceAngle (m : Nat) (e : Int) : Nat × Bool × Nat × Nat :=
  let x := fixedAt piBits m e
  let p := halfPi
  let q := (2 * x + p.1) / (2 * p.1)
  let lo : Int := (x : Int) - ((q * p.2 : Nat) : Int)
  let hi : Int := (x : Int) - ((q * p.1 : Nat) : Int)
  let neg := decide (hi < 0)
  let a := if neg then (-hi).toNat else lo.toNat
  let b := if neg then (-lo).toNat else hi.toNat
  (q % 4, neg, a / 2 ^ 1100, if b % 2 ^ 1100 = 0 then b / 2 ^ 1100 else b / 2 ^ 1100 + 1)

/-- The sine of a number between two numbers, from 0 to 0.8. -/
def sinOf (neg : Bool) (lo hi : Nat) : Enc :=
  let f (x : Nat) : Nat := altSum (fun k t => t * (x * x / encOne) / encOne / ((2 * k + 2) * (2 * k + 3))) (fun _ => 1) 160 x
  ⟨neg, f lo - slack, min hi (f hi + slack)⟩

/-- The cosine likewise. -/
def cosOf (neg : Bool) (lo hi : Nat) : Enc :=
  let f (x : Nat) : Nat := altSum (fun k t => t * (x * x / encOne) / encOne / ((2 * k + 1) * (2 * k + 2))) (fun _ => 1) 160 encOne
  ⟨neg, f hi - slack, min encOne (f lo + slack)⟩

/-- sin x. -/
def sinEnc (neg : Bool) (m : Nat) (e : Int) : Enc :=
  let (q, n, lo, hi) := reduceAngle m e
  match q with
  | 0 => sinOf (neg != n) lo hi
  | 1 => cosOf neg lo hi
  | 2 => sinOf (neg == n) lo hi
  | _ => cosOf (!neg) lo hi

/-- cos x. -/
def cosEnc (m : Nat) (e : Int) : Enc :=
  let (q, n, lo, hi) := reduceAngle m e
  match q with
  | 0 => cosOf false lo hi
  | 1 => sinOf (!n) lo hi
  | 2 => cosOf true lo hi
  | _ => sinOf n lo hi

/-- tanh x = (e^2x − 1) / (e^2x + 1). -/
def tanhEnc (neg : Bool) (m : Nat) (e : Int) : Enc :=
  let x := fixedAt 1400 m e
  if 500 * encOne ≤ x then ⟨neg, encOne - 2 ^ 700, encOne⟩
  else
    let (a, b) := expPos (2 * x)
    ⟨neg, (a - encOne - 1) * encOne / (a + encOne), min (min x encOne) ((b - encOne) * encOne / (b + encOne) + 1)⟩

/-- erf x = 2/√π × e^(−x²) × Σ 2^k x^(2k+1) / (1·3·…·(2k+1)). Above 8 it is 1 less than 2^-90 short. -/
def erfEnc (neg : Bool) (m : Nat) (e : Int) : Enc :=
  let x := fixedAt 1400 m e
  if 8 * encOne ≤ x then ⟨neg, encOne - 2 ^ 1310, encOne⟩
  else
    let s := series (fun k t => t * (2 * x * x / encOne) / encOne / (2 * k + 3)) 1200 0 x 0
    let err := 2 ^ 160
    let xx := x * x / encOne
    let g := expOf true xx (xx + 1)
    let r := halfPi
    -- √π in units of 2^-1400, from π/2 in units of 2^-2500
    let root (n : Nat) : Nat := isqrt (2 * n * 2 ^ 300)
    let lo := 2 * (s - err) * g.lo / (root r.2 + 1)
    let hi := 2 * (s + err) * (g.hi + 1) / root r.1 + 1
    ⟨neg, lo, min encOne hi⟩

/-! ### Transcendentals (03 R120-R122, 07 R253) -/

/-- The elementary functions. -/
inductive Fn where
  | exp | exp2 | log | log2 | sin | cos | tanh | erf | rcp | rsqrt
  deriving DecidableEq, Repr

/-- Number of a function for the free value. -/
def Fn.code : Fn → Nat
  | .exp => 0 | .exp2 => 1 | .log => 2 | .log2 => 3 | .sin => 4 | .cos => 5 | .tanh => 6 | .erf => 7 | .rcp => 8 | .rsqrt => 9

/-- Units in the last place that a result may be off by (03 R120). -/
def Fn.ulps (fn : Fn) (c : Nat) : Nat := if (fn = .tanh ∨ fn = .erf) ∧ 0x14 ≤ c then 2 else 1

/-- The magnitude of a pattern without sign as m × 2^f; an infinity stands for the power of two above the largest number. -/
def magOf (c p : Nat) : Nat × Int :=
  match floatOf c p with
  | .fin _ m f => (m, f)
  | _ => (1, fmtBias c + 1)

/-- The patterns without sign that lie within `k` units of some magnitude strictly between lo × 2^e and hi × 2^e, and on the
side of it that the mode asks for: not above it (`down`), or not below it (`up`) (03 R120, R121). -/
def within (c k : Nat) (down up : Bool) (lo hi : Nat) (e : Int) : List Nat :=
  let d := (roundFloat c 1 0 false lo e true).1
  let ulp := max (e + (bitLen (hi - 1) : Int) - 1 - fmtFrac c) (1 - fmtBias c - fmtFrac c)
  ((List.range (4 * k + 2)).filterMap fun i => if 2 * k ≤ d + i ∧ d + i - 2 * k ≤ infBits c false then some (d + i - 2 * k) else none).filter fun p =>
    let (m, f) := magOf c p
    let g := min e (min f ulp)
    let r : Int := alignTo false m f g
    let u : Int := alignTo false k ulp g
    let a : Int := alignTo false lo e g
    let b : Int := alignTo false hi e g
    decide (a < r + u) && decide (r < b + u) && (!down || decide (r < b)) && (!up || decide (a < r))

/-- A result that is free within its bound, chosen by the free value: pattern and flags (03 R114, R120, R121; log 9). -/
def pickFn (c k rm free : Nat) (neg : Bool) (lo hi : Nat) (e : Int) : Nat × Nat :=
  if fmtBias c + 1 ≤ e + (bitLen lo : Int) - 1 then roundFloat c rm 0 neg lo e true
  else
    let down := rm == 1 || (rm == 2 && !neg) || (rm == 3 && neg)
    let up := (rm == 2 && neg) || (rm == 3 && !neg)
    let ps := within c k down up lo hi e
    let mag := ps.getD (free % ps.length) (roundFloat c rm 0 false lo e true).1
    (mag + (if neg then signBit c else 0),
     flNX + (if mag = infBits c false then flOF else 0) + (if mag < 2 ^ fmtFrac c then flUF else 0))

/-- A value known to be m × 2^e, and a little more when `sticky`: exact where it can be represented, rounded where
its magnitude passes every number of the format, else free within one unit. -/
def nearFn (c rm free : Nat) (neg : Bool) (m : Nat) (e : Int) (sticky : Bool) : Nat × Nat :=
  let r := roundFloat c rm 0 neg m e sticky
  if r.2 = 0 ∨ fmtBias c + 1 ≤ e + (bitLen m : Int) - 1 then r else pickFn c 1 rm free neg (if sticky then 2 * m else 2 * m - 1) (if sticky then 2 * m + 4 else 2 * m + 1) (e - 1)

/-- A value in an enclosure, free within the bound of its function. -/
def boundFn (fn : Fn) (c rm free : Nat) (x : Enc) : Nat × Nat := pickFn c (fn.ulps c) rm free x.neg x.lo x.hi (-1400)

/-- Whether m × 2^e is an integer, and which. -/
def asInt? (s : Bool) (m : Nat) (e : Int) : Option Int :=
  let v := if 0 ≤ e then some (m * 2 ^ e.toNat)
    else if m % 2 ^ (-e).toNat = 0 then some (m / 2 ^ (-e).toNat) else none
  v.map fun n => if s then -(n : Int) else n

/-- An elementary function at a pattern: special inputs by 03 R122, results that the format holds exactly (R121), else free within the
bounds of R120 and R121, a power of two below the smallest subnormal as well. -/
def floatFn (fn : Fn) (c rm a : Nat) : Nat × Nat :=
  let one := roundFloat c 0 0 false 1 0 false
  let free := Config.transcendental fn.code c rm a
  match floatOf c a with
  | .nan sg => (nanBits c, if sg then flNV else 0)
  | .inf s => match fn with
    | .exp => (if s then 0 else infBits c false, 0)
    | .exp2 => (if s then 0 else infBits c false, 0)
    | .log => if s then (nanBits c, flNV) else (infBits c false, 0)
    | .log2 => if s then (nanBits c, flNV) else (infBits c false, 0)
    | .sin => (nanBits c, flNV)
    | .cos => (nanBits c, flNV)
    | .tanh => roundFloat c 0 0 s 1 0 false
    | .erf => roundFloat c 0 0 s 1 0 false
    | .rcp => (if s then signBit c else 0, 0)
    | .rsqrt => if s then (nanBits c, flNV) else (0, 0)
  | .fin s m e =>
    if m = 0 then match fn with
      | .exp => one
      | .exp2 => one
      | .cos => one
      | .log => (infBits c true, flDZ)
      | .log2 => (infBits c true, flDZ)
      | .rcp => (infBits c s, flDZ)
      | .rsqrt => (infBits c s, flDZ)
      | _ => (a, 0)
    else match fn with
      | .rcp =>
        let (q, k, st) := quotient 200 1 m
        nearFn c rm free s q (k - e) st
      | .rsqrt =>
        if s then (nanBits c, flNV)
        else
          -- 1/√(m·2^e) = √(1/(m·2^e)), the quotient taken with more than twice the bits
          let (q, k, st) := quotient 800 1 m
          let (r, k2, st2) := rootOf 200 q (k - e)
          nearFn c rm free false r k2 (st || st2)
      | .log => if s then (nanBits c, flNV)
          else if decide (Val.cmp (.fin false m e) (.fin false 1 0) = 0) then (0, 0) else boundFn fn c rm free (logEnc false m e)
      | .log2 => if s then (nanBits c, flNV)
          else if m = 2 ^ Nat.log2 m then
            let n : Int := e + (Nat.log2 m : Int)
            roundFloat c rm 0 (decide (n < 0)) n.natAbs 0 false
          else boundFn fn c rm free (logEnc true m e)
      | .exp2 => match asInt? s m e with
          | some n => nearFn c rm free false 1 (max n (-5000)) false
          | none => boundFn fn c rm free (exp2Enc s m e)
      | .exp => boundFn fn c rm free (expEnc s m e)
      | .sin => boundFn fn c rm free (sinEnc s m e)
      | .cos => boundFn fn c rm free (cosEnc m e)
      | .tanh => boundFn fn c rm free (tanhEnc s m e)
      | .erf => boundFn fn c rm free (erfEnc s m e)

end Sys2Proof.Machine
end

