-- ==== Sys2Proof/Machine/Lease.lean ====
section
/-! DEFINITION. Row check words and their corrections, the lantern's arbiter, MLEASE and the lease limits (08 R277,
R289-R294, R306-R308). -/

namespace Sys2Proof.Machine

open Sys2Proof Host

/-! ### Row checks (08 R306-R308) -/

/-- What a row's check finds. -/
inductive RowCheck where
  | clean
  | flip (col bit : Nat)
  | bad
  deriving DecidableEq, Repr

/-- S and W as the stored patterns give them. -/
def Quad.rowSums (d : Quad) (r : Nat) : Word × Word :=
  (d.acc.filter fun c => c.1 / 128 == r).foldl
    (fun n c => (n.1 + c.2, n.2 + BitVec.ofNat 64 (c.1 % 128 + 1) * c.2)) (0, 0)

/-- The one flip of bits 0 to 57 that ΔS and ΔW show: column and bit. -/
def flipOf (ds dw : Word) : Option (Nat × Nat) :=
  (List.range 58).findSome? fun b =>
    let p := BitVec.ofNat 64 (2 ^ b)
    let col (g : Word) : Option (Nat × Nat) :=
      ((List.range 128).find? fun c => BitVec.ofNat 64 (c + 1) * g == dw).map fun c => (c, b)
    if ds = p then col p else if ds = -p then col (-p) else none

/-- The check of a row. -/
def Quad.rowCheck (d : Quad) (r : Nat) : RowCheck :=
  let (s, w) := d.rowSums r
  let ds := s - Sparse.get 0 d.sw r
  let dw := w - Sparse.get 0 d.ww r
  if ds = 0 ∧ dw = 0 then .clean
  else match flipOf ds dw with
    | some (c, b) => .flip c b
    | none => .bad

/-- Invert a stored accumulator bit, outside the check words. -/
def Quad.flipBit (d : Quad) (r c b : Nat) : Quad :=
  let k := 128 * r + c
  { d with acc := Sparse.set 0 d.acc k (Sparse.get 0 d.acc k ^^^ BitVec.ofNat 64 (2 ^ b)) }

/-- Check a row of a quadrant for a core: the flip corrected, or whether it is uncorrectable. -/
def State.checkRow (s : State) (ltn q r core : Nat) : State × Bool :=
  let l := s.lanternAt ltn
  let d := l.quad q
  match d.rowCheck r with
  | .clean => (s, true)
  | .flip c b => ((s.setLanternAt ltn (l.setQuad q (d.flipBit r c b))).noteCorrection core, true)
  | .bad => (s, false)

/-- Check rows: the state with every flip corrected, and the uncorrectable rows. -/
def State.checkRows (s : State) (ltn q core : Nat) (rows : List Nat) : State × List Nat :=
  rows.foldl (fun p r =>
    let (t, ok) := p.1.checkRow ltn q r core
    (t, if ok then p.2 else p.2 ++ [r])) (s, [])

/-- ARBITER_PASS. -/
def execArbiterPass (ltn : Nat) (s : State) : Outcome State Fault Refusal := event s (.ok (s.arbiterPass ltn))

/-- The core in focus begins to wait, which starts a pass. -/
def State.awaitLease (s : State) : State :=
  let l := s.lantern
  let c := s.cur % 4
  if l.waiting.contains c then s
  else (s.setLantern { l with waiting := l.waiting ++ [c] }).arbiterPass (s.cur / 4)

/-! ### MLEASE, and the end of a lease (08 R277, R289, R294) -/

/-- The quadrants a core's lantern offers: none to a lamplighter, which is control-only (01 R14). -/
def State.liveQuads (s : State) : Nat := if s.cur < 512 then s.lantern.live else 0

/-- The checks of a quadrant mask (08 R277). -/
def State.maskChecks (s : State) (mask : Nat) : M PUnit := do
  chk (leaseMasks.contains mask) .leaseMask
  chk ((leaseQuads mask).all fun q => hasQuad s.liveQuads q) .quadrantFused

/-- A restored row of the unit's own that stands poisoned raises its cause at the unit's next command (08 R308). -/
def State.badRows (s : State) : M PUnit :=
  let qs := (leaseQuads s.core.c.mat.lease).filter fun q =>
    (s.lantern.quad q).holder == some (s.cur % 4) && !(s.lantern.quad q).bad.isEmpty
  if qs.isEmpty then .ok ⟨⟩
  else .error (.trapped (s.setLantern (qs.foldl (fun l q => l.setQuad q { l.quad q with bad := [] }) s.lantern))
    .accumulatorUncorrectable 0)

/-- A lane of engine `e` changes PARKST, whose value so far stays for the lanes before it (02 R79, 01 R32). -/
def State.notePark (s : State) (e : Engine) : State := s.write e (.park (s.parkst e))

/-- An MLEASE reaches the arbiter: its token rises and the core begins to wait. It waits again after a frame edge (19 R490). -/
def State.requestLease (s : State) (mask : Nat) (tok : Tok) : M State := do
  if s.core.c.mat.want ≠ 0 then pure (if s.core.c.mat.lease = 0 then s.awaitLease else s)
  else do
    s.maskChecks mask
    holdUntil s.matIdle
    chk (s.core.c.mat.lease == 0) .leaseHeld
    let t ← s.raiseToken tok
    pure (((t.notePark .m).modMat fun m => { m with want := mask }).awaitLease)

/-- MLEASE qmask, k (08 R289). -/
def execMlease (q : BitVec 4) (tok : Tok) (s : State) : Outcome State Fault Refusal :=
  match s.requestLease q.toNat tok with
  | .error x => lane .m s (.error x)
  | .ok t =>
    if t.core.c.mat.lease = q.toNat then
      .next ((((t.modMat fun m => { m with want := 0 }).lowerToken tok).regrant .m).advance .m)
    else .next t

/-- Release the lease of the core in focus with its saved copies, and let the arbiter run (08 R294). -/
def State.freeLease (s : State) : State :=
  let t := s.setLantern (s.lantern.releaseLease (s.cur % 4) s.core.c.mat.lease)
  (t.modMat fun m => { m with lease := 0, lost := false, owed := 0 }).arbiterPass (s.cur / 4)

/-! ### The limits (08 R291-R293) -/

/-- A limit of the lease is reached. -/
def State.limitReached (s : State) : Bool :=
  let m := s.core.c.mat
  m.lease != 0 && !m.lost && (decide (s.core.c.csr.leaseLen ≤ m.cmds) || decide (m.start + s.core.c.csr.leaseCyc ≤ s.cyc))

/-- Another core waits for one of the lease's quadrants. -/
def State.contended (s : State) : Bool :=
  s.lantern.waiting.any fun c => c != s.cur % 4 &&
    (leaseQuads (s.coreAt (4 * (s.cur / 4) + c)).c.mat.wanted).any fun q => hasQuad s.core.c.mat.lease q

/-- Save a quadrant of an ending lease: its rows are checked, and the uncorrectable ones marked (08 R291, R308). -/
def State.saveQuad (s : State) (q : Nat) : State :=
  let ltn := s.cur / 4
  let rows := (List.range 128).filter fun r => !(s.lantern.quad q).rowParked r
  let (t, bad) := s.checkRows ltn q s.cur rows
  let d := t.lantern.quad q
  let save : LeaseSave := ⟨d.acc.filter fun c => rows.contains (c.1 / 128), d.sw.filter fun c => rows.contains c.1,
    d.ww.filter fun c => rows.contains c.1, (d.bad ++ bad).eraseDups, [], none⟩
  let l := t.lantern.setQuad q (d.release (s.cur % 4))
  t.setLantern { l with saves := Sparse.set none l.saves (4 * (s.cur % 4) + q) (some save) }

/-- The lease of the core in focus ends: saved, released, the unit to wait again when it has a command (08 R291). -/
def State.loseLease (s : State) : State :=
  let t := (leaseQuads s.core.c.mat.lease).foldl State.saveQuad s
  (t.modMat fun m => { m with lost := true }).arbiterPass (s.cur / 4)

/-- LEASE_LIMIT_REACHED: the lease ends when another core waits, once no command is in progress, none is owed to a stop and no quadrant of
it is stopped; the counts restart when none waits (08 R291, 18 R482). -/
def execLeaseLimitReached (core : Nat) (s : State) : Outcome State Fault Refusal :=
  let t := s.focus core
  event s (.ok (
    if t.limitReached then
      if t.contended then
        if t.product.isNone && !t.quadStopped && t.core.c.mat.owed == 0 then t.loseLease else t
      else t.modMat fun m => { m with cmds := 0, start := t.cyc }
    else t))

end Sys2Proof.Machine
end

