-- ==== Sys2Proof/Machine/Vector.lean ====
section
/-! DEFINITION. Elementwise vector arithmetic, division and the transcendentals (07 R241-R253). -/

namespace Sys2Proof.Machine

open Sys2Proof Host

/-! ### What vector lanes share -/

/-- The format causes of sources that an instruction accepts when `ok` holds, in order: raw-operand, reserved-format,
unsupported-format (07 R245, R246). -/
def accept (cs : List Nat) (ok : Nat → Bool) : M PUnit := do
  chk (cs.all fun c => c != 0) .rawOperand
  chk (cs.all fmtOk) .reservedFormat
  chk (cs.all ok) .unsupportedFormat

/-- I and F. -/
def fmtIF (c : Nat) : Bool := fmtI c || fmtF c

/-- The converter of a lane with mode `rm`: it advances once for .sr when the lane rounds (03 R107, R109). -/
def State.useGen (s : State) (rm : Nat) (rounds : Bool) : State × Word :=
  if rm = 6 ∧ rounds = true then
    let g := nextGen s.core.v.gen
    (s.modV fun v => { v with gen := g }, g)
  else (s, s.core.v.gen)

/-- The lanes of a result of operating format `c` and the flags of its active lanes: `f` gives an active lane's pattern and
flags, every other lane keeps the destination's previous bits (07 R243). -/
def State.buildLanes (s : State) (vd : VDst) (c : Nat) (f : Nat → Nat × Nat) : List Nat × Nat :=
  let w := fmtWidth c
  let old := s.oldV vd
  let rs := (List.range (s.lanes c)).map fun k => if s.active c k then f k else (old.lane w k, 0)
  (rs.map Prod.fst, rs.foldl (fun n r => n ||| r.2) 0)

/-- A vector lane completes: its destination has room, its sources are taken, its flags raised, its result written. -/
def State.finishV (s : State) (srcs : List VSrc) (vd : VDst) (e : Elem) (fl : Nat) : M State := do
  s.roomV vd
  pure (((s.takeV srcs).raiseFv fl).putV vd e)

/-- A two-source lane of one format (07 R245, R249): `f` takes format, rounding value and the two patterns. -/
def State.vbin (s : State) (vd : VDst) (vs1 vs2 : VSrc) (rm : Nat) (ok : Nat → Bool) (f : Nat → Nat → Nat → Nat → Nat × Nat) :
    M State := do
  s.useV [vs1, vs2]
  let a := s.valV vs1
  let b := s.valV vs2
  let c := a.code
  chk (rm != 7) .roundingMode
  accept [c, b.code] ok
  chk (c == b.code) .mixedFormat
  let (t, g) := s.useGen rm (fmtF c)
  let w := fmtWidth c
  let (ls, fl) := s.buildLanes vd c fun k => f c (rndOf g k) (a.lane w k) (b.lane w k)
  t.finishV [vs1, vs2] vd (mkElem a.fmt a.scales w ls) fl

/-- A one-source lane. -/
def State.vone (s : State) (vd : VDst) (vs1 : VSrc) (rm : Nat) (ok : Nat → Bool) (f : Nat → Nat → Nat → Nat × Nat) : M State := do
  s.useV [vs1]
  let a := s.valV vs1
  let c := a.code
  chk (rm != 7) .roundingMode
  accept [c] ok
  let (t, g) := s.useGen rm (fmtF c)
  let w := fmtWidth c
  let (ls, fl) := s.buildLanes vd c fun k => f c (rndOf g k) (a.lane w k)
  t.finishV [vs1] vd (mkElem a.fmt a.scales w ls) fl

/-! ### Arithmetic (07 R249-R251) -/

/-- VADD on two patterns. -/
def vaddFn (rm c rnd a b : Nat) : Nat × Nat :=
  if fmtI c then (wrapBits (fmtWidth c) (intOf c a + intOf c b), 0) else floatAdd c rm rnd a b
/-- VSUB. -/
def vsubFn (rm c rnd a b : Nat) : Nat × Nat :=
  if fmtI c then (wrapBits (fmtWidth c) (intOf c a - intOf c b), 0) else floatSub c rm rnd a b
/-- VMUL. -/
def vmulFn (rm c rnd a b : Nat) : Nat × Nat :=
  if fmtI c then (wrapBits (fmtWidth c) (intOf c a * intOf c b), 0) else floatMul c rm rnd a b
/-- VMULH: the high half of the product. -/
def vmulhFn (c _ a b : Nat) : Nat × Nat :=
  (wrapBits (fmtWidth c) (Int.fdiv (intOf c a * intOf c b) ((2 ^ fmtWidth c : Nat) : Int)), 0)
/-- VMIN and VMAX. -/
def vminmaxFn (isMax : Bool) (c _ a b : Nat) : Nat × Nat :=
  if fmtI c then (intMinMax c isMax a b, 0) else floatMinMax c isMax a b
/-- VABS. -/
def vabsFn (c _ a : Nat) : Nat × Nat :=
  if fmtI c then (wrapBits (fmtWidth c) ((intOf c a).natAbs : Int), 0) else (a % signBit c, 0)
/-- VNEG. -/
def vnegFn (c _ a : Nat) : Nat × Nat :=
  if fmtI c then (wrapBits (fmtWidth c) (-intOf c a), 0) else ((a + signBit c) % (2 * signBit c), 0)

/-- VADD.rm vd, vs1, vs2 (07 R249). -/
def execVadd (vd : VDst) (vs1 vs2 : VSrc) (rm : BitVec 3) (s : State) : Outcome State Fault Refusal :=
  lane .v s (s.vbin vd vs1 vs2 rm.toNat fmtIF (vaddFn rm.toNat))
/-- VSUB.rm vd, vs1, vs2 (07 R249). -/
def execVsub (vd : VDst) (vs1 vs2 : VSrc) (rm : BitVec 3) (s : State) : Outcome State Fault Refusal :=
  lane .v s (s.vbin vd vs1 vs2 rm.toNat fmtIF (vsubFn rm.toNat))
/-- VMUL.rm vd, vs1, vs2 (07 R249). -/
def execVmul (vd : VDst) (vs1 vs2 : VSrc) (rm : BitVec 3) (s : State) : Outcome State Fault Refusal :=
  lane .v s (s.vbin vd vs1 vs2 rm.toNat fmtIF (vmulFn rm.toNat))
/-- VMULH vd, vs1, vs2 (07 R249). -/
def execVmulh (vd : VDst) (vs1 vs2 : VSrc) (s : State) : Outcome State Fault Refusal :=
  lane .v s (s.vbin vd vs1 vs2 0 fmtI vmulhFn)
/-- VMIN vd, vs1, vs2 (07 R249, R251). -/
def execVmin (vd : VDst) (vs1 vs2 : VSrc) (s : State) : Outcome State Fault Refusal :=
  lane .v s (s.vbin vd vs1 vs2 0 fmtIF (vminmaxFn false))
/-- VMAX vd, vs1, vs2 (07 R249, R251). -/
def execVmax (vd : VDst) (vs1 vs2 : VSrc) (s : State) : Outcome State Fault Refusal :=
  lane .v s (s.vbin vd vs1 vs2 0 fmtIF (vminmaxFn true))
/-- VABS vd, vs1 (07 R249, R251). -/
def execVabs (vd : VDst) (vs1 : VSrc) (s : State) : Outcome State Fault Refusal :=
  lane .v s (s.vone vd vs1 0 fmtIF vabsFn)
/-- VNEG vd, vs1 (07 R249, R251). -/
def execVneg (vd : VDst) (vs1 : VSrc) (s : State) : Outcome State Fault Refusal :=
  lane .v s (s.vone vd vs1 0 fmtIF vnegFn)

/-! ### Shifts and bits (07 R250) -/

/-- A shift: vs2 carries an integer format of the width of vs1. -/
def State.vshift (s : State) (vd : VDst) (vs1 vs2 : VSrc) (f : Nat → Nat → Nat → Nat) : M State := do
  s.useV [vs1, vs2]
  let a := s.valV vs1
  let b := s.valV vs2
  let c := a.code
  let w := fmtWidth c
  chk (c != 0 && b.code != 0) .rawOperand
  chk (fmtOk c && fmtOk b.code) .reservedFormat
  chk (fmtI c) .unsupportedFormat
  chk (fmtI b.code && fmtWidth b.code == w) .mixedFormat
  let (ls, fl) := s.buildLanes vd c fun k => (f c (a.lane w k) (b.lane w k), 0)
  s.finishV [vs1, vs2] vd (mkElem a.fmt a.scales w ls) fl

/-- VSHL vd, vs1, vs2 (07 R249, R250). -/
def execVshl (vd : VDst) (vs1 vs2 : VSrc) (s : State) : Outcome State Fault Refusal :=
  lane .v s (s.vshift vd vs1 vs2 fun c a n => if fmtWidth c ≤ n then 0 else a * 2 ^ n % 2 ^ fmtWidth c)
/-- VSHR vd, vs1, vs2 (07 R249, R250). -/
def execVshr (vd : VDst) (vs1 vs2 : VSrc) (s : State) : Outcome State Fault Refusal :=
  lane .v s (s.vshift vd vs1 vs2 fun c a n => if fmtWidth c ≤ n then 0 else a / 2 ^ n)
/-- VSAR vd, vs1, vs2 (07 R249, R250). -/
def execVsar (vd : VDst) (vs1 vs2 : VSrc) (s : State) : Outcome State Fault Refusal :=
  lane .v s (s.vshift vd vs1 vs2 fun c a n =>
    wrapBits (fmtWidth c) (Int.fdiv (intOf c a) ((2 ^ min n (fmtWidth c) : Nat) : Int)))

/-- A bitwise lane: any formats, the result's those of vs1. -/
def State.vbits (s : State) (vd : VDst) (vs1 vs2 : VSrc) (f : Nat → Nat → Nat) : M State := do
  s.useV [vs1, vs2]
  let a := s.valV vs1
  let b := s.valV vs2
  let w := fmtWidth a.code
  let (ls, fl) := s.buildLanes vd a.code fun k => (f (a.lane w k) (b.lane w k), 0)
  s.finishV [vs1, vs2] vd (mkElem a.fmt a.scales w ls) fl

/-- VAND vd, vs1, vs2 (07 R249, R250). -/
def execVand (vd : VDst) (vs1 vs2 : VSrc) (s : State) : Outcome State Fault Refusal := lane .v s (s.vbits vd vs1 vs2 (· &&& ·))
/-- VOR vd, vs1, vs2 (07 R249, R250). -/
def execVor (vd : VDst) (vs1 vs2 : VSrc) (s : State) : Outcome State Fault Refusal := lane .v s (s.vbits vd vs1 vs2 (· ||| ·))
/-- VXOR vd, vs1, vs2 (07 R249, R250). -/
def execVxor (vd : VDst) (vs1 vs2 : VSrc) (s : State) : Outcome State Fault Refusal := lane .v s (s.vbits vd vs1 vs2 (· ^^^ ·))

/-- A one-source lane that accepts every format and moves bits. -/
def State.vmoveBits (s : State) (vd : VDst) (vs1 : VSrc) (f : Nat → Nat → Nat) : M State := do
  s.useV [vs1]
  let a := s.valV vs1
  let w := fmtWidth a.code
  let (ls, fl) := s.buildLanes vd a.code fun k => (f w (a.lane w k), 0)
  s.finishV [vs1] vd (mkElem a.fmt a.scales w ls) fl

/-- VNOT vd, vs1 (07 R249, R250). -/
def execVnot (vd : VDst) (vs1 : VSrc) (s : State) : Outcome State Fault Refusal :=
  lane .v s (s.vmoveBits vd vs1 fun w a => 2 ^ w - 1 - a % 2 ^ w)
/-- VPOPC vd, vs1 (07 R249). -/
def execVpopc (vd : VDst) (vs1 : VSrc) (s : State) : Outcome State Fault Refusal :=
  lane .v s (s.vone vd vs1 0 fmtI fun c _ a => ((List.range (fmtWidth c)).countP fun i => a.testBit i, 0))
/-- VCLZ vd, vs1 (07 R249). -/
def execVclz (vd : VDst) (vs1 : VSrc) (s : State) : Outcome State Fault Refusal :=
  lane .v s (s.vone vd vs1 0 fmtI fun c _ a => (fmtWidth c - bitLen a, 0))

/-! ### Multiply and add (07 R252) -/

/-- c + a × b of one format. -/
def vmaFn (rm c rnd x a b : Nat) : Nat × Nat :=
  if fmtI c then (wrapBits (fmtWidth c) (intOf c x + intOf c a * intOf c b), 0) else floatFma c rm rnd x a b

/-- VMA.rm vd, vs1, vs2, with the addend in vd or in E1 (07 R252). -/
def execVma (vd : VDst) (vs1 vs2 : VSrc) (rm : BitVec 3) (c : Option VSrc) (s : State) : Outcome State Fault Refusal :=
  lane .v s do
    chk (c.isSome || decide (vd.toNat < 64)) .reservedDestination
    let srcs := [vs1, vs2] ++ c.toList
    s.useV srcs
    let a := s.valV vs1
    let b := s.valV vs2
    let x := match c with | some e => s.valV e | none => s.oldV vd
    let f := a.code
    chk (rm.toNat != 7) .roundingMode
    accept [f, b.code, x.code] fmtIF
    chk (f == b.code && f == x.code) .mixedFormat
    let (t, g) := s.useGen rm.toNat (fmtF f)
    let w := fmtWidth f
    let (ls, fl) := s.buildLanes vd f fun k => vmaFn rm.toNat f (rndOf g k) (x.lane w k) (a.lane w k) (b.lane w k)
    t.finishV srcs vd (mkElem a.fmt x.scales w ls) fl

/-! ### Division, roots and transcendentals (07 R253) -/

/-- VDIV.rm vd, vs1, vs2. -/
def execVdiv (vd : VDst) (vs1 vs2 : VSrc) (rm : BitVec 3) (s : State) : Outcome State Fault Refusal :=
  lane .v s (s.vbin vd vs1 vs2 rm.toNat fmtF fun c rnd a b => floatDiv c rm.toNat rnd a b)
/-- VSQRT.rm vd, vs1. -/
def execVsqrt (vd : VDst) (vs1 : VSrc) (rm : BitVec 3) (s : State) : Outcome State Fault Refusal :=
  lane .v s (s.vone vd vs1 rm.toNat fmtF fun c rnd a => floatSqrt c rm.toNat rnd a)

/-- A transcendental: .rne, .rtz, .rdn and .rup only (03 R121). -/
def State.vfn (s : State) (vd : VDst) (vs1 : VSrc) (rm : Nat) (fn : Fn) : M State := do
  s.useV [vs1]
  let a := s.valV vs1
  let c := a.code
  chk (rm != 7) .roundingMode
  accept [c] fmtF
  chk (decide (rm ≤ 3)) .transcendentalMode
  let w := fmtWidth c
  let (ls, fl) := s.buildLanes vd c fun k => floatFn fn c rm (a.lane w k)
  s.finishV [vs1] vd (mkElem a.fmt a.scales w ls) fl

/-- VEXP.rm vd, vs1. -/
def execVexp (vd : VDst) (vs1 : VSrc) (rm : BitVec 3) (s : State) : Outcome State Fault Refusal := lane .v s (s.vfn vd vs1 rm.toNat .exp)
/-- VEXP2.rm vd, vs1. -/
def execVexp2 (vd : VDst) (vs1 : VSrc) (rm : BitVec 3) (s : State) : Outcome State Fault Refusal := lane .v s (s.vfn vd vs1 rm.toNat .exp2)
/-- VLOG.rm vd, vs1. -/
def execVlog (vd : VDst) (vs1 : VSrc) (rm : BitVec 3) (s : State) : Outcome State Fault Refusal := lane .v s (s.vfn vd vs1 rm.toNat .log)
/-- VLOG2.rm vd, vs1. -/
def execVlog2 (vd : VDst) (vs1 : VSrc) (rm : BitVec 3) (s : State) : Outcome State Fault Refusal := lane .v s (s.vfn vd vs1 rm.toNat .log2)
/-- VSIN.rm vd, vs1. -/
def execVsin (vd : VDst) (vs1 : VSrc) (rm : BitVec 3) (s : State) : Outcome State Fault Refusal := lane .v s (s.vfn vd vs1 rm.toNat .sin)
/-- VCOS.rm vd, vs1. -/
def execVcos (vd : VDst) (vs1 : VSrc) (rm : BitVec 3) (s : State) : Outcome State Fault Refusal := lane .v s (s.vfn vd vs1 rm.toNat .cos)
/-- VTANH.rm vd, vs1. -/
def execVtanh (vd : VDst) (vs1 : VSrc) (rm : BitVec 3) (s : State) : Outcome State Fault Refusal := lane .v s (s.vfn vd vs1 rm.toNat .tanh)
/-- VERF.rm vd, vs1. -/
def execVerf (vd : VDst) (vs1 : VSrc) (rm : BitVec 3) (s : State) : Outcome State Fault Refusal := lane .v s (s.vfn vd vs1 rm.toNat .erf)
/-- VRCP.rm vd, vs1. -/
def execVrcp (vd : VDst) (vs1 : VSrc) (rm : BitVec 3) (s : State) : Outcome State Fault Refusal := lane .v s (s.vfn vd vs1 rm.toNat .rcp)
/-- VRSQRT.rm vd, vs1. -/
def execVrsqrt (vd : VDst) (vs1 : VSrc) (rm : BitVec 3) (s : State) : Outcome State Fault Refusal := lane .v s (s.vfn vd vs1 rm.toNat .rsqrt)

/-! ### Reductions (07 R262, 03 R118) -/

/-- The smallest power of two at or above a length. -/
def pow2Up (n : Nat) : Nat := if n ≤ 1 then 1 else 2 ^ bitLen (n - 1)

/-- One level of the tree over the first `2h` lanes: `op` takes the lane it writes and the two patterns. -/
def treeLevel (op : Nat → Nat → Nat → Nat × Nat) (h : Nat) (p : List (Option Nat) × Nat) : List (Option Nat) × Nat :=
  let at' (i : Nat) : Option Nat := (p.1[i]?).getD none
  (List.range h).foldl (fun q i =>
    match at' i, at' (i + h) with
    | some a, some b => (q.1 ++ [some (op i a b).1], q.2 ||| (op i a b).2)
    | none, some b => (q.1 ++ [some b], q.2)
    | x, none => (q.1 ++ [x], q.2)) ([], p.2)

/-- The tree from `h` down. -/
def treeFold (op : Nat → Nat → Nat → Nat × Nat) : Nat → Nat → List (Option Nat) × Nat → List (Option Nat) × Nat
  | 0, _, p => p
  | fuel + 1, h, p => if h = 0 then p else treeFold op fuel (h / 2) (treeLevel op h p)

/-- A reduction: lane 0 takes the tree's value, every other lane follows R243 as if inactive. -/
def State.vreduce (s : State) (vd : VDst) (vs1 : VSrc) (rm : Nat) (op : Nat → Nat → Nat → Nat → Nat × Nat) (ident : Nat → Nat) :
    M State := do
  s.useV [vs1]
  let a := s.valV vs1
  let c := a.code
  chk (rm != 7) .roundingMode
  accept [c] fmtIF
  let (t, g) := s.useGen rm (fmtF c)
  let w := fmtWidth c
  let len := min s.curShape.gvl.toNat (s.lanes c)
  let xs := (List.range len).map fun k => if s.active c k then some (a.lane w k) else none
  let (r, fl) := treeFold (fun i => op c (rndOf g i)) 10 (pow2Up len / 2) (xs, 0)
  let v := ((r[0]?).getD none).getD (ident c)
  let old := s.oldV vd
  let ls := (List.range (s.lanes c)).map fun k => if k = 0 then v else old.lane w k
  t.finishV [vs1] vd (mkElem a.fmt a.scales w ls) fl

/-- VRSUM.rm vd, vs1 (07 R262). -/
def execVrsum (vd : VDst) (vs1 : VSrc) (rm : BitVec 3) (s : State) : Outcome State Fault Refusal :=
  lane .v s (s.vreduce vd vs1 rm.toNat (vaddFn rm.toNat) fun _ => 0)
/-- VRMAX vd, vs1 (07 R262). -/
def execVrmax (vd : VDst) (vs1 : VSrc) (s : State) : Outcome State Fault Refusal :=
  lane .v s (s.vreduce vd vs1 0 (vminmaxFn true) fun c => if fmtI c then wrapBits (fmtWidth c) (fmtMin c) else nanBits c)
/-- VRMIN vd, vs1 (07 R262). -/
def execVrmin (vd : VDst) (vs1 : VSrc) (s : State) : Outcome State Fault Refusal :=
  lane .v s (s.vreduce vd vs1 0 (vminmaxFn false) fun c => if fmtI c then wrapBits (fmtWidth c) (fmtMax c) else nanBits c)

end Sys2Proof.Machine
end

