-- ==== Sys2Proof/Machine/Convert.lean ====
section
/-! DEFINITION. Vector conversion, tags, seeds and the narrow formats (07 R254-R261). -/

namespace Sys2Proof.Machine

open Sys2Proof Host

/-! ### VCVT (07 R254) -/

/-- The formats that selectors 0 to 10 name. -/
def cvtTargets : List Nat := [1, 2, 3, 4, 5, 0x10, 0x11, 0x12, 0x13, 0x14, 0x15]

/-- I, F8 and F. -/
def fmtConv (c : Nat) : Bool := fmtI c || fmtF8 c || fmtF c

/-- The lanes VCVT converts, as (operating lane, source lane, target lane). -/
def cvtLanes (ws wt n part : Nat) : List (Nat × Nat × Nat) :=
  (List.range n).map fun k => if wt ≤ ws then (k, k, part * n + k) else (k, part * n + k, k)

/-- VCVT.rm vd, vs1, T, part. -/
def execVcvt (vd : VDst) (vs1 : VSrc) (part : BitVec 3) (t : BitVec 4) (rm : BitVec 3) (s : State) : Outcome State Fault Refusal :=
  lane .v s do
    chk (decide (t.toNat ≤ 10)) .reservedField
    s.useV [vs1]
    let a := s.valV vs1
    let c := a.code
    let tgt := cvtTargets.getD t.toNat 1
    chk (rm.toNat != 7) .roundingMode
    accept [c] fmtConv
    let ws := fmtWidth c
    let wt := fmtWidth tgt
    chk (decide (part.toNat < max ws wt / min ws wt)) .immediateRange
    let wide := if wt ≤ ws then c else tgt
    let old := s.oldV vd
    let act := (cvtLanes ws wt (s.lanes wide) part.toNat).filter fun x => s.active wide x.1
    let intTgt := fmtI tgt
    chk (act.all fun x => old.laneScale wt x.2.2 != 255 && !(intTgt && a.laneScale ws x.2.1 == 255)) .nanScale
    let (g, w) := s.useGen rm.toNat true
    let rs := act.map fun x => (x.2.2, convert (valOf c (a.lane ws x.2.1)) (a.laneScale ws x.2.1) tgt (old.laneScale wt x.2.2)
      rm.toNat (rndOf w x.2.2))
    let ls := (List.range (s.lanes tgt)).map fun o => match rs.find? fun r => r.1 == o with
      | some r => r.2.1
      | none => old.lane wt o
    g.finishV [vs1] vd (mkElem (BitVec.ofNat 8 tgt) old.scales wt ls) (rs.foldl (fun n r => n ||| r.2.2) 0)

/-! ### VSCALE, VTAG, VSEED (07 R255-R257) -/

/-- VSCALE vd, vs1, v. -/
def execVscale (vd : VDst) (vs1 : VSrc) (val : BitVec 8) (s : State) : Outcome State Fault Refusal :=
  lane .v s do
    s.useV [vs1]
    s.finishV [vs1] vd { s.valV vs1 with scales := s.fitScales (List.replicate 4 val) } 0

/-- One scale byte of VSCALE.add. -/
def addScale (b v : Byte) : Int := if b = 0xFF then 0xFF else (b.toNat : Int) + v.toInt

/-- VSCALE.add vd, vs1, v. -/
def execVscaleAdd (vd : VDst) (vs1 : VSrc) (val : BitVec 8) (s : State) : Outcome State Fault Refusal :=
  lane .v s do
    s.useV [vs1]
    let a := s.valV vs1
    let used := if s.core.sys.full then a.scales else a.scales.take 2
    chk (used.all fun b => b == 0xFF || decide (0 ≤ addScale b val ∧ addScale b val ≤ 0xFE)) .scaleRange
    s.finishV [vs1] vd { a with scales := s.fitScales (a.scales.map fun b => BitVec.ofInt 8 (addScale b val)) } 0

/-- VTAG vd, vs1, fmt. -/
def execVtag (vd : VDst) (vs1 : VSrc) (fmt : BitVec 7) (s : State) : Outcome State Fault Refusal :=
  lane .v s do
    s.useV [vs1]
    chk (fmtOk fmt.toNat) .reservedFormat
    s.finishV [vs1] vd { s.valV vs1 with fmt := fmt.setWidth 8 } 0

/-- VSEED xs. -/
def execVseed (xs : CSrc) (s : State) : Outcome State Fault Refusal :=
  lane .v s do
    s.useX .v [xs]
    let x := s.valX .v xs
    pure (s.modV fun v => { v with gen := if x = 0 then 1 else x })

/-! ### VUNT5 (07 R258) -/

/-- The byte of TERN5 blocks that holds trit `i`. -/
def tritByte (i : Nat) : Nat := 64 * (i / 320) + i % 320 / 5

/-- VUNT5 vd, vs1, part and VUNT5.chk. -/
def execVunt5 (vd : VDst) (vs1 : VSrc) (ck : Bool) (part : BitVec 3) (s : State) : Outcome State Fault Refusal :=
  lane .v s do
    chk (decide (part.toNat < 5)) .immediateRange
    s.useV [vs1]
    let a := s.valV vs1
    accept [a.code] fun c => c == 9
    let n := s.lanes 1
    let act := (List.range n).filter (s.active 1)
    let at' (k : Nat) : Nat := part.toNat * n + k
    let byte (k : Nat) : Nat := (a.data.getD (tritByte (at' k)) 0).toNat
    chk (act.all fun k => a.scale (at' k / 320) != 255) .nanScale
    let bad := act.any fun k => decide (243 ≤ byte k)
    chk (!(ck && bad)) .ternaryCode
    let (ls, fl) := s.buildLanes vd 1 fun k => (wrapBits 8 (tritOf (byte k) (at' k % 320 % 5)), 0)
    let sc := (List.range 4).map fun j => BitVec.ofNat 8 (a.scale (at' (64 * j) / 320))
    let t := if bad then s.stick (some .v) stBADCODE else s
    t.finishV [vs1] vd (mkElem 0x01 (s.fitScales sc) 8 ls) fl

/-! ### VUN4O (07 R259) -/

/-- VUN4O.rm vd, vs1, T, part; the lane number of the generator is k (log 28). -/
def execVun4o (vd : VDst) (vs1 : VSrc) (part : BitVec 3) (t : BitVec 4) (rm : BitVec 3) (s : State) : Outcome State Fault Refusal :=
  lane .v s do
    chk (decide (t.toNat ≤ 3)) .reservedField
    let tgt := [0x10, 0x12, 0x13, 0x14].getD t.toNat 0x10
    let n := s.lanes tgt
    chk (decide (part.toNat < s.vlanes * 8 / n)) .immediateRange
    s.useV [vs1]
    let a := s.valV vs1
    chk (rm.toNat != 7) .roundingMode
    accept [a.code] fun c => c == 8
    let at' (k : Nat) : Nat := part.toNat * n + k
    let block (b : Nat) : Bytes := (a.data.drop (64 * b)).take 64
    let act := (List.range n).filter (s.active tgt)
    chk (act.all fun k => (int4Block (block (at' k / 128))).isSome) .outlierPosition
    let (g, w) := s.useGen rm.toNat true
    let (ls, fl) := s.buildLanes vd tgt fun k =>
      let v := ((int4Block (block (at' k / 128))).getD []).getD (at' k % 128) (.fin false 0 0)
      convert v (a.scale (at' k / 128)) tgt 127 rm.toNat (rndOf w k)
    g.finishV [vs1] vd (mkElem (BitVec.ofNat 8 tgt) unitScales (fmtWidth tgt) ls) fl

/-! ### VPK (07 R260) -/

/-- What VPK packs so far: slots or trits with their digits, and flags. -/
structure Packed where
  upd : List (Nat × Nat)
  fl : Nat
  deriving DecidableEq, Repr

/-- A value above 7 in magnitude after rounding to an integer. -/
def beyond7 (rm rnd : Nat) : Val → Bool
  | .nan _ => false
  | .inf _ => true
  | .fin sg m e => decide (7 < (roundInt rm rnd sg m e).1.natAbs)

/-- The loop of R260 from lane `k`: `y` gives a lane's scaled value, `rnd` its rounding value by slot. -/
def packFrom (tgt rm n base : Nat) (out : Bool) (act : Nat → Bool) (y : Nat → Val) (rnd : Nat → Nat) : Nat → Nat → Packed → Packed
  | 0, _, p => p
  | fuel + 1, k, p =>
    if n ≤ k then p
    else if !act k then packFrom tgt rm n base out act y rnd fuel (k + 1) p
    else
      let i := base + k
      if out && beyond7 rm (rnd i) (y k) && act (k + 1) && act (k + 2) && decide (i % 128 ≤ 125) then
        let (e, f) := encodeVal 0x10 rm (rnd i) (y k)
        packFrom tgt rm n base out act y rnd fuel (k + 3)
          ⟨p.upd ++ [(i, 8), (i + 1, e / 16), (i + 2, e % 16)], p.fl ||| f⟩
      else
        let (d, f) := convert (y k) 127 tgt 127 rm (rnd i)
        packFrom tgt rm n base out act y rnd fuel (k + 1) ⟨p.upd ++ [(i, d)], p.fl ||| f⟩

/-- VPK.rm vd, vs1, T, part and VPK.out.rm. -/
def execVpk (vd : VDst) (vs1 : VSrc) (part : BitVec 4) (t : BitVec 3) (rm : BitVec 3) (s : State) : Outcome State Fault Refusal :=
  lane .v s do
    chk (decide (t.toNat ≤ 2)) .reservedField
    s.useV [vs1]
    let a := s.valV vs1
    let c := a.code
    let tgt := if t.toNat = 2 then 9 else 8
    let per := if tgt = 9 then 320 else 128
    chk (rm.toNat != 7) .roundingMode
    accept [c] fun c => [1, 2, 0x10, 0x11, 3, 0x12, 0x13].contains c
    let n := s.lanes c
    let w := fmtWidth c
    chk (decide (part.toNat < s.payload / 64 * per / n)) .immediateRange
    let base := part.toNat * n
    let isReg := decide (vd.toNat < 64)
    let old := s.oldV vd
    let bytes : Bytes := if isReg then old.data.take s.payload
      else List.replicate s.payload (if tgt = 9 then 0x79 else 0x00)
    let act (k : Nat) : Bool := decide (k < n) && s.active c k
    let sc (k : Nat) : Nat := old.scale ((base + k) / per)
    chk ((List.range n).all fun k => !act k || (a.laneScale w k != 255 && sc k != 255)) .nanScale
    let (g, r) := s.useGen rm.toNat true
    let y (k : Nat) : Val := (valOf c (a.lane w k)).scale ((a.laneScale w k : Int) - sc k)
    let p := packFrom tgt rm.toNat n base (decide (t.toNat = 1)) act y (rndOf r) n 0 ⟨[], 0⟩
    let upd (i : Nat) : Option Nat := (p.upd.find? fun u => u.1 == i).map Prod.snd
    let blocks := (List.range (s.payload / 64)).flatMap fun b =>
      let blk := (bytes.drop (64 * b)).take 64
      let ws := elemBytes tgt blk fun i => upd (per * b + i)
      (List.range 64).map fun j => ((ws.find? fun x => x.1 == j).map Prod.snd).getD (blk.getD j 0)
    let bad := tgt == 9 && p.upd.any fun u => decide (243 ≤ (bytes.getD (tritByte u.1) 0).toNat)
    let g := if bad then g.stick (some .v) stBADCODE else g
    g.finishV [vs1] vd ⟨BitVec.ofNat 8 tgt, if isReg then old.scales else unitScales, padData blocks⟩ p.fl

/-! ### VTADD (07 R261) -/

/-- The destination formats of VTADD. -/
def vtaddDst (c : Nat) : Bool := [3, 4, 5].contains c || fmtF c

/-- One lane of VTADD: the destination's pattern, the source's, the sign. -/
def vtaddFn (rm c c1 rnd d a : Nat) (t : Int) : Nat × Nat :=
  if t = 0 then (d, 0)
  else if fmtI c then (wrapBits (fmtWidth c) (if 0 < t then intOf c d + intOf c1 a else intOf c d - intOf c1 a), 0)
  else
    let x := floatOf c1 a
    let (v, f) := Val.add rm (floatOf c d) (if 0 < t then x else x.neg)
    let (r, g) := encodeVal c rm rnd v
    (r, f ||| g)

/-- Lane `k` of the signs. A source wider than vd has fewer lanes; the spec gives no value for those it lacks, which are free
(log 29). -/
def State.signLane (s : State) (b : Elem) (k : Nat) : Int :=
  if k < s.lanes b.code then intOf b.code (b.lane (fmtWidth b.code) k) else (Config.signLane b.code b.data k).toInt

/-- VTADD.rm vd, vs1, vs2. -/
def execVtadd (vd : VDst) (vs1 vs2 : VSrc) (rm : BitVec 3) (s : State) : Outcome State Fault Refusal :=
  lane .v s do
    chk (decide (vd.toNat < 64)) .reservedDestination
    s.useV [vs1, vs2]
    let a := s.valV vs1
    let b := s.valV vs2
    let d := s.oldV vd
    let c := d.code
    chk (rm.toNat != 7) .roundingMode
    accept [a.code, b.code, c] fun _ => true
    chk (vtaddDst c && fmtI a.code == fmtI c && fmtF a.code == fmtF c && decide (fmtWidth a.code ≤ fmtWidth c) && fmtI b.code)
      .mixedFormat
    let (t, g) := s.useGen rm.toNat (fmtF c)
    let (ls, fl) := s.buildLanes vd c fun k =>
      vtaddFn rm.toNat c a.code (rndOf g k) (d.lane (fmtWidth c) k) (a.lane (fmtWidth a.code) k)
        (s.signLane b k)
    t.finishV [vs1, vs2] vd (mkElem d.fmt d.scales (fmtWidth c) ls) fl

end Sys2Proof.Machine
end

