-- ==== Sys2Proof/Machine/Box.lean ====
section
/-! DEFINITION. Boxes and tiles of a tensor in device memory (02 R51; 08 R298; 09 R336-R338): the checks of a handle, block
addresses, and the elements of a tile that a handle names. -/

namespace Sys2Proof.Machine

open Sys2Proof Host

/-! ### Handles (09 R336, R337) -/

/-- The key that a handle's KEY names for a world: one installed for it, or the null key 0xFFF, which needs no installation
and which a protected world may not name (09 R337, R345; log 87). -/
def State.copyKey (s : State) (w handle : Nat) : Option KeyId :=
  if handle = 0xFFF then (if s.protWorld w then none else some .null) else s.keyFor w handle

/-- The key under which a handle's blocks are read and written. -/
def State.handleKey (s : State) (h : BitVec 256) : M KeyId :=
  match s.copyKey s.u.world (thKey h) with
  | some k => .ok k
  | none => trap .keyHandle

/-- The checks of a handle that a command uses: valid, of the kind it needs, its key installed. -/
def State.useHandle (s : State) (h : BitVec 256) (ok : Bool) : M KeyId := do
  chk (thValid h) .invalidHandle
  chk ok .handleFormat
  s.handleKey h

/-- The address of the block at dimension-0 block `b` of row `i1` (02 R51). -/
def thBlock (h : BitVec 256) (b i1 i2 i3 : Nat) : Nat :=
  thBase h + 64 * (b + i1 * thStride h 1 + i2 * thStride h 2 + i3 * thStride h 3)

/-! ### Boxes (09 R338) -/

/-- A box: block capacity, rows, columns, starts. -/
structure Box where
  c : Nat
  nr : Nat
  nc : Nat
  i0 : Nat
  i1 : Nat
  i2 : Nat
  i3 : Nat
  deriving DecidableEq, Repr

/-- The box that four control values name, for blocks of `c` elements. -/
def boxOf (c : Nat) (e1 e2 e3 e4 : Word) : Box :=
  ⟨c, e3.toNat % 2 ^ 16, e3.toNat / 2 ^ 16 % 2 ^ 16, e1.toNat % 2 ^ 32, e2.toNat % 2 ^ 32, e4.toNat % 2 ^ 32, e4.toNat / 2 ^ 32⟩

/-- The format code of E3 (XCB and XPF). -/
def boxFc (e3 : Word) : Nat := e3.toNat / 2 ^ 32 % 128

/-- nb, the blocks of a row. -/
def Box.nb (b : Box) : Nat := (b.nc + b.c - 1) / b.c

/-- A box of zero extent. -/
def Box.empty (b : Box) : Bool := b.nr == 0 || b.nc == 0

/-- The alignment rule. -/
def Box.aligned (b : Box) (h : BitVec 256) : Bool :=
  decide (b.i0 % b.c = 0 ∧ (b.nc % b.c = 0 ∨ b.i0 + b.nc = thExt h 0))

/-- The address of block `m` of row `r`. -/
def Box.addr (b : Box) (h : BitVec 256) (r m : Nat) : Nat := thBlock h (b.i0 / b.c + m) (b.i1 + r) b.i2 b.i3

/-- Whether that block is inside the tensor. -/
def Box.inside (b : Box) (h : BitVec 256) (r m : Nat) : Bool :=
  decide (b.i0 + m * b.c < thExt h 0 ∧ b.i1 + r < thExt h 1 ∧ b.i2 < thExt h 2 ∧ b.i3 < thExt h 3)

/-- The places of a box's blocks, row by row. -/
def Box.places (b : Box) : List (Nat × Nat) :=
  if b.empty then [] else (List.range b.nr).flatMap fun r => (List.range b.nb).map fun m => (r, m)

/-- What a read of a block gives: its payload and descriptor, none outside the tensor. -/
abbrev BoxRead := (Nat × Nat) × Option (Bytes × Desc)

/-- Read the blocks of a box: place with contents. -/
def State.readBox (s : State) (k : KeyId) (h : BitVec 256) (b : Box) : M (State × List BoxRead) :=
  b.places.foldlM (fun p x =>
    if b.inside h x.1 x.2 then do
      let (t, bs, d) ← p.1.readBlock k (b.addr h x.1 x.2)
      pure (t, p.2 ++ [(x, some (bs, d))])
    else pure (p.1, p.2 ++ [(x, none)])) (s, [])

/-- A block of zeros with a format's descriptor (09 R339). -/
def zeroBlock (fmt : Nat) : Bytes × Desc := (List.replicate 64 0, ⟨BitVec.ofNat 8 fmt, 0x7F⟩)

/-! ### Element patterns -/

/-- The pattern of element `k` of a block, as `elemBytes` writes it: a nibble for INT4O, a digit for TERN5, a bit for BIN1. -/
def elemPat (fmt : Nat) (d : Bytes) (k : Nat) : Nat :=
  if fmt = 8 then nibble d k
  else if fmt = 9 then (tritOf (d.getD (k / 5) 0).toNat (k % 5) + 1).toNat
  else if fmt = 10 then (d.getD (k / 8) 0).toNat / 2 ^ (k % 8) % 2
  else laneOf d (fmtWidth fmt) k

/-- The pattern of zero. -/
def zeroPat (fmt : Nat) : Nat := if fmt = 9 then 1 else 0

/-! ### The tile of a handle (08 R298) -/

/-- TM and TN of a handle. -/
def thTile (h : BitVec 256) : Nat × Nat := (8 * 2 ^ thField h 12, 8 * 2 ^ thField h 13)

/-- The element (r, j) of tile (ti, tj): its block of dimension 0, its row, its place in the block; none beyond the extents. -/
def tilePlace (h : BitVec 256) (c ti tj r j : Nat) : Option (Nat × Nat × Nat) :=
  let i0 := tj * (thTile h).2 + j
  let i1 := ti * (thTile h).1 + r
  if i0 < thExt h 0 ∧ i1 < thExt h 1 then some (i0 / c, i1, i0 % c) else none

/-- The blocks that a tile's elements lie in. -/
def tileBlocks (h : BitVec 256) (c ti tj : Nat) : List (Nat × Nat) :=
  let lo := tj * (thTile h).2
  let hi := min (lo + (thTile h).2) (thExt h 0)
  if hi ≤ lo then []
  else (List.range (thTile h).1).flatMap fun r =>
    let i1 := ti * (thTile h).1 + r
    if i1 < thExt h 1 then (List.range ((hi - 1) / c - lo / c + 1)).map fun b => (lo / c + b, i1) else []

/-- Read a tile's blocks: (block, row) with contents. -/
def State.readTile (s : State) (k : KeyId) (h : BitVec 256) (c ti tj : Nat) : M (State × List ((Nat × Nat) × Bytes × Desc)) :=
  (tileBlocks h c ti tj).foldlM (fun p x => do
    let (t, bs, d) ← p.1.readBlock k (thBlock h x.1 x.2 0 0)
    pure (t, p.2 ++ [(x, bs, d)])) (s, [])

/-- The source of element (r, j) of a tile read before: payload, descriptor, place. -/
def tileSrc (bs : List ((Nat × Nat) × Bytes × Desc)) (h : BitVec 256) (c ti tj r j : Nat) : Option (Bytes × Desc × Nat) :=
  match tilePlace h c ti tj r j with
  | none => none
  | some (b, i1, k) => (bs.find? fun x => x.1 == (b, i1)).map fun x => (x.2.1, x.2.2, k)

/-- The scale byte of a staging block from those of its sources: 0x7F for none, none when they differ (08 R298). -/
def stagingScale (ds : List Desc) : Option Byte :=
  match ds with
  | [] => some 0x7F
  | d :: rest => if rest.all fun e => e.scale == d.scale then some d.scale else none

/-- Copy a tile into an element-major staging slot (log 132). -/
def State.stageElems (s : State) (t : Tile) (h : BitVec 256) (ti tj : Nat) (bs : List ((Nat × Nat) × Bytes × Desc)) : M State :=
  let fmt := t.fmt.toNat
  let c := fmtCap fmt
  let (tm, tn) := thTile h
  let src (r j : Nat) := tileSrc bs h c ti tj r j
  let blks := (List.range tm).flatMap fun r => (List.range ((tn + c - 1) / c)).map fun m => (r, m)
  blks.foldlM (fun s x =>
    let js := (List.range (min c (tn - x.2 * c))).map fun i => x.2 * c + i
    match stagingScale (js.filterMap fun j => (src x.1 j).map fun y => y.2.1) with
    | none => trap .mixedFormat
    | some sc =>
      let blk := t.base + x.1 * t.rowBytes + 64 * x.2
      let pat (i : Nat) : Option Nat :=
        if x.2 * c + i < tn then
          some (match src x.1 (x.2 * c + i) with | some y => elemPat fmt y.1 y.2.2 | none => zeroPat fmt)
        else none
      .ok (s.putIn false blk (elemBytes fmt (s.spad blk 64) pat) ⟨t.fmt, sc⟩)) s

/-- The magnitude and side entry of an element read from a block, the zero element outside (09 R327, R339). -/
def sideFrom (fmt : Nat) (x : Option (Bytes × Desc × Nat)) : Nat × Nat :=
  match x with
  | some (bs, d, k) => sideOf fmt d.scale.toNat ((blockElem fmt bs k).getD (.fin false 0 0, false))
  | none => sideOf fmt 0x7F (.fin false 0 0, false)

/-- Copy a tile into a staging slot in planes. -/
def State.stagePlanes (s : State) (t : Tile) (h : BitVec 256) (ti tj : Nat) (bs : List ((Nat × Nat) × Bytes × Desc)) : State :=
  let fmt := t.fmt.toNat
  let c := fmtCap fmt
  let (tm, tn) := thTile h
  (List.range tm).foldl (fun s r => s.putPlanes false t r tn fun j => sideFrom fmt (tileSrc bs h c ti tj r j)) s

/-- The checks of blocks that enter planes (09 R327): formats, INT4O outliers. -/
def planeChecks (fmt : Nat) (bs : List (Bytes × Desc)) : M PUnit := do
  decodeChecks (bs.map fun b => b.2.fmt)
  chk (bs.all fun b => b.2.fmt.toNat == fmt) .mixedFormat
  chk (fmt != 8 || bs.all fun b => (int4Block b.1).isSome) .outlierPosition

end Sys2Proof.Machine
end

