-- ==== Sys2Proof/Machine/Product.lean ====
section
/-! DEFINITION. Array products (08 R278-R285, R297-R300; 12 R376, R377): operands, the beat at which a cell adds each product,
accumulation, and a run over any span of beats. -/

namespace Sys2Proof.Machine

open Sys2Proof Host

/-- The kinds of product command: multiply, checked multiply, binary XOR, binary AND. -/
inductive ProdKind where
  | mma | ck | bx | ba
  deriving DecidableEq, Repr

/-- The integer operand formats of 08 R281. -/
def prodIntA (c : Nat) : Bool := [1, 2, 3, 4, 5, 9].contains c

/-- The kind of a command that is a product. -/
def prodKind : Instr → Option ProdKind
  | .mma .. => some .mma
  | .mmah .. => some .mma
  | .mmack .. => some .ck
  | .mmabx .. => some .bx
  | .mmaba .. => some .ba
  | _ => none

/-- The rounding mode of a command that has one. -/
def cmdRm : Instr → Nat
  | .mma _ _ _ rm _ => rm.toNat
  | .mmah _ _ _ rm _ _ _ _ _ => rm.toNat
  | .mmack _ _ _ rm _ => rm.toNat
  | .mstacc _ _ rm _ => rm.toNat
  | .mchk _ _ rm _ => rm.toNat
  | _ => 0

/-- The token of a matrix command. -/
def cmdTok : Instr → Tok
  | .mma _ _ _ _ k => k
  | .mmah _ _ _ _ k _ _ _ _ => k
  | .mmack _ _ _ _ k => k
  | .mmabx _ _ _ k => k
  | .mmaba _ _ _ k => k
  | .mclr _ k => k
  | .mclrAll _ k => k
  | .mldacc _ _ k => k
  | .mstacc _ _ _ k => k
  | .mchk _ _ _ k => k
  | .mseed _ _ k => k
  | .mfree _ k => k
  | _ => none

/-- A product: what its record and its lane word give (17 R468). `m` and `n` are the request, `gm`, `gn` and `gk` the grant,
`g` the beats of an element, or 1 to a group of four k for the binary kinds. -/
structure Prod where
  kind : ProdKind
  rm : Nat
  a : Tile
  b : Tile
  afmt : Nat
  m : Nat
  n : Nat
  gm : Nat
  gn : Nat
  gk : Nat
  g : Nat
  deriving DecidableEq, Repr

/-- The product that a record describes. -/
def Rcd.prod? (r : Rcd) : Option Prod :=
  match decodeInstr .m [] r.word, r.a, r.b with
  | .ok (i, _), some a, some b =>
    (prodKind i).map fun k => ⟨k, cmdRm i, a, b, r.afmt.toNat, r.rm, r.rn, r.gm, r.gn, r.gk, r.g⟩
  | _, _, _ => none

/-- The binary kinds. -/
def Prod.binary (p : Prod) : Bool := p.kind == .bx || p.kind == .ba
/-- The steps of a cell: elements, or groups of four k. -/
def Prod.steps (p : Prod) : Nat := if p.binary then (p.gk + 3) / 4 else p.gk
/-- Rows that take part and are no tails: the checked kinds add the row of checksums. -/
def Prod.rows (p : Prod) : Nat := min p.gm (if p.kind = .ck then p.m + 1 else p.m)
/-- Columns. -/
def Prod.cols (p : Prod) : Nat := min p.gn (if p.kind = .ck then p.n + 1 else p.n)
/-- The beats of the command (08 R282). -/
def Prod.span (p : Prod) : Nat :=
  if p.gm = 0 ∨ p.gn = 0 ∨ p.gk = 0 then 0 else p.steps * p.g + (p.gm - 1) + (p.gn - 1)
/-- Products that cell (i, j) has added after `b` beats. -/
def Prod.added (p : Prod) (i j b : Nat) : Nat := min p.steps ((b - (i + j)) / p.g)

/-! ### Operands (08 R278-R280, R102) -/

/-- Tile `t` displaced by `n` sub-tiles. -/
def Tile.sub (t : Tile) (n : Nat) : Tile := { t with base := t.base + n * t.bytes }

/-- A value under its block's scale, for operands of 8 bits or narrower (03 R102). -/
def scaled (fmt scale : Nat) (v : Val) : Val :=
  if fmtWidth fmt ≤ 8 ∧ fmt ≠ 10 then (if scale = 255 then .nan false else v.scale ((scale : Int) - 127)) else v

/-- A[i][k]. -/
def State.opA (s : State) (t : Tile) (i k : Nat) : Val :=
  let u := t.sub (k / t.cols)
  let c := k % t.cols
  let blk := u.blockAt i c
  scaled t.fmt.toNat (s.desc (blk / 64)).scale.toNat ((s.tileElem u i c).getD (.fin false 0 0, false)).1

/-- B[k][j]. -/
def State.opB (s : State) (t : Tile) (k j : Nat) : Val := sideVal (s.getPlanes (t.sub (k / t.rows)) (k % t.rows) j)

/-- A sum of values formed exactly and rounded once to FP32 with .rne (08 R299): the value and the flags. -/
def sum32 (vs : List Val) : Val × Nat :=
  let (v, f) := vs.foldl (fun n v => let (x, g) := Val.add 0 n.1 v; (x, n.2 ||| g)) (.fin false 0 0, 0)
  let (r, h) := encodeVal 0x14 0 0 v
  (floatOf 0x14 r, f ||| h)

/-- aS[k]. -/
def State.sumA (s : State) (p : Prod) (k : Nat) : Val × Nat := sum32 ((List.range p.m).map fun i => s.opA p.a i k)
/-- bS[k]. -/
def State.sumB (s : State) (p : Prod) (k : Nat) : Val × Nat := sum32 ((List.range p.n).map fun j => s.opB p.b k j)

/-- The left factor of row `i`: a checksum in row RM of a checked product. -/
def State.leftOf (s : State) (p : Prod) (i k : Nat) : Val :=
  if p.kind = .ck ∧ i = p.m then (s.sumA p k).1 else s.opA p.a i k
/-- The right factor of column `j`. -/
def State.rightOf (s : State) (p : Prod) (k j : Nat) : Val :=
  if p.kind = .ck ∧ j = p.n then (s.sumB p k).1 else s.opB p.b k j

/-- A bit of a BIN1 operand. -/
def Val.bit : Val → Nat
  | .fin _ m _ => m % 2
  | _ => 0

/-- What a binary cell adds for group `u`: a popcount over the valid k (08 R284, R300). -/
def State.binAdd (s : State) (p : Prod) (i j u : Nat) : Nat :=
  ((List.range 4).filter fun x =>
    let k := 4 * u + x
    let a := (s.opA p.a i k).bit
    let b := (s.opB p.b k j).bit
    decide (k < p.gk) && (if p.kind = .bx then a != b else a == 1 && b == 1)).length

/-! ### Accumulation (08 R284, 03 R92, R116) -/

/-- An integer accumulator with a product added, which stands in preg modulo 2^64: the pattern, sign-extended to 64 bits, and whether
it wrapped. -/
def accInt (w : Nat) (acc : Word) (p : Int) : Word × Bool :=
  let x := signed w acc.toNat + signed 64 (wrapBits 64 p)
  let y := signed w (wrapBits w x)
  (BitVec.ofInt 64 y, decide (y ≠ x))

/-- A floating accumulator with an exact product added and one rounding. -/
def accFloat (c rm : Nat) (acc : Word) (p : Val × Nat) : Word × Nat :=
  let (v, f) := Val.add rm (floatOf c (acc.toNat % 2 ^ fmtWidth c)) p.1
  let (r, g) := encodeVal c rm 0 v
  (BitVec.ofNat 64 r, p.2 ||| f ||| g)

/-- The integer that an exact product of integers is. -/
def Val.toInt : Val → Int
  | .fin s m e => alignTo s m e 0
  | _ => 0

/-! ### Product flips (12 R376, R377) -/

/-- A product with one bit of its FP64-shaped view inverted; the exact bits below the view stay. A product of 2^1024 or more has no
exponent field in the rule: the field is free. -/
def flipView (v : Val) (bit : Nat) : Val :=
  match v with
  | .inf s => floatOf 0x15 (infBits 0x15 s ^^^ 2 ^ bit)
  | .nan _ => floatOf 0x15 (nanBits 0x15 ^^^ 2 ^ bit)
  | .fin s m e =>
    let top := e + (bitLen m : Int) - 1
    let q := max (top - 52) (-1074)
    let k := (q - e).toNat
    let t := if q ≤ e then m * 2 ^ (e - q).toNat else m / 2 ^ k
    let low := if q ≤ e then 0 else m % 2 ^ k
    let field := if t < 2 ^ 52 then 0 else if 1023 < top then Config.wideExp top % 2 ^ 11 else (q + 1075).toNat
    let pat := (if s then 2 ^ 63 else 0) + field * 2 ^ 52 + t % 2 ^ 52
    match floatOf 0x15 (pat ^^^ 2 ^ bit) with
    | .fin s' m' e' => .fin s' (m' * 2 ^ k + low) (e' - k)
    | x => x

/-- An integer product with a bit of its 64-bit value inverted. -/
def flipInt (p : Int) (bit : Nat) : Int := signed 64 (wrapBits 64 p ^^^ 2 ^ bit)

/-- The first step that a cell adds at or after beat `b`. -/
def Prod.stepFrom (p : Prod) (i j b : Nat) : Nat := (b - (i + j + p.g - 1) + p.g - 1) / p.g

/-- The bit that an armed flip inverts in step `k` of the cell at row `r`, column `c` of quadrant `q`. -/
def State.flipAt (s : State) (p : Prod) (q r c i j k : Nat) : Option Nat :=
  match Sparse.get none s.core.c.mat.flip q with
  | some f => if f.left = 0 ∧ f.row = r ∧ f.col = c ∧ k = p.stepFrom i j f.beat then some f.bit else none
  | none => none

/-! ### What cells hold between beats (08 R283-R285) -/

/-- The A element in cell (i, j) at step `k` (08 R283), zero in a tail row (02 R54): an integer's value, four bits of BIN1 with their
validity; the layout of other elements is not in the spec. -/
def State.cellA (s : State) (p : Prod) (i k : Nat) : Word :=
  if p.binary then
    BitVec.ofNat 64 ((List.range 4).foldl (fun n x =>
      n + (if 4 * k + x < p.gk then (if p.rows ≤ i then 0 else (s.opA p.a i (4 * k + x)).bit) * 2 ^ x + 2 ^ (x + 4) else 0)) 0)
  else if p.rows ≤ i then 0
  else if prodIntA p.a.fmt.toNat then BitVec.ofInt 64 (s.leftOf p i k).toInt
  else if p.kind = .ck ∧ i = p.m then Config.cellA 0x14 0x7F (encodeVal 0x14 0 0 (s.sumA p k).1).1
  else
    let u := p.a.sub (k / p.a.cols)
    let c := k % p.a.cols
    let blk := u.blockAt i c
    Config.cellA p.a.fmt.toNat (s.desc (blk / 64)).scale.toNat (elemPat p.a.fmt.toNat (s.spad blk 64) (u.slotAt c))

/-- The magnitude of B element (k, j), or of the checksum in its place; zero in a tail column (02 R54). -/
def State.magB (s : State) (p : Prod) (k j : Nat) : Nat :=
  if p.cols ≤ j then 0
  else match s.rightOf p k j with
    | .fin _ m _ => m
    | .inf _ => 0
    | .nan _ => 1

/-- The planes of group `g` of step `k` in column `j`: four bits of BIN1, which a magnitude holds one of. -/
def State.groupB (s : State) (p : Prod) (k j g : Nat) : Nat :=
  if p.binary && decide (j < p.cols) then
    (List.range 4).foldl (fun n x => n + (if 4 * k + x < p.gk then (s.opB p.b (4 * k + x) j).bit * 2 ^ x else 0)) 0
  else s.magB p k j / 16 ^ g % 16

/-- The partial product of cell (i, j) after groups 0 to `g` of step `k`; none in a tail. -/
def State.partOf (s : State) (p : Prod) (i j k g : Nat) : Word :=
  if p.rows ≤ i ∨ p.cols ≤ j then 0
  else
    let m := s.magB p k j % 16 ^ (g + 1)
    if fmtI p.afmt then
      BitVec.ofInt 64 ((if (match s.rightOf p k j with | .fin sg _ _ => sg | _ => false) then -1 else 1) * (s.leftOf p i k).toInt * m)
    else Config.pregHigh ((match s.leftOf p i k with | .fin _ n _ => n | _ => 0) * m)

/-- What cell (i, j) holds beside its accumulator at the end of beat `t` (08 R285; log 109). -/
def State.cellBits (s : State) (p : Prod) (i j t : Nat) : CellBits :=
  if t < i + j ∨ p.steps * p.g ≤ t - (i + j) then CellBits.zero
  else
    let u := t - (i + j)
    let k := u / p.g
    let g := u % p.g
    let last := g + 1 == p.g
    ⟨if last then 0 else s.partOf p i j k g, s.cellA p i k, s.groupB p k j g, g, true, true, last⟩

/-- The cells of the lease as they stand at the end of beat `t` of the product in progress; parked rows take no part (07 R273). -/
def State.latchCells (s : State) (p : Prod) (mask t : Nat) : State :=
  s.setLantern ((leaseQuads mask).foldl (fun l q =>
    l.setQuad q { l.quad q with cells := (List.range 16384).filterMap fun n =>
      let i := rowBase mask q + n / 128
      let j := colBase mask q + n % 128
      let b := if i < p.gm ∧ j < p.gn ∧ (s.lantern.quad q).rowParked (n / 128) = false then s.cellBits p i j t else CellBits.zero
      if b = CellBits.zero then none else some (n, b) }) s.lantern)

/-- The cells of the lease between products (08 R284). -/
def State.idleCells (s : State) (mask : Nat) : State :=
  s.setLantern ((leaseQuads mask).foldl (fun l q => l.setQuad q { l.quad q with cells := [] }) s.lantern)

/-- The integer product of step `k` of column `j` in a cell that stopped inside it: what preg holds, and the groups that are left. -/
def State.resumed (s : State) (p : Prod) (k j : Nat) (x : CellBits) : Int :=
  match s.rightOf p k j with
  | .fin sg m _ => x.preg.toInt + (if sg then -1 else 1) * x.a.toInt * (m / 16 ^ (x.gidx + 1) * 16 ^ (x.gidx + 1))
  | _ => x.preg.toInt

/-! ### A run (08 R282, R285) -/

/-- What a cell has come to: accumulator, flags, whether it wrapped. -/
structure CellAcc where
  acc : Word
  fl : Nat
  ovf : Bool
  deriving DecidableEq, Repr

/-- One step of a cell, `mid` being what it held when it stopped inside an integer product. -/
def State.cellStep (s : State) (p : Prod) (i j k : Nat) (flip : Option Nat) (mid : Option CellBits) (x : CellAcc) : CellAcc :=
  if fmtI p.afmt then
    let e : Int := if p.binary then (s.binAdd p i j k : Nat) else match mid with
      | some c => s.resumed p k j c
      | none => (Val.mul (s.leftOf p i k) (s.rightOf p k j)).1.toInt
    let (a, o) := accInt (fmtWidth p.afmt) x.acc (match flip with | some b => flipInt e b | none => e)
    ⟨a, x.fl, x.ovf || o⟩
  else
    let e := Val.mul (s.leftOf p i k) (s.rightOf p k j)
    let (a, f) := accFloat p.afmt p.rm x.acc (match flip with | some b => (flipView e.1 b, e.2) | none => e)
    ⟨a, x.fl ||| f, x.ovf⟩

/-- Cell (i, j) from `lo` beats done to `hi`; one whose row has been parked since keeps what it holds (07 R273). -/
def State.runCell (s : State) (p : Prod) (mask i j lo hi : Nat) : State :=
  let (q, r, c) := geoCell mask i j
  let d := s.lantern.quad q
  let k0 := p.added i j lo
  let ks := (List.range (p.added i j hi - k0)).map fun n => k0 + n
  if ks.isEmpty || d.rowParked r then s
  else
    let b := Sparse.get CellBits.zero d.cells (128 * r + c)
    let mid (k : Nat) : Option CellBits := if k = k0 && b.va && b.vb && !b.last then some b else none
    let x := ks.foldl (fun x k => s.cellStep p i j k (s.flipAt p q r c i j k) (mid k) x) ⟨Sparse.get 0 d.acc (128 * r + c), 0, false⟩
    let t := s.setLantern (s.lantern.setQuad q (d.setAcc r c x.acc))
    let t := if x.ovf then t.stick none stIOVF else t
    t.raiseFm x.fl

/-- Every cell that is no tail, from `lo` beats done to `hi`; the sums of a checked product are formed before beat 0 (log 135). -/
def State.runProd (s : State) (p : Prod) (mask lo hi : Nat) : State :=
  let sums := if p.kind = .ck ∧ lo = 0 ∧ p.span ≠ 0 then
      (List.range p.gk).foldl (fun n k => n ||| (s.sumA p k).2 ||| (s.sumB p k).2) 0
    else 0
  (List.range p.rows).foldl (fun t i => (List.range p.cols).foldl (fun t j => t.runCell p mask i j lo hi) t) (s.raiseFm sums)

end Sys2Proof.Machine
end

