-- ==== Sys2Proof/Machine/Matrix.lean ====
section
/-! DEFINITION. Matrix commands (08 R286-R305): issue, the checks of a command, products over beats, the accumulator commands
and MSEED. -/

namespace Sys2Proof.Machine

open Sys2Proof Host

/-! ### Issue (08 R286, R287) -/

/-- A trap of the core in focus waits or is being handled: no command begins, and those that have begun run to completion (17
R456). -/
def State.trapOpen (s : State) : Bool := s.core.c.pend.isSome || s.handling

/-- A begun command of the core in focus has trapped while a handler runs: it is discarded unreported, unless it stands earlier in the
text than the reported lane and has trapped in the same cycle; the report then names it (17 R459). -/
def State.reReport (s : State) (p : Option Report) : State :=
  match p with
  | none => s
  | some r =>
    if r.cyc = s.core.sys.raised.1 ∧ r.lane.place < s.core.sys.raised.2 then
      s.modSys fun y => { y with tr := y.tr.report r.engine r.cause r.addr 0 r.lane, raised := (r.cyc, r.lane.place) }
    else s

/-- Act for the unit of the core in focus while its handler may run (17 R456, R459). -/
def State.asUnit (s : State) (f : State → M State) : M State :=
  match s.core.sys.saved with
  | none => f s
  | some u => do
    let fw := s.u
    let t ← f ((s.modSys fun y => { y with saved := none }).setU u)
    if t.core.c.busy then
      let p := t.core.c.pend
      pure ((((t.modSys fun y => { y with saved := some t.u }).setU fw).modC fun c => { c with pend := none }).reReport p)
    else pure t

/-- Stop the quadrants of the lease that are armed for a beat below `b` (06 R234, 18 R479). -/
def State.stopArmed (s : State) (b : Nat) : State :=
  s.setLantern ((leaseQuads s.core.c.mat.lease).foldl (fun (l : Lantern) q =>
    let d := l.quad q
    match d.armed with
    | some n => if n < b then l.setQuad q { d with stopped := true, armed := none } else l
    | none => l) s.lantern)

/-- The queued commands are discarded without effect, and a trap is on record; no token changes (08 R287, 17 R456). A quadrant that is
armed for one of them stops (06 R234). -/
def State.trapM (s : State) (c : Cause) (addr : Word) (at' : LaneAt) : State :=
  ((s.stopArmed (2 ^ 64)).modMat fun m => { m with mq := [], owed := 0 }).pendTrap .m c addr at'

/-- A command's check fails: it has no effect. -/
def State.failM (s : State) (st : Stop) (at' : LaneAt) : M State :=
  match st with
  | .trap c a _ => .ok (s.trapM c a at')
  | .trapped t c a => .ok (t.trapM c a at')
  | .gone t => .ok t
  | .stall => .ok s
  | .fault f => .error (.fault f)

/-! ### Checks (08 R295) -/

/-- The most GM a lease grants now (08 R295). -/
def State.capM (s : State) : Nat := s.lantern.capM s.core.c.mat.lease

/-- Rounding mode, lease, poisoned rows, grant, in this order (DEDUCED, log 144). -/
def State.cmdChecks (s : State) (rm : Nat) (sr : Bool) (h : Shape) : M PUnit := do
  chk (rm != 7 && (sr || rm != 6)) .roundingMode
  chk (s.core.c.mat.lease != 0) .noLease
  s.badRows
  chk (decide (h.gm.toNat ≤ s.capM ∧ h.gn.toNat ≤ capN s.core.c.mat.lease)) .staleGrant

/-- A slot of the right form. -/
def slotOf (t : Option Tile) (plane : Bool) : M Tile :=
  match t with
  | none => trap .unboundSlot
  | some x => if x.plane = plane then .ok x else trap .tileForm

/-- The checked geometry of MMACK (08 R299). -/
def ckGeo (n : Nat) : Nat := up8 (n + 1)

/-- The checked-grant test. -/
def State.ckChecks (s : State) (h : Shape) : M PUnit :=
  chk (decide (ckGeo h.rm.toNat ≤ s.capM ∧ ckGeo h.rn.toNat ≤ capN s.core.c.mat.lease)) .checkedGrant

/-- The floating operand formats. -/
def prodFloat (c : Nat) : Bool := [0x10, 0x11, 0x12, 0x13, 0x14, 0x15, 8].contains c

/-- The combinations of 08 R281. -/
def prodFormats (k : ProdKind) (a b acc : Nat) : Bool :=
  match k with
  | .mma => (prodIntA a && prodIntA b && (acc == 4 || acc == 5)) || (prodFloat a && prodFloat b && (acc == 0x14 || acc == 0x15))
  | .ck => prodFloat a && a != 0x15 && prodFloat b && b != 0x15 && acc == 0x14
  | _ => a == 10 && b == 10 && acc == 4

/-- A grant is zero in some dimension: a matrix command leaves every accumulator unchanged (02 R53; log 134). -/
def Shape.noGrant (h : Shape) : Bool := h.gm == 0 || h.gn == 0 || h.gk == 0

/-- The product's geometry from its shape and slots: a checked product has its own, but for a zero grant (02 R53, log 55). -/
def prodOf (k : ProdKind) (rm : Nat) (h : Shape) (a b : Tile) : Prod :=
  let ck := k == .ck
  let geo := ck && !h.noGrant
  let g := fmtBeats b.fmt.toNat
  ⟨k, rm, a, b, h.afmt.toNat, h.rm.toNat, h.rn.toNat, if geo then ckGeo h.rm.toNat else h.gm.toNat,
   if geo then ckGeo h.rn.toNat else h.gn.toNat, h.gk.toNat, if k = .bx ∨ k = .ba then 1 else if ck then max g 6 else g⟩

/-- Rows of A that a product reads, its own elements only. -/
def Prod.rowsA (p : Prod) : Nat := min p.m p.gm
/-- Columns of B. -/
def Prod.colsB (p : Prod) : Nat := min p.n p.gn

/-- The blocks of A that a product reads (08 R280). -/
def Prod.blocksA (p : Prod) : List Nat :=
  let cap := fmtCap p.a.fmt.toNat
  if p.gk = 0 then [] else
  (List.range p.rowsA).flatMap fun i => (List.range ((p.gk - 1) / p.a.cols + 1)).flatMap fun n =>
    let cols := min p.a.cols (p.gk - n * p.a.cols)
    (List.range ((cols + cap - 1) / cap)).map fun m => (p.a.sub n).base + i * p.a.rowBytes + 64 * m

/-- The byte ranges of B that a product reads: planes and side entries of row `k`. -/
def Prod.rangesB (p : Prod) : List (Nat × Nat) :=
  if p.colsB = 0 then [] else
  (List.range p.gk).flatMap fun k =>
    let t := p.b.sub (k / p.b.rows)
    [(t.planeAt (k % p.b.rows) 0 0, 32 * p.b.planes), (t.sideAt (k % p.b.rows) 0, 2 * p.colsB)]

/-- The side entries of B that a product reads. -/
def State.sidesB (s : State) (p : Prod) : List Nat :=
  (List.range p.gk).flatMap fun k => (List.range p.colsB).map fun j =>
    (s.getPlanes (p.b.sub (k / p.b.rows)) (k % p.b.rows) j).2

/-- The largest scratchpad address of operands. -/
def operandTop : Nat := 0x1F0000

/-- The checks on data: A's descriptors, INT4O outliers, B's side entries (08 R287, R297; 03 R87, R93, R96, R103). -/
def State.dataChecks (s : State) (p : Prod) : M PUnit := do
  let ds := p.blocksA.map fun b => s.desc (b / 64)
  let fa := p.a.fmt.toNat
  let unit := fmtI p.afmt || 8 < fmtWidth fa || p.binary
  decodeChecks (ds.map Desc.fmt)
  chk (ds.all fun d => d.fmt == p.a.fmt) .mixedFormat
  chk (!unit || ds.all fun d => d.scale == 0x7F) .arrayScale
  chk ((s.sidesB p).all fun x => !isMarker x && (!fmtI p.afmt || p.binary || x % 2 ^ 14 == 8192)) .arrayScale
  chk (fa != 8 || p.blocksA.all fun b => (int4Block (s.spad b 64)).isSome) .outlierPosition

/-- The checks of a product on its operands, from the tile shapes on (08 R280, R281, R297, R299; 14 R418), in the order of log 144: an
operand bound RAW is a raw operand before it is an unsupported format. -/
def State.prodChecks (s : State) (p : Prod) (ovr : Bool) : M PUnit := do
  chk (decide (p.rowsA ≤ p.a.rows ∧ p.colsB ≤ p.b.cols)) .tileShape
  chk (p.a.fmt != 0 && p.b.fmt != 0) .rawOperand
  chk (prodFormats p.kind p.a.fmt.toNat p.b.fmt.toNat p.afmt) .unsupportedFormat
  chk (p.blocksA.all (fun b => decide (b + 64 ≤ operandTop)) && p.rangesB.all fun r => decide (r.1 + r.2 ≤ operandTop)) .tileRange
  p.blocksA.forM fun b => s.coverRead ovr b 64
  p.rangesB.forM fun r => s.coverRead ovr r.1 r.2
  s.dataChecks p

/-- An illegal TERN5 byte among the elements of A (03 R95). -/
def State.badA (s : State) (p : Prod) : Bool :=
  p.a.fmt == 9 && (List.range p.rowsA).any fun i => (List.range p.gk).any fun k =>
    let u := p.a.sub (k / p.a.cols)
    badTern 9 (s.spad (u.blockAt i (k % p.a.cols)) 64) (u.slotAt (k % p.a.cols))

/-! ### Products (08 R282, R286, R297-R300; 17 R468) -/

/-- The staging copy of MMAH: the tile of the handle in the staging slot, which takes the operand's place (08 R298). -/
def State.stage (s : State) (k : MCmd) (plane : Bool) : M (State × Tile) := do
  let h := k.h
  let key ← s.useHandle h (!thSparse h && decide (2 ≤ thRank h))
  let t ← slotOf k.st plane
  let (tm, tn) := thTile h
  chk (decide (tm ≤ t.rows ∧ tn ≤ t.cols)) .tileShape
  let fmt := t.fmt.toNat
  let c := fmtCap fmt
  let ti := k.e1.toNat
  let tj := k.e2.toNat
  let (s, bs) ← s.readTile key h c ti tj
  if plane then planeChecks fmt (bs.map Prod.snd) else decodeChecks (bs.map fun b => b.2.2.fmt)
  chk (bs.all fun b => b.2.2.fmt == t.fmt) .mixedFormat
  let bad := (List.range tm).any fun r => (List.range tn).any fun j =>
    match tileSrc bs h c ti tj r j with | some x => badTern fmt x.1 x.2.2 | none => false
  let s ← if plane then pure (s.stagePlanes t h ti tj bs) else s.stageElems t h ti tj bs
  pure (if bad then s.stick none stBADCODE else s, t)

/-- The operands of a product command, staged where it is MMAH: state, A tile, B tile. -/
def State.operands (s : State) (k : MCmd) : M (State × Tile × Tile) :=
  match k.instr with
  | .mmah _ _ _ _ _ which _ _ _ =>
    if which then do
      let a ← slotOf k.a false
      let (t, b) ← s.stage k true
      pure (t, a, b)
    else do
      let b ← slotOf k.b true
      let (t, a) ← s.stage k false
      pure (t, a, b)
  | _ => do
    let a ← slotOf k.a false
    let b ← slotOf k.b true
    pure (s, a, b)

/-- A product passes its checks and enters the record of every quadrant of its lease, before beat 0 (17 R468). -/
def State.beginProduct (s : State) (c : MCmd) (k : ProdKind) : M State := do
  let rm := cmdRm c.instr
  let h := c.shape
  s.walkerRuns c.lane.ovr
  s.cmdChecks rm false h
  if k = .ck then s.ckChecks h
  let (t, a, b) ← s.operands c
  let p := prodOf k rm h a b
  t.prodChecks p c.lane.ovr
  let r : Rcd := ⟨true, 0x1FFFF, t.cur % 4, c.word, p.gm, p.gn, p.gk, p.g, some a, some b, h.rm.toNat, h.rn.toNat, h.rk.toNat,
    h.afmt⟩
  let l := (leaseQuads t.core.c.mat.lease).foldl (fun l q => l.setQuad q { l.quad q with rcd := r }) t.lantern
  let t := (t.setLantern l).modMat fun m => { m with mq := m.mq.tail, cur := some c }
  pure (if t.badA p then t.stick none stBADCODE else t)

/-- The lease has run to a limit that another core waits for: no further command begins (08 R291), but those that a stop of its quadrants
has held back up to a product of theirs (18 R479, R482). -/
def State.leaseDue (s : State) : Bool := s.limitReached && s.contended && s.core.c.mat.owed == 0

/-- The head of the queue becomes the product in progress when it is one and nothing is in progress. A unit whose lease has
ended waits for it again; a lease that a stopped quadrant prolongs takes the product that was issued into the stop (18 R479, R482). -/
def State.pump (s : State) : M State :=
  if s.product.isSome then .ok s
  else match s.core.c.mat.mq with
    | [] => .ok s
    | c :: _ => match prodKind c.instr with
      | none => .ok s
      | some k =>
        if s.core.c.mat.lost then .ok s.awaitLease
        else if s.leaseDue && !s.quadStopped then .ok s
        else match s.beginProduct c k with
          | .ok t => .ok t
          | .error x => s.failM x c.lane

/-- An array command has completed: the flips of its quadrants count it, and the lease does (08 R291, 12 R377). -/
def State.countM (s : State) : State :=
  s.modMat fun m => { m with
    cmds := m.cmds + 1
    flip := m.flip.filterMap fun x => match x.2 with
      | some f => if !hasQuad m.lease x.1 then some x
        else if f.left = 0 then none else some (x.1, some { f with left := f.left - 1 })
      | none => none }

/-- Change the record of every quadrant of the lease. -/
def State.setRcd (s : State) (f : Rcd → Rcd) : State :=
  let c := s.cur % 4
  s.setLantern ((leaseQuads s.core.c.mat.lease).foldl (fun (l : Lantern) q =>
    let d := l.quad q
    if d.holder = some c then l.setQuad q { d with rcd := f d.rcd } else l) s.lantern)

/-- The lowest beat for which a quadrant of the lease is armed. -/
def State.armedBeat (s : State) : Option Nat :=
  (leaseQuads s.core.c.mat.lease).foldl (fun n q => match n, (s.lantern.quad q).armed with
    | some a, some b => some (min a b)
    | none, x => x
    | x, none => x) none

/-- Beats a record has done. -/
def Rcd.done (r : Rcd) : Nat := if r.beat = 0x1FFFF then 0 else r.beat + 1

/-- The product in progress makes its last update: its token falls (08 R288, 17 R468, R472). -/
def State.endProduct (s : State) (r : Rcd) (span : Nat) : State :=
  let t := (s.setRcd fun x => { x with active := false, beat := if span = 0 then x.beat else span - 1 }).idleCells s.core.c.mat.lease
  let t := (t.stopArmed (2 ^ 64)).modMat fun m => { m with cur := none, owed := m.owed - 1 }
  let tok := match decodeInstr .m [] r.word with | .ok (i, _) => cmdTok i | .error _ => none
  (t.lowerToken tok).countM

/-- The product in progress runs on to its end or to the beat it is armed for; not while a quadrant's clock stands. -/
def State.runProduct (s : State) (r : Rcd) : State :=
  if s.quadStopped then s
  else match r.prod? with
    | none => s.endProduct r 0
    | some p =>
      let mask := s.core.c.mat.lease
      let stop := match s.armedBeat with | some b => max r.done (b + 1) | none => p.span
      if p.span ≤ stop then (s.runProd p mask r.done p.span).endProduct r p.span
      else (((s.runProd p mask r.done stop).latchCells p mask (stop - 1)).setRcd fun x => { x with beat := stop - 1 }).stopArmed stop

/-! ### The accumulator commands (08 R301-R304) -/

/-- Rows and columns of the grant that are no tails. -/
def liveRows (h : Shape) : Nat := min h.rm.toNat h.gm.toNat
/-- Columns. -/
def liveCols (h : Shape) : Nat := min h.rn.toNat h.gn.toNat

/-- Quadrant rows that geometry rows below `m` and columns below `n` touch. -/
def touched (mask m n : Nat) : List (Nat × Nat) :=
  (List.range m).flatMap fun i =>
    ((leaseQuads mask).filter fun q => decide (rowBase mask q ≤ i ∧ i < rowBase mask q + 128 ∧ colBase mask q < n)).map
      fun q => (q, i - rowBase mask q)

/-- Set a row's check words to match its patterns. -/
def Quad.matchRow (d : Quad) (r : Nat) : Quad :=
  let (s, w) := d.rowSums r
  { d with sw := Sparse.set 0 d.sw r s, ww := Sparse.set 0 d.ww r w }

/-- MCLR on the array (08 R301). -/
def State.clearCells (s : State) (m n : Nat) : State :=
  let mask := s.core.c.mat.lease
  s.setLantern ((touched mask m n).foldl (fun (l : Lantern) x =>
    let d := l.quad x.1
    let keep (k : Nat) : Bool := !(k / 128 == x.2 && decide (colBase mask x.1 + k % 128 < n))
    l.setQuad x.1 ({ d with acc := d.acc.filter fun c => keep c.1 }.matchRow x.2)) s.lantern)

/-- MCLR.all. -/
def State.clearLease (s : State) : State :=
  s.setLantern ((leaseQuads s.core.c.mat.lease).foldl (fun (l : Lantern) q => l.setQuad q (l.quad q).clearAcc) s.lantern)

/-- The pattern of geometry cell (i, j). -/
def State.cell (s : State) (i j : Nat) : Word :=
  let (q, r, c) := geoCell s.core.c.mat.lease i j
  Sparse.get 0 (s.lantern.quad q).acc (128 * r + c)

/-- An accumulator pattern in AFMT: integers sign-extended, floats zero-extended (08 R283). -/
def accPat (afmt n : Nat) : Word := if fmtI afmt then BitVec.ofInt 64 (signed (fmtWidth afmt) n) else BitVec.ofNat 64 (n % 2 ^ fmtWidth afmt)

/-- The blocks of the elements below (m, n) of an element-major slot. -/
def Tile.blocksOf (t : Tile) (m n : Nat) : List Nat :=
  let cap := fmtCap t.fmt.toNat
  (List.range m).flatMap fun r => (List.range ((n + cap - 1) / cap)).map fun b => t.base + r * t.rowBytes + 64 * b

/-- MLDACC (08 R302); with a zero grant it loads nothing (02 R53). -/
def State.loadAcc (s : State) (c : MCmd) : M State := do
  let h := c.shape
  s.walkerRuns c.lane.ovr
  s.cmdChecks 0 true h
  let t ← slotOf c.a false
  let m := liveRows h
  let n := liveCols h
  chk (decide (m ≤ t.rows ∧ n ≤ t.cols)) .tileShape
  let bs := t.blocksOf m n
  bs.forM fun b => s.coverRead c.lane.ovr b 64
  chk (bs.all fun b => (s.desc (b / 64)).fmt == h.afmt) .mixedFormat
  chk (bs.all fun b => (s.desc (b / 64)).scale == 0x7F) .arrayScale
  let mask := s.core.c.mat.lease
  if h.noGrant then pure s
  else pure ((List.range m).foldl (fun s i => (List.range n).foldl (fun (s : State) j =>
    let (q, r, k) := geoCell mask i j
    let x := accPat h.afmt.toNat (elemPat t.fmt.toNat (s.spad (t.blockAt i j) 64) (t.slotAt j))
    s.setLantern (s.lantern.setQuad q ((s.lantern.quad q).setAcc r k x))) s) s)

/-- Check the rows that a drain reads: the flips corrected, or the trap (08 R307, R308). -/
def State.drainRows (s : State) (m n : Nat) : M State :=
  (touched s.core.c.mat.lease m n).foldlM (fun t x =>
    let (u, ok) := t.checkRow (s.cur / 4) x.1 x.2 s.cur
    if ok then .ok u else .error (.trapped t .accumulatorUncorrectable 0)) s

/-- One row of a drain converted: patterns and flags by column. -/
def State.drainRow (s : State) (afmt tgt rm i n : Nat) (scale : Nat → Nat) : List (Nat × Nat) :=
  (List.range n).map fun j =>
    let (q, _, c) := geoCell s.core.c.mat.lease i j
    let x := (s.cell i j).toNat % 2 ^ fmtWidth afmt
    convert (valOf afmt x) 127 tgt (scale j) rm (rndOf (Sparse.get 0 s.core.c.mat.qgen q) c)

/-- The converters of the quadrants that hold part of a geometry row advance for .sr (03 R110): those with a column that is drained (DEDUCED,
log 146). -/
def State.stepGens (s : State) (rm i n : Nat) : State :=
  if rm = 6 then
    let mask := s.core.c.mat.lease
    let qs := (leaseQuads mask).filter fun q => decide (rowBase mask q ≤ i ∧ i < rowBase mask q + 128 ∧ colBase mask q < n)
    s.modMat fun m => { m with qgen := qs.foldl (fun g q => Sparse.set 0 g q (nextGen (Sparse.get 0 g q))) m.qgen }
  else s

/-- MSTACC (08 R303); a suppressed cell raises no trap and no flag (14 R417). -/
def State.drain (s : State) (c : MCmd) : M State := do
  let h := c.shape
  let rm := cmdRm c.instr
  s.cmdChecks rm true h
  s.walkerRuns c.lane.ovr
  let t ← slotOf c.a false
  let m := liveRows h
  let n := liveCols h
  let tgt := t.fmt.toNat
  let afmt := h.afmt.toNat
  chk (decide (m ≤ t.rows ∧ n ≤ t.cols)) .tileShape
  chk (afmt != 0) .rawOperand
  chk ((fmtI tgt || fmtF8 tgt || fmtF tgt) && (fmtI afmt || fmtF8 afmt || fmtF afmt)) .unsupportedFormat
  let kept (i j : Nat) : Bool := s.suppressed c.lane.ovr (t.elemAt i j)
  chk ((List.range m).all fun i => (List.range n).all fun j => kept i j || (s.desc (t.blockAt i j / 64)).scale != 0xFF) .nanScale
  let s ← s.drainRows m n
  pure ((List.range m).foldl (fun (s : State) i =>
    let s := s.stepGens rm i n
    let row := s.drainRow afmt tgt rm i n fun j => (s.desc (t.blockAt i j / 64)).scale.toNat
    (s.putRow c.lane.ovr t i n (fun j => (row[j]?).map Prod.fst) fun d => ⟨t.fmt, d.scale⟩).raiseFm
      (row.zipIdx.foldl (fun f x => if kept i x.2 then f else f ||| x.1.2) 0)) s)

/-- A value's magnitude. -/
def Val.abs : Val → Val
  | .fin _ m e => .fin false m e
  | .inf _ => .inf false
  | v => v

/-- A sum of values formed exactly, with the flags before rounding. -/
def sumVals (vs : List Val) : Val × Nat :=
  vs.foldl (fun n v => let (x, g) := Val.add 0 n.1 v; (x, n.2 ||| g)) (.fin false 0 0, 0)

/-- A residue: a checksum less a sum, rounded once (log 129). -/
def residue (rm : Nat) (total : Val) (vs : List Val) : Nat × Nat :=
  let (x, f) := sumVals (total :: vs.map Val.neg)
  let (r, g) := encodeVal 0x14 rm 0 x
  (r, f ||| g)

/-- An absolute sum, rounded once. -/
def absSum (rm : Nat) (vs : List Val) : Nat × Nat :=
  let (x, f) := sumVals (vs.map Val.abs)
  let (r, g) := encodeVal 0x14 rm 0 x
  (r, f ||| g)

/-- MCHK (08 R304). -/
def State.checkProduct (s : State) (c : MCmd) : M State := do
  let h := c.shape
  let rm := cmdRm c.instr
  s.cmdChecks rm false h
  s.walkerRuns c.lane.ovr
  s.ckChecks h
  let t ← slotOf c.a false
  let m := h.rm.toNat
  let n := h.rn.toNat
  chk (decide (8 ≤ t.rows ∧ max m n ≤ t.cols)) .tileShape
  chk (h.afmt == 0x14 && t.fmt == 0x14) .unsupportedFormat
  let s ← s.drainRows (m + 1) (n + 1)
  let kept (i j : Nat) : Bool := s.suppressed c.lane.ovr (t.elemAt i j)
  let v (i j : Nat) : Val := floatOf 0x14 ((s.cell i j).toNat % 2 ^ 32)
  let row (i : Nat) : List Val := (List.range n).map fun x => v i x
  let col (j : Nat) : List Val := (List.range m).map fun r => v r j
  let rows : List (List (Nat × Nat)) :=
    [(List.range m).map fun i => residue rm (v i n) (row i), (List.range m).map fun i => absSum rm (row i),
     (List.range n).map fun j => residue rm (v m j) (col j), (List.range n).map fun j => absSum rm (col j)]
  pure (rows.zipIdx.foldl (fun (s : State) x =>
    (s.putRow c.lane.ovr t x.2 t.cols (fun j => some (((x.1[j]?).map Prod.fst).getD 0)) fun _ => ⟨0x14, 0x7F⟩).raiseFm
      (x.1.zipIdx.foldl (fun f y => if kept x.2 y.2 then f else f ||| y.1.2) 0)) s)

/-- MSEED (08 R305). -/
def State.seedQuads (s : State) (q : Nat) (x : Word) : M State := do
  s.badRows
  chk (q != 0) .leaseMask
  chk ((leaseQuads q).all fun i => hasQuad s.liveQuads i) .quadrantFused
  pure (s.modMat fun m => { m with qgen := (leaseQuads q).foldl (fun g i => Sparse.set 0 g i (if x = 0 then 1 else x)) m.qgen })

/-- MFREE (08 R294): at its place in the text the lease is released, and every grant recomputed (log 66). -/
def State.freeCmd (s : State) (c : MCmd) (mask : Nat) : M State :=
  if s.core.c.mat.lease = 0 then .ok s
  else do
    chk (s.core.c.mat.lease == mask) .leaseMask
    s.badRows
    pure (s.atPlace .m c.lane.place fun t => ((t.notePark .m).freeLease).regrant .m)

/-! ### Commands other than products -/

/-- The effect of such a command. -/
def State.runCmd (s : State) (c : MCmd) : M State :=
  match c.instr with
  | .mclr _ _ => do
    s.cmdChecks 0 true c.shape
    pure (if c.shape.noGrant then s else s.clearCells c.shape.gm.toNat c.shape.gn.toNat)
  | .mclrAll _ _ => do
    s.cmdChecks 0 true c.shape
    pure s.clearLease
  | .mldacc .. => s.loadAcc c
  | .mstacc .. => s.drain c
  | .mchk .. => s.checkProduct c
  | .mseed q _ _ => s.seedQuads q.toNat c.e1
  | .mfree q _ => s.freeCmd c q.toNat
  | _ => .ok s

/-- Whether a command acts on the array of a lease. -/
def onArray : Instr → Bool
  | .mseed .. => false
  | .mfree .. => false
  | _ => true

/-- The head of the queue, no product, completes: its effect, then its token (08 R288); not while a quadrant of the lease is stopped
(18 R482; log 131). -/
def State.completeCmd (s : State) (c : MCmd) : M State :=
  let arr := onArray c.instr
  if arr && s.core.c.mat.lost then .ok s.awaitLease
  else if s.quadStopped || (arr && s.leaseDue) then .ok s
  else match s.runCmd c with
    | .ok t =>
      let t := (t.modMat fun m => { m with mq := m.mq.tail, owed := m.owed - 1 }).lowerToken (cmdTok c.instr)
      .ok (if arr then t.countM else t)
    | .error x => s.failM x c.lane

/-- MATRIX_COMMAND_COMPLETE: the command in progress, or the one at the head of the queue, completes, or stops at the beat it is
armed for; the next product enters the record (08 R286-R288). -/
def execMatrixCommandComplete (core : Nat) (s : State) : Outcome State Fault Refusal :=
  let t := s.focus core
  event s do
    if t.segRuns 0 then
     if t.trapOpen then t.asUnit fun u => match u.product with
      | some r => pure (u.runProduct r)
      | none => pure u
     else do
      let t ← t.pump
      match t.product with
      | some r => (t.runProduct r).pump
      | none => match t.core.c.mat.mq with
        | [] => pure t
        | c :: _ =>
          if (prodKind c.instr).isSome then pure t
          else do
            let t ← t.completeCmd c
            t.pump
    else pure t

/-! ### The lanes (08 R295, R296) -/

/-- The word that an instruction's lane holds. -/
def laneWord (i : Instr) : Nat := match encode i with | some e => e.word | none => 0

/-- A lane becomes a command: it reads its registers and bindings in text order, names its token and enters the queue (08
R286, R295). -/
def State.issueM (s : State) (i : Instr) (h : ShReg) (a b st : Option TsReg) (th : BitVec 256) (es : List CSrc) : M State := do
  s.useX .m es
  holdUntil (decide (s.core.c.mat.mq.length < 16))
  let t ← s.raiseToken (cmdTok i)
  let v := s.view .m
  let tile (x : Option TsReg) : Option Tile := x.bind fun n => v.tile n.toNat
  let e (n : Nat) : Word := match es[n]? with | some f => s.valX .m f | none => 0
  let c : MCmd := ⟨i, s.laneAt .m, laneWord i, tile a, tile b, tile st, v.shape h.toNat, th, e 0, e 1⟩
  (t.modMat fun m => { m with mq := m.mq ++ [c] }).pump

/-- MMA.rm ta, tb, sh (08 R297). -/
def execMma (ta tb : TsReg) (h : ShReg) (rm : BitVec 3) (tok : Tok) (s : State) : Outcome State Fault Refusal :=
  lane .m s (s.issueM (.mma ta tb h rm tok) h (some ta) (some tb) none 0 [])

/-- MMAH.rm ta, tb, sh, ts: one operand from a handle (08 R298). -/
def execMmah (ta tb : TsReg) (h : ShReg) (rm : BitVec 3) (tok : Tok) (which : Bool) (ts : TsReg) (e1 e2 : CSrc) (s : State) :
    Outcome State Fault Refusal :=
  lane .m s (s.issueM (.mmah ta tb h rm tok which ts e1 e2) h (some ta) (some tb) (some ts)
    ((s.view .m).handle (if which then tb.toNat else ta.toNat)) [e1, e2])

/-- MMACK.rm ta, tb, sh (08 R299). -/
def execMmack (ta tb : TsReg) (h : ShReg) (rm : BitVec 3) (tok : Tok) (s : State) : Outcome State Fault Refusal :=
  lane .m s (s.issueM (.mmack ta tb h rm tok) h (some ta) (some tb) none 0 [])

/-- MMABX ta, tb, sh (08 R300). -/
def execMmabx (ta tb : TsReg) (h : ShReg) (tok : Tok) (s : State) : Outcome State Fault Refusal :=
  lane .m s (s.issueM (.mmabx ta tb h tok) h (some ta) (some tb) none 0 [])

/-- MMABA ta, tb, sh (08 R300). -/
def execMmaba (ta tb : TsReg) (h : ShReg) (tok : Tok) (s : State) : Outcome State Fault Refusal :=
  lane .m s (s.issueM (.mmaba ta tb h tok) h (some ta) (some tb) none 0 [])

/-- MCLR sh (08 R301). -/
def execMclr (h : ShReg) (tok : Tok) (s : State) : Outcome State Fault Refusal :=
  lane .m s (s.issueM (.mclr h tok) h none none none 0 [])

/-- MCLR.all (08 R301). -/
def execMclrAll (h : ShReg) (tok : Tok) (s : State) : Outcome State Fault Refusal :=
  lane .m s (s.issueM (.mclrAll h tok) h none none none 0 [])

/-- MLDACC ta, sh (08 R302). -/
def execMldacc (ta : TsReg) (h : ShReg) (tok : Tok) (s : State) : Outcome State Fault Refusal :=
  lane .m s (s.issueM (.mldacc ta h tok) h (some ta) none none 0 [])

/-- MSTACC.rm ta, sh (08 R303). -/
def execMstacc (ta : TsReg) (h : ShReg) (rm : BitVec 3) (tok : Tok) (s : State) : Outcome State Fault Refusal :=
  lane .m s (s.issueM (.mstacc ta h rm tok) h (some ta) none none 0 [])

/-- MCHK.rm ta, sh (08 R304). -/
def execMchk (ta : TsReg) (h : ShReg) (rm : BitVec 3) (tok : Tok) (s : State) : Outcome State Fault Refusal :=
  lane .m s (s.issueM (.mchk ta h rm tok) h (some ta) none none 0 [])

/-- MFREE qmask, k (08 R294): a command that takes effect when every earlier one has completed and no quadrant of the lease is stopped (18
R482; log 66); without a lease it changes nothing, and its token falls at once. -/
def execMfree (q : BitVec 4) (tok : Tok) (s : State) : Outcome State Fault Refusal :=
  lane .m s do
    s.maskChecks q.toNat
    if s.core.c.mat.lease = 0 then do
      let t ← s.raiseToken tok
      pure (t.lowerToken tok)
    else s.issueM (.mfree q tok) 0 none none none 0 []

/-- MSEED qlist, xs (08 R305). -/
def execMseed (q : BitVec 4) (xs : CSrc) (tok : Tok) (s : State) : Outcome State Fault Refusal :=
  lane .m s (s.issueM (.mseed q xs tok) 0 none none none 0 [xs])

end Sys2Proof.Machine
end

