-- ==== Sys2Proof/Machine/Copy.lean ====
section
/-! DEFINITION. Copy commands (09 R332-R350; 16 R450, R451; 19 R493): issue, boxes, sparse tiles, buffer fills, host and peer
copies, collectives, gathers, hints and fences, and their completion. -/

namespace Sys2Proof.Machine

open Sys2Proof Host

/-! ### Issue (09 R332) -/

/-- The token and the flag of a copy command. -/
def copyTokFl : Instr → Tok × Fl
  | .xcopyLd _ _ k f _ _ _ _ => (k, f)
  | .xcopySt _ _ k f _ _ _ _ => (k, f)
  | .xcopySs _ _ k f => (k, f)
  | .xcopys _ _ k f _ _ => (k, f)
  | .xcb _ _ k f _ _ _ _ => (k, f)
  | .xhost _ _ k f _ _ _ => (k, f)
  | .xpeer _ _ k f _ => (k, f)
  | .xcoll _ _ _ k f _ _ => (k, f)
  | .xgath _ _ _ k f _ _ => (k, f)
  | .xfence _ k f => (k, f)
  | _ => (none, none)

/-- The command that a lane becomes: what it reads in text order. -/
def State.copyCmd (s : State) (i : Instr) (t1 t2 : Option TsReg) (b : Option CbReg) (h : Option ThReg) (es : List CSrc) : XCmd :=
  let v := s.view .x
  let e (n : Nat) : Word := match es[n]? with | some f => s.valX .x f | none => 0
  ⟨i, s.laneAt .x, t1.bind fun t => v.tile t.toNat, t2.bind fun t => v.tile t.toNat, b.bind fun c => v.buf c.toNat,
   match h with | some x => v.handle x.toNat | none => 0, e 0, e 1, e 2, e 3, false, 0, 0, false⟩

/-- A copy lane places its command in the queue of 16 and names its token. -/
def State.issueX (s : State) (i : Instr) (t1 t2 : Option TsReg) (b : Option CbReg) (h : Option ThReg) (es : List CSrc) : M State := do
  s.useX .x es
  holdUntil (decide (s.core.x.xq.length < 16))
  let t ← s.raiseToken (copyTokFl i).1
  pure (t.modX fun x => { x with xq := x.xq ++ [s.copyCmd i t1 t2 b h es] })

/-- XCOPY.ld ts, th (09 R339). -/
def execXcopyLd (t : TsReg) (h : ThReg) (tok : Tok) (fl : Fl) (e1 e2 e3 e4 : CSrc) (s : State) : Outcome State Fault Refusal :=
  lane .x s (s.issueX (.xcopyLd t h tok fl e1 e2 e3 e4) (some t) none none (some h) [e1, e2, e3, e4])

/-- XCOPY.st ts, th (09 R339). -/
def execXcopySt (t : TsReg) (h : ThReg) (tok : Tok) (fl : Fl) (e1 e2 e3 e4 : CSrc) (s : State) : Outcome State Fault Refusal :=
  lane .x s (s.issueX (.xcopySt t h tok fl e1 e2 e3 e4) (some t) none none (some h) [e1, e2, e3, e4])

/-- XCOPY.ss tsd, tss (09 R339). -/
def execXcopySs (td ts : TsReg) (tok : Tok) (fl : Fl) (s : State) : Outcome State Fault Refusal :=
  lane .x s (s.issueX (.xcopySs td ts tok fl) (some td) (some ts) none none [])

/-- INT4O, TERN5 and BIN1, and RAW (09 R341). -/
def packed (c : Nat) : Bool := c == 0 || narrow c

/-- XCOPYS ts, th; the slot's format is checked at issue (09 R341). -/
def execXcopys (t : TsReg) (h : ThReg) (tok : Tok) (fl : Fl) (e1 e2 : CSrc) (s : State) : Outcome State Fault Refusal :=
  lane .x s do
    s.useX .x [e1, e2]
    chk (((s.view .x).tile t.toNat).all fun x => !packed x.fmt.toNat) .unsupportedFormat
    s.issueX (.xcopys t h tok fl e1 e2) (some t) none none (some h) [e1, e2]

/-- The box of an XCB and its key, after its checks (09 R342). -/
def State.fillBox (s : State) (c : XCmd) : M (Buf × KeyId × Box) := do
  match c.buf with
  | none => trap .unboundSlot
  | some f => do
    let k ← s.useHandle c.h (!thSparse c.h)
    let fc := boxFc c.e3
    chk (fmtOk fc) .reservedFormat
    let b := boxOf (fmtCap fc) c.e1 c.e2 c.e3 c.e4
    chk (b.aligned c.h) .boxAlign
    chk (decide (b.nr * 64 * b.nb ≤ f.size)) .tileShape
    pure (f, k, b)

/-- XCB cb, th: its checks are made at issue (09 R342). -/
def execXcb (c : CbReg) (h : ThReg) (tok : Tok) (fl : Fl) (e1 e2 e3 e4 : CSrc) (s : State) : Outcome State Fault Refusal :=
  lane .x s do
    s.useX .x [e1, e2, e3, e4]
    let i : Instr := .xcb c h tok fl e1 e2 e3 e4
    let _ ← s.fillBox (s.copyCmd i none none (some c) (some h) [e1, e2, e3, e4])
    s.issueX i none none (some c) (some h) [e1, e2, e3, e4]

/-- XHOST.in and XHOST.out ts (09 R343). -/
def execXhost (t : TsReg) (dir : Bool) (tok : Tok) (fl : Fl) (e1 e2 e3 : CSrc) (s : State) : Outcome State Fault Refusal :=
  lane .x s (s.issueX (.xhost t dir tok fl e1 e2 e3) (some t) none none none [e1, e2, e3])

/-- XPEER.in and XPEER.out ts (09 R346). -/
def execXpeer (t : TsReg) (dir : Bool) (tok : Tok) (fl : Fl) (e1 : CSrc) (s : State) : Outcome State Fault Refusal :=
  lane .x s (s.issueX (.xpeer t dir tok fl e1) (some t) none none none [e1])

/-- XCOLL.op.rm ts (09 R348). -/
def execXcoll (t : TsReg) (rm : BitVec 3) (op : BitVec 2) (tok : Tok) (fl : Fl) (e1 e2 : CSrc) (s : State) :
    Outcome State Fault Refusal :=
  lane .x s (s.issueX (.xcoll t rm op tok fl e1 e2) (some t) none none none [e1, e2])

/-- XFENCE.scope (09 R347). -/
def execXfence (scope : Scope) (tok : Tok) (fl : Fl) (s : State) : Outcome State Fault Refusal :=
  lane .x s (s.issueX (.xfence scope tok fl) none none none none [])

/-- XPF th: a hint, complete at issue, which changes nothing; a reserved fc or a box that breaks the alignment rule traps (09 R338,
R350). -/
def execXpf (h : ThReg) (e1 e2 e3 e4 : CSrc) (s : State) : Outcome State Fault Refusal :=
  lane .x s do
    s.useX .x [e1, e2, e3, e4]
    let fc := boxFc (s.valX .x e3)
    chk (fmtOk fc) .reservedFormat
    let b := boxOf (fmtCap fc) (s.valX .x e1) (s.valX .x e2) (s.valX .x e3) (s.valX .x e4)
    chk (b.aligned ((s.view .x).handle h.toNat)) .boxAlign
    pure s

/-! ### Checks of bindings -/

/-- A bound slot, element-major when that is asked for (02 R63, 09 R339). -/
def slotX (t : Option Tile) (flat : Bool) : M Tile :=
  match t with
  | none => trap .unboundSlot
  | some x => if flat && x.plane then trap .tileForm else .ok x

/-! ### XCOPY (09 R339) -/

/-- The box of an XCOPY and its key, after the checks of 09 R336 in the order named there (log 31). -/
def State.copyBox (s : State) (c : XCmd) (t : Tile) : M (KeyId × Box) := do
  let k ← s.useHandle c.h (!thSparse c.h)
  let b := boxOf (fmtCap t.fmt.toNat) c.e1 c.e2 c.e3 c.e4
  chk (b.aligned c.h) .boxAlign
  chk (decide (b.nr ≤ t.rows ∧ b.nc ≤ t.cols)) .tileShape
  pure (k, b)

/-- Element (r, j) of a box that was read: payload, descriptor, place; none outside the tensor. -/
def boxElem (bs : List BoxRead) (h : BitVec 256) (b : Box) (r j : Nat) : Option (Bytes × Desc × Nat) :=
  if b.i0 + j < thExt h 0 then
    match (bs.find? fun x => x.1 == (r, j / b.c)).bind Prod.snd with
    | some (d, e) => some (d, e, j % b.c)
    | none => none
  else none

/-- XCOPY.ld: the box into the slot, by blocks or into planes. -/
def State.copyLd (s : State) (c : XCmd) : M State := do
  let t ← slotX c.t1 false
  let (k, b) ← s.copyBox c t
  let (u, bs) ← s.readBox k c.h b
  let fmt := t.fmt.toNat
  if t.plane then do
    planeChecks fmt (bs.filterMap Prod.snd)
    let src (r j : Nat) := boxElem bs c.h b r j
    let bad := (List.range b.nr).any fun r => (List.range b.nc).any fun j =>
      match src r j with | some x => badTern fmt x.1 x.2.2 | none => false
    let u := if bad then u.stick none stBADCODE else u
    pure ((List.range (if b.empty then 0 else b.nr)).foldl
      (fun u r => u.putPlanes false t r b.nc fun j => sideFrom fmt (src r j)) u)
  else
    pure (bs.foldl (fun u x =>
      let (d, e) := x.2.getD (zeroBlock fmt)
      u.putBytes false (t.base + x.1.1 * t.rowBytes + 64 * x.1.2) d e) u)

/-- XCOPY.st: the slot's blocks into the box, those outside the tensor skipped. -/
def State.copySt (s : State) (c : XCmd) : M State := do
  let t ← slotX c.t1 true
  let (k, b) ← s.copyBox c t
  (b.places.filter fun x => b.inside c.h x.1 x.2).foldlM (fun u x =>
    let a := t.base + x.1 * t.rowBytes + 64 * x.2
    u.writeBlock k (b.addr c.h x.1 x.2) (u.spad a 64) (u.desc (a / 64))) s

/-- Copy whole blocks with their descriptors from one place of scratchpad to another. -/
def State.moveBlocks (s : State) (src dst n : Nat) : State :=
  (List.range n).foldl (fun t i => t.putBytes false (dst + 64 * i) (s.spad (src + 64 * i) 64) (s.desc (src / 64 + i))) s

/-- XCOPY.ss: the whole tile. -/
def State.copySs (s : State) (c : XCmd) : M State := do
  let d ← slotX c.t1 false
  let x ← slotX c.t2 false
  chk (decide (d.rows = x.rows ∧ d.cols = x.cols ∧ d.fmt = x.fmt ∧ d.plane = x.plane)) .tileShape
  chk (!overlap d.base d.bytes x.base x.bytes) .tileOverlap
  pure (s.moveBlocks x.base d.base (x.bytes / 64))

/-! ### XCOPYS (09 R341) -/

/-- Read consecutive blocks through a handle's key. -/
def State.readRun (s : State) (k : KeyId) (a n : Nat) : M (State × List (Bytes × Desc)) :=
  (List.range n).foldlM (fun p i => do
    let (t, d, e) ← p.1.readBlock k (a + 64 * i)
    pure (t, p.2 ++ [(d, e)])) (s, [])

/-- Bit `i` of bytes. -/
def bitOf (d : Bytes) (i : Nat) : Bool := (d.getD (i / 8) 0).toNat / 2 ^ (i % 8) % 2 == 1

/-- XCOPYS ts, th: expand a sparse tile. -/
def State.copySparse (s : State) (c : XCmd) : M State := do
  let t ← slotX c.t1 true
  let fmt := t.fmt.toNat
  let k ← s.useHandle c.h (thSparse c.h)
  let (tm, tn) := thTile c.h
  chk (decide (c.e1.toNat * tm < thExt c.h 1 ∧ c.e2.toNat * tn < thExt c.h 0)) .boxAlign
  chk (decide (t.rows = tm ∧ t.cols = tn)) .tileShape
  let id := c.e1.toNat * ((thExt c.h 0 + tn - 1) / tn) + c.e2.toNat
  let mb := up64 (tm * tn / 8)
  let (u, ms) ← s.readRun k (thBase c.h + 64 * thField c.h 14 + id * mb) (mb / 64)
  let mask := ms.flatMap Prod.fst
  let n := (List.range (tm * tn)).countP (bitOf mask)
  let cap := fmtCap fmt
  let (u, vs) ← u.readRun k (thBase c.h + 64 * id * thStride c.h 1) ((n + cap - 1) / cap)
  let ds := vs.map Prod.snd
  chk (ds.all fun d => fmtOk d.fmt.toNat) .reservedFormat
  chk (ds.all fun d => !packed d.fmt.toNat) .unsupportedFormat
  let d := ds.headD ⟨t.fmt, 0x7F⟩
  chk (ds.all fun e => e == d && e.fmt == t.fmt) .mixedFormat
  let data := vs.flatMap Prod.fst
  let w := fmtWidth fmt
  pure ((List.range tm).foldl (fun u r =>
    u.putRow false t r tn (fun j =>
      let e := r * tn + j
      some (if bitOf mask e then laneOf data w ((List.range e).countP (bitOf mask)) else 0)) fun _ => d) u)

/-! ### XCB (09 R342) -/

/-- The fill of the slot that an XCB has taken; the slot then counts as filled. -/
def State.copyFill (s : State) (c : XCmd) (cb : CbReg) : M State := do
  let (f, k, b) ← s.fillBox c
  let (u, bs) ← s.readBox k c.h b
  let u := bs.foldl (fun u x =>
    let (d, e) := x.2.getD (zeroBlock (boxFc c.e3))
    u.putBytes false (f.base + c.slot * f.size + x.1.1 * 64 * b.nb + 64 * x.1.2) d e) u
  match u.cbCount cb.toNat f with
  | some n => pure (u.setCbCount cb.toNat f { n with filled := n.filled + 1 })
  | none => pure u

/-! ### Sealed groups (09 R344) -/

/-- Bytes of a group in host memory. -/
def groupBytes : Nat := 4224

/-- The groups of a stream: number and payload. -/
def groupsOf (bs : Bytes) : List (Nat × Bytes) :=
  (List.range ((bs.length + 4095) / 4096)).map fun g => (g, (bs.drop (4096 * g)).take 4096)

/-- The request block of a group. -/
def requestBlock (handle dir kind len iv g : Nat) : Bytes :=
  natLe 2 handle ++ natLe 1 dir ++ natLe 1 kind ++ natLe 4 len ++ natLe 12 iv ++ natLe 4 g ++ List.replicate 40 0

/-- A group as XHOST.out writes it. -/
def sealGroup (k : KeyId) (handle kind iv g : Nat) (payload : Bytes) : Bytes :=
  let rb := requestBlock handle 1 kind payload.length iv g
  fit groupBytes (rb ++ fit (payload.length + 16) (gcmSeal k iv rb payload))

/-- The payload of a group as XHOST.in takes it: none when KEY, DIR, KIND, LEN or GROUP of its request block, or the tag, does not match;
the reserved bytes 24 to 63 are under the tag alone (09 R344; log 147). -/
def openGroup (k : KeyId) (handle kind len g : Nat) (bs : Bytes) : Option Bytes :=
  let rb := bs.take 64
  let iv := leNat ((rb.drop 8).take 12)
  if leNat (rb.take 2) = handle ∧ fieldOf rb 2 1 = 0 ∧ fieldOf rb 3 1 = kind ∧ fieldOf rb 4 4 = len ∧ fieldOf rb 20 4 = g then
    (gcmOpen k iv rb ((bs.drop 64).take (len + 16))).map (fit len)
  else none

/-- The send counter of a key, which advances by one (09 R344). -/
def State.nextSend (s : State) (w handle : Nat) : State × Nat :=
  if handle = 0xFFF then
    (s.modDev fun d => { d with sec := { d.sec with nullSends := d.sec.nullSends + 1 } }, s.dev.sec.nullSends)
  else match s.dev.sec.keys.find? fun k => k.handle == handle && k.world == w with
    | none => (s, 0)
    | some k =>
      (s.modDev fun d => { d with sec := { d.sec with keys := d.sec.keys.map fun x =>
        if x.handle = handle ∧ x.world = w then { x with sends := x.sends + 1 } else x } }, k.sends)

/-- The key that a handle of a host or peer copy names, the null key among them (09 R345). -/
def State.linkKey (s : State) (handle : Nat) : M KeyId :=
  match s.copyKey s.u.world handle with
  | some k => pure k
  | none => trap .keyHandle

/-- The 64-byte pieces of a range of `n` bytes at `va`. -/
def pieces (va n : Nat) : List Nat := (List.range ((n + 63) / 64)).map fun i => va + 64 * i

/-- An address that no leaf maps lies in no window: the cause of the command stands for not-mapped (09 R343, R346). -/
def unmappedAs {α : Type} (c : Cause) (x : M α) : M α :=
  match x with
  | .error (.trap .notMapped a _) => trapAt c a
  | y => y

/-- Every piece of a range lies in a window of one target, or the command raises cause `c`; the physical addresses (17 R463). -/
def State.window (s : State) (va n target : Nat) (acc : Access) (c : Cause) : M (State × List Nat) :=
  (pieces va n).foldlM (fun p a => do
    chkAt (decide (a < 2 ^ 56)) c (BitVec.ofNat 64 a)
    let (t, e, pa) ← unmappedAs c (p.1.translate p.1.u.world a acc)
    chkAt (e.target == target) c (BitVec.ofNat 64 a)
    pure (t, p.2 ++ [pa])) (s, [])

/-- Write 64-byte pieces of host memory. -/
def State.hostPut (s : State) (pas : List Nat) (bs : Bytes) : State :=
  s.modMem fun m => { m with host := (pas.zipIdx).foldl (fun h p =>
    Memory.writes h p.1 (fit 64 (bs.drop (64 * p.2)))) m.host }

/-- Read 64-byte pieces of host memory. -/
def State.hostGet (s : State) (pas : List Nat) : Bytes := pas.flatMap fun p => Memory.reads s.dev.m.host p 64

/-- The detached descriptors of a tile (03 R86). -/
def State.descBytes (s : State) (t : Tile) : Bytes :=
  t.blocks.flatMap fun a => let d := s.desc (a / 64); [d.fmt, d.scale]

/-- The payload of a tile. -/
def State.tileBytes (s : State) (t : Tile) : Bytes := s.spad t.base t.bytes

/-- Write a tile's blocks from payload and detached descriptors. -/
def State.putTile (s : State) (t : Tile) (bs ds : Bytes) : State :=
  t.blocks.zipIdx.foldl (fun u b =>
    u.putBytes false b.1 (fit 64 (bs.drop (64 * b.2))) ⟨ds.getD (2 * b.2) 0, ds.getD (2 * b.2 + 1) 0⟩) s

/-! ### XHOST (09 R343-R345) -/

/-- One stream out: its counter, then its groups sealed into host memory. -/
def State.streamOut (s : State) (k : KeyId) (handle kind : Nat) (pas : List Nat) (bs : Bytes) : State :=
  let (t, n) := s.nextSend s.u.world handle
  t.hostPut pas ((groupsOf bs).flatMap fun g => sealGroup k handle kind (n * 2 ^ 32 + g.1) g.1 g.2)

/-- One stream in: none when a group does not verify. -/
def streamIn (k : KeyId) (handle kind len : Nat) (bs : Bytes) : Option Bytes :=
  (List.range ((len + 4095) / 4096)).foldl (fun acc g =>
    match acc, openGroup k handle kind (min 4096 (len - 4096 * g)) g ((bs.drop (groupBytes * g)).take groupBytes) with
    | some x, some y => some (x ++ y)
    | _, _ => none) (some [])

/-- Bytes that a stream of `n` bytes takes in host memory. -/
def streamSpan (n : Nat) : Nat := (n + 4095) / 4096 * groupBytes

/-- XHOST: a whole element-major tile as two sealed streams. -/
def State.copyHost (s : State) (c : XCmd) (out : Bool) : M State := do
  let t ← slotX c.t1 true
  let handle := c.e3.toNat % 4096
  let k ← s.linkKey handle
  chkAt (decide (c.e1.toNat % 64 = 0)) .misaligned c.e1
  chkAt (decide (c.e2.toNat % 64 = 0)) .misaligned c.e2
  let acc := if out then Access.write else .read
  let n := t.bytes
  let (s, p) ← s.window c.e1.toNat (streamSpan n) 1 acc .hostWindow
  let (s, q) ← s.window c.e2.toNat (streamSpan (n / 32)) 1 acc .hostWindow
  if out then
    pure ((s.guardRegion.streamOut k handle 0 p (s.tileBytes t)).streamOut k handle 1 q (s.descBytes t))
  else match streamIn k handle 0 n (s.hostGet p), streamIn k handle 1 (n / 32) (s.hostGet q) with
    | some bs, some ds => pure (s.putTile t bs ds)
    | _, _ => trap .sealTag

/-! ### XPEER (09 R346; 19 R493, R494) -/

/-- A world's group key handle: the null key for a world without one; a protected world must have one (19 R493). -/
def State.groupHandle (s : State) : M Nat :=
  match s.world? s.u.world with
  | none => .ok 0xFFF
  | some w => if w.prot && w.groupKey == 0xFFF then trap .keyHandle else .ok w.groupKey

/-- The peer of a protected world is on its roster (19 R494). -/
def State.onRoster (s : State) (pa : Nat) : M PUnit :=
  match s.world? s.u.world with
  | none => .ok ⟨⟩
  | some w => chk (!w.prot || w.roster.contains (Config.peerDevid pa)) .roster

/-- A group of an XPEER: its stream, payload or (true) descriptors, and its number in it (09 R344, 19 R493). -/
abbrev PeerGroup := Bool × Nat

/-- The blocks of a tile that a group carries: 64 by payload, 2,048 by descriptors. -/
def PeerGroup.blocks (g : PeerGroup) (bs : List (Nat × Nat)) : List (Nat × Nat) :=
  let n := if g.1 then 2048 else 64
  (bs.drop (n * g.2)).take n

/-- The groups of `n` blocks, in the order in which they verify: outward the payload stream, then the descriptors; inward a group of
descriptors before the payload of its blocks, so that a block enters scratchpad with its own descriptor (09 R336; log 64). -/
def peerOrder (n : Nat) (out : Bool) : List PeerGroup :=
  let ps := (List.range ((n + 63) / 64)).map fun g => (false, g)
  let ds := (List.range ((n + 2047) / 2048)).map fun g => (true, g)
  if out then ps ++ ds else ds.flatMap fun d => d :: ((ps.drop (32 * d.2)).take 32)

/-- A verified group of a tile moves to or from peer memory; the flag says outward. -/
def State.peerGroup (s : State) (t : Tile) (out : Bool) (pas : List Nat) (g : PeerGroup) : State :=
  (PeerGroup.blocks g (t.blocks.zip pas)).foldl (fun u b =>
    if out then
      u.modMem fun m =>
        if g.1 then { m with peerDesc := Sparse.set Desc.zero m.peerDesc (b.2 / 64) (u.desc (b.1 / 64)) }
        else { m with peer := Memory.writes m.peer b.2 (u.spad b.1 64) }
    else if g.1 then u
    else u.putBytes false b.1 (Memory.reads u.dev.m.peer b.2 64) (Sparse.get Desc.zero u.dev.m.peerDesc (b.2 / 64))) s

/-- Move groups until one fails to verify; whole groups already verified stay written. -/
def State.peerGroups (s : State) (t : Tile) (out : Bool) (pas : List Nat) : List PeerGroup → M State
  | [] => .ok s
  | g :: gs =>
    let u := s.freshen
    if Config.fabricOk s.dev.fresh g.2 then (u.peerGroup t out pas g).peerGroups t out pas gs
    else .error (.trapped u .sealTag 0)

/-- XPEER: a whole tile with its descriptors to or from a peer. -/
def State.copyPeer (s : State) (c : XCmd) (out : Bool) : M State := do
  let t ← slotX c.t1 false
  let handle ← s.groupHandle
  chkAt (decide (c.e1.toNat % 64 = 0)) .peerWindow c.e1
  let (s, p) ← s.window c.e1.toNat t.bytes 2 (if out then .write else .read) .peerWindow
  p.forM s.onRoster
  let s := if out then ((s.guardRegion.nextSend s.u.world handle).1.nextSend s.u.world handle).1 else s
  s.peerGroups t out p (peerOrder (t.bytes / 64) out)

/-! ### Collectives (09 R348; 16 R450, R451) -/

/-- A cause of another class stands for collective-mismatch, when the descriptor names what it should not (16 R451); not that of a
poisoned granule, which a read of it traps with (10 R361). -/
def orMismatch {α : Type} (x : M α) : M α :=
  match x with
  | .error (.trap .poisonConsumed a k) => .error (.trap .poisonConsumed a k)
  | .error (.trap ..) => trap .collectiveMismatch
  | .error (.trapped t ..) => .error (.trapped t .collectiveMismatch 0)
  | y => y

/-- Bytes of device memory of the unit's own world. -/
def State.readOwn (s : State) (va n : Nat) : M (State × Bytes) := do
  let a := BitVec.ofNat 64 va
  chkAt (decide (va < 2 ^ 56)) .addressRange a
  let (t, e, pa) ← s.translate s.u.world va .read
  chk (e.target == 0) .collectiveMismatch
  let bs ← t.readDev (t.memKey t.u.world) a pa n
  pure (t, bs)

/-- The pages of a range of device memory that may be written. -/
def State.ownRange (s : State) (va n : Nat) : M State :=
  (List.range ((n + 65535) / 65536 + 1)).foldlM (fun t i => do
    let a := min (va + 65536 * i) (va + n - 1)
    chk (decide (a < 2 ^ 56)) .collectiveMismatch
    let (t, e, _) ← t.translate t.u.world a .write
    chk (e.target == 0) .collectiveMismatch
    pure t) s

/-- The entries of the peer table, the device's own aside: peer windows, the roster of a protected world (16 R450, R451). -/
def State.peerTable (s : State) (a ndev rank : Nat) : M State :=
  (List.range ndev).foldlM (fun t d =>
    if d = rank then .ok t
    else do
      let (t, bs) ← orMismatch (t.readOwn (a + 16 * d) 16)
      chk (decide (leNat (bs.drop 8) = 0)) .collectiveMismatch
      let (t, p) ← orMismatch (t.window (leNat (bs.take 8)) 64 2 .write .collectiveMismatch)
      p.forM t.onRoster
      pure t) s

/-- Bytes of exchange area that `n` elements of a format need. -/
def exchBytes (fmt n : Nat) : Nat := 128 * ((n * fmtWidth fmt + 511) / 512)

/-- The operation and rounding mode of a collective. -/
def collOp : Instr → Nat × Nat
  | .xcoll _ rm op _ _ _ _ => (op.toNat, rm.toNat)
  | _ => (0, 0)

/-- Whether the unit belongs to a gang launch. -/
def State.inGang (s : State) : Bool :=
  match s.u.lid.bind s.launch? with | some l => l.gang | none => false

/-- The blocks that hold elements 0 to n − 1 of a slot. -/
def Tile.firstBlocks (t : Tile) (n : Nat) : List Nat := ((List.range n).map fun e => t.blockAt (e / t.cols) (e % t.cols)).eraseDups

/-- The exchange area of an XCOLL that has begun: address and length. -/
def XCmd.exch (c : XCmd) : Nat × Nat := (c.h.toNat % 2 ^ 64, c.h.toNat / 2 ^ 64)

/-- Two collectives in progress, of different combinations, name exchange areas that meet (16 R451). -/
def XCmd.clashesWith (a b : XCmd) : Bool :=
  (match a.instr, b.instr with | .xcoll .., .xcoll .. => true | _, _ => false) && a.begun && b.begun &&
  !(a.e3 == b.e3 && a.e4 == b.e4) && overlap a.exch.1 a.exch.2 b.exch.1 b.exch.2

/-- An XCOLL of the core in focus clashes with one in progress of the same world. -/
def State.clashes (s : State) (c : XCmd) : Bool :=
  s.cores.any fun k => k.2.unit.world == s.u.world && k.2.x.xq.any fun x => x.clashesWith c

/-- Mark those with which it clashes. -/
def State.markClash (s : State) (c : XCmd) : State :=
  { s with cores := s.cores.map fun k =>
      if k.2.unit.world = s.u.world then
        (k.1, { k.2 with x := { k.2.x with xq := k.2.x.xq.map fun x => { x with clash := x.clash || x.clashesWith c } } })
      else k }

/-- An XCOLL takes its place in its combination: its checks, then COLLID, SEQ, NDEV, RANK and the exchange area, which the
command keeps in `e3`, `e4`, `slot`, `done` and `h` (log 124). The blocks that must carry the format are those of elements 0 to n − 1
(DEDUCED, log 149). -/
def State.joinColl (s : State) (c : XCmd) : M (State × XCmd) := do
  let t ← slotX c.t1 true
  let fmt := t.fmt.toNat
  let n := c.e2.toNat
  let (_, rm) := collOp c.instr
  chk (decide (1 ≤ n ∧ n ≤ t.rows * t.cols)) .immediateRange
  chk (fmtI fmt || fmtF fmt) .unsupportedFormat
  chk (decide (rm < 6)) .roundingMode
  chk s.inGang .collectiveGang
  chk ((t.firstBlocks n).all fun a => s.desc (a / 64) == ⟨t.fmt, 0x7F⟩) .mixedFormat
  chk (decide (c.e1.toNat % 64 = 0)) .collectiveMismatch
  let (s, bs) ← s.readOwn c.e1.toNat 64
  let fld (o k : Nat) : Nat := leNat ((bs.drop o).take k)
  let ndev := fld 4 2
  let rank := fld 6 2
  chk (decide (fld 0 4 = 0x434F4C31 ∧ 1 ≤ ndev ∧ ndev ≤ 64 ∧ rank < ndev ∧ fld 24 8 % 16 = 0 ∧ fld 32 8 % 64 = 0 ∧
    fld 44 20 = 0 ∧ exchBytes fmt n ≤ fld 40 4)) .collectiveMismatch
  let s ← orMismatch (s.ownRange (fld 32 8) (fld 40 4))
  let s ← if ndev = 1 then .ok s else do
    let _ ← s.groupHandle
    s.peerTable (fld 24 8) ndev rank
  let id := (fld 8 8, fld 16 8)
  chk (!s.core.x.colls.contains id) .collectiveMismatch
  let s := s.modX fun x => { x with colls := x.colls ++ [id] }
  let k : XCmd := { c with begun := true, e3 := BitVec.ofNat 64 id.1, e4 := BitVec.ofNat 64 id.2, slot := ndev, done := rank,
                           h := BitVec.ofNat 256 (fld 32 8 + fld 40 4 * 2 ^ 64) }
  pure (s.markClash k, { k with clash := s.clashes k })

/-- The command of a core that belongs to the combination of `c`. -/
def Core.collCmd (k : Core) (c : XCmd) : Option XCmd :=
  k.x.xq.find? fun x => (match x.instr with | .xcoll .. => true | _ => false) && x.begun && x.e3 == c.e3 && x.e4 == c.e4

/-- The members of the combination of `c` on this device, in ascending unit index: core and command; none while one is
missing. -/
def State.members (s : State) (c : XCmd) : Option (List (Nat × XCmd)) :=
  match s.u.lid.bind s.launch? with
  | none => none
  | some l => (List.range l.n).mapM fun i =>
    (l.placed.find? fun p => p.idx == i && p.run == s.u.run && !p.ended).bind fun p =>
      ((s.coreAt p.core).collCmd c).map fun x => (p.core, x)

/-- What a member names: NDEV, op, rm, n and format. -/
def XCmd.offer (c : XCmd) : Nat × Nat × Nat × Nat × Nat :=
  (c.slot, (collOp c.instr).1, (collOp c.instr).2, c.e2.toNat, match c.t1 with | some t => t.fmt.toNat | none => 0)

/-- The other devices of a collective agree with a member (16 R451). -/
def peersAgree (c : XCmd) : Bool :=
  (List.range c.slot).all fun d => d == c.done || Config.peerOffer c.e3.toNat c.e4.toNat d == c.offer

/-- Two members agree (16 R451). -/
def collAgree (a b : XCmd) : Bool :=
  a.slot == b.slot && collOp a.instr == collOp b.instr && a.e2 == b.e2 && a.t1.map Tile.fmt == b.t1.map Tile.fmt

/-- One partial combination of two elements (03 R119, 07 R251). -/
def collFn (op rm fmt a b : Nat) : Nat :=
  (if op = 0 then vaddFn rm fmt 0 a b else vminmaxFn (op == 1) fmt 0 a b).1

/-- Elements 0 to n − 1 of a slot. -/
def State.collVals (s : State) (t : Tile) (n : Nat) : List Nat :=
  (List.range n).map fun e => laneOf (s.spad (t.blockAt (e / t.cols) (e % t.cols)) 64) (fmtWidth t.fmt.toNat) (t.slotAt (e % t.cols))

/-- Write elements 0 to n − 1 of a slot. -/
def State.putElems (s : State) (t : Tile) (vs : List Nat) : State :=
  (List.range ((vs.length + t.cols - 1) / t.cols)).foldl (fun u r =>
    u.putRow false t r (min t.cols (vs.length - r * t.cols)) (fun j => vs[r * t.cols + j]?) id) s

/-- A combination over lists of elements. -/
def collFold (op rm fmt : Nat) : List (List Nat) → List Nat
  | [] => []
  | v :: vs => vs.foldl (fun a b => List.zipWith (collFn op rm fmt) a b) v

/-- The parts of the devices, in device order: this device's own at its rank, the free values of the others (16 R451). -/
def deviceParts (c : XCmd) (own : List Nat) : List (List Nat) :=
  (List.range c.slot).map fun d =>
    if d = c.done then own
    else (List.range own.length).map fun i => Config.peerPartial c.e3.toNat c.e4.toNat d i

/-- The exchange area of a member receives partial results that the spec does not lay out: free bytes. What the member writes
through peer windows stays (10 R374). -/
def State.exchange (s : State) (c : XCmd) (n : Nat) : State :=
  if c.slot ≤ 1 then s.guardRegion
  else (pieces (c.h.toNat % 2 ^ 64) n).foldl (fun t a =>
    match t.translate t.u.world a .write with
    | .ok (u, _, pa) =>
      let f := u.dev.fresh
      let bs := (List.range 64).map fun i => Config.freeByte (f + i)
      (u.modMem fun m => (m.put (u.memKey u.u.world) pa bs).repair pa bs.length).modDev fun d => { d with fresh := f + 64 }
    | .error _ => t) s.guardRegion

/-- The fabric traffic of a member, sealed as XPEER's is (16 R451, 19 R493): one stream to every other device, and whether what comes
from each verifies. -/
def State.collTraffic (s : State) (c : XCmd) (n : Nat) : State × Bool :=
  let handle := match s.groupHandle with | .ok h => h | .error _ => 0xFFF
  ((List.range c.slot).filter fun d => d != c.done).foldl (fun p _ =>
    let f := p.1.dev.fresh
    (((p.1.nextSend p.1.u.world handle).1).freshen,
     p.2 && (List.range ((n + 4095) / 4096)).all fun g => Config.fabricOk f g)) (s, true)

/-- Elements whose values the spec leaves unspecified. -/
def State.freeElems (s : State) (fmt n : Nat) : State × List Nat :=
  let w := fmtWidth fmt / 8
  (s.modDev fun d => { d with fresh := d.fresh + 8 * n },
   (List.range n).map fun i => leNat ((List.range w).map fun b => Config.freeByte (s.dev.fresh + 8 * i + b)))

/-! ### Completion (09 R334-R336) -/

/-- Command `i` completes: its flag rises, then its token falls (05 R179). -/
def State.finishX (s : State) (i : Nat) (c : XCmd) : State :=
  let t := s.modX fun x => { x with xq := x.xq.eraseIdx i }
  let t := match (copyTokFl c.instr).2 with | some f => t.incFlag none f.toNat 1 | none => t
  t.lowerToken (copyTokFl c.instr).1

/-- Command `i` traps: it and every later command are discarded, flag and token unchanged (09 R336). -/
def State.trapX (s : State) (i : Nat) (c : Cause) (addr : Word) (at' : LaneAt) : State :=
  let t := (s.core.x.xq.drop i).foldl (fun t k => match k.instr with
    | .xgath q .. => t.setQbind q.toNat none
    | _ => t) s
  (t.modX fun x => { x with xq := x.xq.take i }).pendTrap .x c addr at'

/-- A command's work fails. -/
def State.failX (s : State) (i : Nat) (st : Stop) (at' : LaneAt) : M State :=
  match st with
  | .trap c a _ => .ok (s.trapX i c a at')
  | .trapped t c a => .ok (t.trapX i c a at')
  | .gone t => .ok t
  | .stall => .ok s
  | .fault f => .error (.fault f)

/-- The work of a command that runs in one piece. -/
def State.performX (s : State) (c : XCmd) : M State :=
  match c.instr with
  | .xcopyLd .. => s.copyLd c
  | .xcopySt .. => s.copySt c
  | .xcopySs .. => s.copySs c
  | .xcopys .. => s.copySparse c
  | .xcb cb .. => s.copyFill c cb
  | .xhost _ dir .. => s.copyHost c dir
  | .xpeer _ dir .. => s.copyPeer c dir
  | _ => .ok s

/-- A box of zero extent (09 R340). -/
def XCmd.zeroBox (c : XCmd) : Bool := (boxOf 1 c.e1 c.e2 c.e3 c.e4).empty

/-- The scratchpad that a command writes. -/
def XCmd.target (c : XCmd) : Nat × Nat :=
  match c.instr, c.t1, c.buf with
  | .xcb .., _, some b => (b.base + c.slot * b.size, b.size)
  | .xcopySt .., _, _ => (0, 0)
  | .xgath .., _, _ => (0, 0)
  | .xhost _ true .., _, _ => (0, 0)
  | .xpeer _ true .., _, _ => (0, 0)
  | _, some t, _ => (t.base, t.bytes)
  | _, _, _ => (0, 0)

/-- A command writes global memory: an XCOLL when it spans several devices. -/
def XCmd.writesGlobal (c : XCmd) : Bool :=
  match c.instr with
  | .xcopySt .. => !c.zeroBox
  | .xhost _ dir .. => dir
  | .xpeer _ dir .. => dir
  | .xcoll .. => decide (1 < c.slot)
  | _ => false

/-- Both are collectives, whose order the members choose (16 R451). -/
def bothColl (a b : XCmd) : Bool := match a.instr, b.instr with | .xcoll .., .xcoll .. => true | _, _ => false

/-- Both fill one circular buffer. -/
def sameBuf (a b : XCmd) : Bool :=
  match a.instr, a.buf with | .xcb x .., some f => b.fills x.toNat f | _, _ => false

/-- A command may complete before earlier ones: it writes no byte that they still have to write, no global memory before theirs, and
is no later fill of one buffer (09 R334, R342; 10 R372). -/
def XCmd.clearOf (c : XCmd) (skipped : List XCmd) : Bool :=
  skipped.all fun k => !overlap c.target.1 c.target.2 k.target.1 k.target.2 &&
    !(c.writesGlobal && k.writesGlobal && !bothColl c k) && !sameBuf c k

/-- Commands begin in issue order: all up to a fill, a fence or a collective, which begin in steps of their own (09 R334). -/
def beginPlain : List XCmd → List XCmd
  | [] => []
  | c :: cs =>
    if c.begun then c :: beginPlain cs
    else match c.instr with
      | .xfence .. => c :: cs
      | .xcb .. => c :: cs
      | .xcoll .. => c :: cs
      | _ => { c with begun := true } :: beginPlain cs

/-- The commands that can begin do so, unless `hold` keeps them (17 R456). -/
def State.beginX (s : State) (hold : Bool) : State := if hold then s else s.modX fun x => { x with xq := beginPlain x.xq }

/-- Segment C, whose flags and tokens a completing command changes, has shifted in (02 R74). -/
def State.flagsIn (s : State) : Bool := s.core.sys.shifting % 2 == 0

/-- Every member of a combination stands ready: its copy segment runs (17 R470), its flags and tokens have shifted in, no handler runs on
its core, and no earlier command of it is in the way. -/
def State.readyColl (s : State) (ms : List (Nat × XCmd)) : Bool :=
  ms.all fun m => (s.focus m.1).segRuns 3 && (s.focus m.1).flagsIn && (s.coreAt m.1).sys.saved.isNone &&
    m.2.clearOf ((s.coreAt m.1).x.xq.takeWhile fun x => x != m.2)

/-- Whether command `i` can act now, is passed over, or (none) holds back every later command. `hold` says that only commands
that have begun may (17 R456). A fill counts in segment A, which must run (02 R74). -/
def State.canAct (s : State) (hold : Bool) (i : Nat) (skipped : List XCmd) (c : XCmd) : Option Bool :=
  if !c.begun then
    match c.instr with
    | .xfence .. => if i = 0 ∧ hold = false then some true else none
    | .xcoll .. => if hold then none else some true
    | _ => none
  else match c.instr with
    | .xcb .. => some (s.segRuns 1 && c.clearOf skipped)
    | .xcopyLd .. => some (if c.zeroBox then decide (i = 0) else c.clearOf skipped)
    | .xcopySt .. => some (if c.zeroBox then decide (i = 0) else c.clearOf skipped)
    | .xgath .. => some false
    | .xcoll .. => some (match s.members c with | some ms => s.readyColl ms | none => false)
    | _ => some (c.clearOf skipped)

/-- The first command that can act. -/
def State.pickCopy (s : State) (hold : Bool) : Nat → List XCmd → List XCmd → Option (Nat × XCmd)
  | _, _, [] => none
  | i, skipped, c :: cs => match s.canAct hold i skipped c with
    | none => none
    | some true => some (i, c)
    | some false => s.pickCopy hold (i + 1) (skipped ++ [c]) cs

/-- The place of a command in its core's queue. -/
def State.placeX (s : State) (c : XCmd) : Nat := (s.core.x.xq.findIdx? fun x => x == c).getD 0

/-- Change the state of another core. -/
def State.onCore (s : State) (n : Nat) (f : State → State) : State := (f (s.focus n)).focus s.cur

/-- A combination completes in every member, or every member traps (16 R451); a member to which sealed traffic does not verify traps
alone. -/
def State.finishColl (s : State) (c : XCmd) (ms : List (Nat × XCmd)) : State :=
  let bad := ms.any fun m => !collAgree c m.2 || !peersAgree m.2
  if bad then
    ms.foldl (fun s m => s.onCore m.1 fun t => t.trapX (t.placeX m.2) .collectiveMismatch 0 m.2.lane) s
  else
    let (op, rm) := collOp c.instr
    let n := c.e2.toNat
    let fmt := match c.t1 with | some t => t.fmt.toNat | none => 0
    let own := collFold op rm fmt (ms.map fun m => match m.2.t1 with
      | some t => (s.focus m.1).collVals t n
      | none => [])
    let clash := ms.any fun m => m.2.clash
    let (s, res) := if clash then s.freeElems fmt n else (s, collFold op rm fmt (deviceParts c own))
    ms.foldl (fun s m => s.onCore m.1 fun t =>
      let (t, ok) := (t.exchange m.2 (exchBytes fmt n)).collTraffic m.2 (exchBytes fmt n)
      if ok then
        let t := match m.2.t1 with | some x => t.putElems x res | none => t
        t.finishX (t.placeX m.2) m.2
      else t.trapX (t.placeX m.2) .sealTag 0 m.2.lane) s

/-- Command `i` acts. -/
def State.actX (s : State) (i : Nat) (c : XCmd) : M State :=
  match c.instr with
  | .xcoll .. =>
    if c.begun then
      match s.members c with
      | some ms => .ok (s.finishColl c ms)
      | none => .ok s
    else match s.joinColl c with
      | .ok (t, k) => .ok (t.modX fun x => { x with xq := x.xq.set i k })
      | .error x => s.failX i x c.lane
  | _ => match s.performX c with
    | .ok t => .ok (t.finishX i c)
    | .error x => s.failX i x c.lane

/-- COPY_COMMAND_COMPLETE: the oldest command that can act does so (09 R334, R335), once the flags and tokens that it changes have shifted
in (02 R74). -/
def execCopyCommandComplete (core : Nat) (s : State) : Outcome State Fault Refusal :=
  let t := s.focus core
  event s (
    if t.segRuns 3 && t.flagsIn then
      t.asUnit fun u =>
        let u := u.beginX t.trapOpen
        match u.pickCopy t.trapOpen 0 [] u.core.x.xq with
        | some (i, c) => u.actX i c
        | none => .ok u
    else .ok t)

/-! ### Beginning a fill (09 R342) -/

/-- The next command to begin, when it is an XCB: its place, its buffer and binding (09 R334). -/
def nextFill : Nat → List XCmd → Option (Nat × XCmd × CbReg × Buf)
  | _, [] => none
  | i, c :: cs =>
    if c.begun then nextFill (i + 1) cs
    else match c.instr, c.buf with
      | .xcb cb .., some f => some (i, c, cb, f)
      | _, _ => none

/-- XCB_SLOT_TAKE: an XCB waits for a free slot of the buffer it was issued under and takes the one at the fill position. -/
def execXcbSlotTake (core : Nat) (s : State) : Outcome State Fault Refusal :=
  let t := s.focus core
  event s (
    if t.segRuns 3 && t.segRuns 1 && !t.trapOpen then
      let t := t.beginX false
      match nextFill 0 t.core.x.xq with
      | none => .ok t
      | some (i, c, cb, f) => match t.cbCount cb.toNat f with
        | none => .ok t
        | some n =>
          if n.free = 0 then .ok t
          else
            let k := { c with begun := true, slot := n.fill }
            .ok ((t.modX fun x => { x with xq := x.xq.set i k }).setCbCount cb.toNat f
              { n with free := n.free - 1, fill := (n.fill + 1) % f.count })
    else .ok t)

/-! ### Gathers (09 R349) -/

/-- XGATH q, th, ts: its checks at issue, which bind the queue. -/
def execXgath (q : QReg) (h : ThReg) (t : TsReg) (tok : Tok) (fl : Fl) (e1 e2 : CSrc) (s : State) : Outcome State Fault Refusal :=
  lane .x s do
    s.useX .x [e1, e2]
    let v := s.view .x
    let x ← slotX (v.tile t.toNat) true
    let n := (s.valX .x e1).toNat
    chk (decide (1 ≤ n ∧ n ≤ x.rows * x.cols)) .immediateRange
    let th := v.handle h.toNat
    let _ ← s.useHandle th (!thSparse th)
    chk (x.fmt == 4) .mixedFormat
    s.unboundQ q.toNat
    let u ← s.issueX (.xgath q h t tok fl e1 e2) (some t) none none (some h) [e1, e2]
    pure (u.setQbind q.toNat (some .gath))

/-- The index of element `m` of a gather, by the slot `t` (09 R349). -/
def State.gathIndex (s : State) (c : XCmd) (t : Tile) (m : Nat) : M Nat := do
  let blk := t.blockAt (m / t.cols) (m % t.cols)
  chk (decide ((s.desc (blk / 64)).fmt = 4)) .mixedFormat
  let ix := laneOf (s.spad blk 64) 32 (t.slotAt (m % t.cols))
  chk (decide (ix < thExt c.h 1)) .gatherRange
  pure ix

/-- The address of the element with an index. -/
def XCmd.gathAddr (c : XCmd) (ix : Nat) : Nat := thBase c.h + 64 * (c.e2.toNat + ix * thStride c.h 1)

/-- Before the first element moves, every page of those that are to move must translate (17 R465) and none may be a window (09 R337): those
up to the first index that is out of range. -/
def State.gathPages (s : State) (c : XCmd) (t : Tile) : Nat → Nat → M PUnit
  | 0, _ => .ok ⟨⟩
  | n + 1, m => match s.gathIndex c t m with
    | .error _ => .ok ⟨⟩
    | .ok ix => do
      (List.range (s.payload / 64)).forM fun i =>
        let va := c.gathAddr ix + 64 * i
        do
          chkAt (decide (va < 2 ^ 56)) .addressRange (BitVec.ofNat 64 va)
          let (_, e, _) ← s.translate s.u.world va .read
          chkAt (e.target != 1) .hostWindow (BitVec.ofNat 64 va)
          chkAt (e.target != 2) .peerWindow (BitVec.ofNat 64 va)
      s.gathPages c t n (m + 1)

/-- Element `done` of a gather. -/
def State.gathElem (s : State) (c : XCmd) : M (State × Elem) := do
  let t ← slotX c.t1 true
  if c.done = 0 then s.gathPages c t c.e1.toNat 0 else .ok ⟨⟩
  let ix ← s.gathIndex c t c.done
  let k ← s.handleKey c.h
  let (u, bs) ← s.readRun k (c.gathAddr ix) (s.payload / 64)
  let ds := bs.map Prod.snd
  let d := ds.headD Desc.zero
  chk (ds.all fun e => fmtOk e.fmt.toNat) .reservedFormat
  chk (ds.all fun e => e.fmt == d.fmt) .mixedFormat
  pure (u, ⟨d.fmt, (ds.map Desc.scale ++ unitScales).take 4, padData (bs.flatMap Prod.fst)⟩)

/-- The oldest gather that has begun and whose queue has room. -/
def State.nextGath (s : State) : Nat → List XCmd → Option (Nat × XCmd × QReg)
  | _, [] => none
  | i, c :: cs =>
    if !c.begun then none
    else match c.instr with
      | .xgath q .. => if (s.queueOf q.toNat).length < 16 then some (i, c, q) else s.nextGath (i + 1) cs
      | _ => s.nextGath (i + 1) cs

/-- XGATH_ELEMENT_PUSH: the next element of a gather enters its queue; the last one completes it, so that segment C must have shifted in
(02 R74). -/
def execXgathElementPush (core : Nat) (s : State) : Outcome State Fault Refusal :=
  let t := s.focus core
  event s (
    if t.segRuns 3 && t.segRuns 1 && t.flagsIn then
     t.asUnit fun w =>
      let w := w.beginX t.trapOpen
      match w.nextGath 0 w.core.x.xq with
      | none => .ok w
      | some (i, c, q) => match w.gathElem c with
        | .error x => w.failX i x c.lane
        | .ok (u, e) =>
          let u := u.pushQ q.toNat e
          if c.done + 1 < c.e1.toNat then .ok (u.modX fun x => { x with xq := x.xq.set i { c with done := c.done + 1 } })
          else .ok ((u.setQbind q.toNat none).finishX i c)
    else .ok t)

end Sys2Proof.Machine
end

