-- ==== Sys2Proof/Machine/Csr.lean ====
section
/-! DEFINITION. Control and status registers (02 R75-R81; 01 R25, R29; 08 R292, R293; 14 R421; 17 R457): their access rights,
values and writes, CSRR, CSRW and the privileged write of WINST. -/

namespace Sys2Proof.Machine

open Sys2Proof Host

/-- Whether a number is assigned, and whether the unprivileged view may read it (02 R75). -/
def csrRead (n : Nat) : Option Bool :=
  if [0x001, 0x002, 0x003, 0x010, 0x011, 0x012, 0x013, 0x014, 0x015, 0x020, 0x021, 0x022, 0x107].contains n then some true
  else if [0x100, 0x101, 0x102, 0x103, 0x104, 0x105, 0x106].contains n then some false
  else none

/-- Whether a view may write some field of a register (02 R75, 00 R8). -/
def csrWritable (priv : Bool) (n : Nat) : Bool :=
  [0x001, 0x002, 0x003, 0x011].contains n ||
  (priv && [0x012, 0x014, 0x015, 0x020, 0x021, 0x022, 0x100, 0x106, 0x107].contains n)

/-- The bits that are not reserved (00 R9; the registers' maps). -/
def csrLegal (n : Nat) : Word :=
  match n with
  | 0x001 => 0xF | 0x002 => 0x1F | 0x003 => 0x1F | 0x011 => 0x7F | 0x012 => 0x1FFFFFFFFFF | 0x014 => 0x1FFFFF
  | 0x015 => 0xFFFFFFFFFFFFFFFF | 0x020 => 1 | 0x021 => 0x1FF | 0x022 => 0x1FFFFFF | 0x100 => 0x3FFFFF
  | 0x106 => 0x00FFFFFFFFFFFFE0 | 0x107 => 0xFFFFFFFFFFFFFFFF | _ => 0

/-- WINST (02 R78). -/
def UnitCtx.winst (u : UnitCtx) (v : Shared) : Word :=
  BitVec.ofNat 64 (v.wb.toNat + v.frame * 2 ^ 8 + u.wspill * 2 ^ 13 + u.rdepth * 2 ^ 25 + u.rspill * 2 ^ 30)

/-- PARKST at the control engine's lane: a later lane that has changed it left the value from before (02 R79, 01 R32). -/
def State.parkstAt (s : State) : Word :=
  (s.u.log.findSome? fun e => match e.2 with
    | .park before => if s.u.eC.pos < e.1 then some before else none
    | _ => none).getD (s.parkst .c)

/-- The value of a register at the control engine's lane. -/
def State.csr (s : State) (n : Nat) : Word :=
  let c := s.core.c.csr
  let tr := s.core.sys.tr
  match n with
  | 0x001 => (s.view .c).status | 0x002 => c.fv | 0x003 => c.fm
  | 0x010 => s.capcls
  | 0x011 => BitVec.ofNat 64 (s.view .c).slip
  | 0x012 => s.u.winst (s.view .c)
  | 0x013 => s.parkstAt
  | 0x014 => BitVec.ofNat 64 (s.view .c).vsp
  | 0x015 => (s.view .c).ovwran
  | 0x020 => if c.diagen then 1 else 0
  | 0x021 => BitVec.ofNat 64 c.leaseLen
  | 0x022 => BitVec.ofNat 64 c.leaseCyc
  | 0x100 => tr.trep | 0x101 => tr.tlane | 0x102 => tr.taddr
  | 0x103 => tr.titer0 | 0x104 => tr.titer1 | 0x105 => tr.titer2
  | 0x106 => tr.tvec | 0x107 => tr.errcnt
  | _ => 0

/-- Whether a register takes a value whose reserved bits are zero (01 R29; 02 R78; 08 R292, R293). -/
def csrValueOk (n : Nat) (v : Word) : Bool :=
  let x := v.toNat
  match n with
  | 0x011 => decide (1 ≤ x ∧ x ≤ 64)
  | 0x012 => [4, 8, 12, 16, 20, 24].contains (x / 2 ^ 8 % 2 ^ 5) && decide (x / 2 ^ 25 % 2 ^ 5 ≤ 16) &&
      decide (x / 2 ^ 13 % 2 ^ 12 ≤ 2048) && decide (x / 2 ^ 30 % 2 ^ 11 ≤ 1024)
  | 0x021 => decide (1 ≤ x ∧ x ≤ 256)
  | 0x022 => decide (1024 ≤ x ∧ x ≤ 16777216)
  | _ => true

/-- The effect of a privileged write of WINST: the base, the frame size and the depths, no contents moved (02 R78). -/
def State.setWinst (s : State) (v : Word) : State :=
  let x := v.toNat
  let t := s.write .c (.win (BitVec.ofNat 8 x) (x / 2 ^ 8 % 2 ^ 5))
  t.setU { t.u with wspill := x / 2 ^ 13 % 2 ^ 12, rdepth := x / 2 ^ 25 % 2 ^ 5, rspill := x / 2 ^ 30 % 2 ^ 11 }

/-- A write that the checks let pass (00 R8). -/
def State.setCsr (s : State) (n : Nat) (v : Word) : State :=
  let csr (f : Csr → Csr) : State := s.modC fun c => { c with csr := f c.csr }
  let tr (f : TrapRegs → TrapRegs) : State := s.modSys fun y => { y with tr := f y.tr }
  match n with
  | 0x001 => s.write .c (.status v)
  | 0x002 => csr fun c => { c with fv := v }
  | 0x003 => csr fun c => { c with fm := v }
  | 0x011 => s.write .c (.slip v.toNat)
  | 0x012 => s.setWinst v
  | 0x014 => s.write .c (.vsp v.toNat)
  | 0x015 => s.write .c (.ovwran v)
  | 0x020 => csr fun c => { c with diagen := v.getLsbD 0 }
  | 0x021 => csr fun c => { c with leaseLen := v.toNat }
  | 0x022 => csr fun c => { c with leaseCyc := v.toNat }
  | 0x100 => tr fun r => { r with trep := (r.trep &&& ~~~0x200000#64) ||| (v &&& 0x200000#64) }
  | 0x106 => tr fun r => { r with tvec := v }
  | 0x107 => tr fun r => { r with errcnt := v }
  | _ => s

/-- CSRR rd, csr (06 R230; 00 R8; 02 R75). -/
def execCsrr (rd : CReg) (csr : BitVec 12) (s : State) : Outcome State Fault Refusal :=
  lane .c s do
    s.useC [] [rd]
    match csrRead csr.toNat with
    | none => trap .unassignedRegister
    | some any => do
      chk (any || s.privileged) .csrAccess
      pure (s.setRd rd (s.csr csr.toNat))

/-- CSRW csr, s1 (06 R230; 00 R8, R9; 02 R75). -/
def execCsrw (csr : BitVec 12) (s1 : CSrc) (s : State) : Outcome State Fault Refusal :=
  lane .c s do
    s.useC [s1] []
    let v := s.valC s1
    chk (csrRead csr.toNat).isSome .unassignedRegister
    chk (csrWritable s.privileged csr.toNat) .csrAccess
    chk (v &&& ~~~csrLegal csr.toNat == 0) .csrReserved
    chk (csrValueOk csr.toNat v) .csrValue
    pure (s.setCsr csr.toNat v)

/-- WINST_WRITE: the step of a privileged CSRW that changes the window and return-address state (02 R78). A value it would
trap on changes nothing here. -/
def execWinstWrite (core : Nat) (val : Word) (s : State) : Outcome State Fault Refusal :=
  let t := s.focus core
  event s do
    if t.privileged && (val &&& ~~~csrLegal 0x012 == 0) && csrValueOk 0x012 val then pure (t.setWinst val) else pure t

end Sys2Proof.Machine
end

