-- ==== Sys2Proof/Machine/Sync.lean ====
section
/-! DEFINITION. Releases and fences (06 R205, R207, R208; 10 R367-R371). -/

namespace Sys2Proof.Machine

open Sys2Proof Host

/-- The exchange area that an XCOLL writes when it spans several devices: the one it has taken, or, before it begins, the one that
its descriptor names (16 R450). -/
def State.collArea (s : State) (c : XCmd) : List (Nat × Nat) :=
  if c.begun then (if 1 < c.slot then [c.exch] else [])
  else match s.readOwn c.e1.toNat 64 with
    | .ok (_, bs) => if 1 < fieldOf bs 4 2 then [(fieldOf bs 32 8, fieldOf bs 40 4)] else []
    | .error _ => []

/-- The ranges of virtual addresses that a copy command stores to. -/
def State.storesOf (s : State) (c : XCmd) : List (Nat × Nat) :=
  match c.instr, c.t1 with
  | .xcoll .., _ => s.collArea c
  | .xcopySt .., some t =>
    let b := boxOf (fmtCap t.fmt.toNat) c.e1 c.e2 c.e3 c.e4
    (b.places.filter fun x => b.inside c.h x.1 x.2).map fun x => (b.addr c.h x.1 x.2, 64)
  | .xhost _ true .., some t => [(c.e1.toNat, streamSpan t.bytes), (c.e2.toNat, streamSpan (t.bytes / 32))]
  | .xpeer _ true .., some t => [(c.e1.toNat, t.bytes)]
  | _, _ => []

/-- A copy command stores to a region bound to an object. -/
def State.storesBound (s : State) (obj : Nat) (c : XCmd) : Bool :=
  (s.storesOf c).any fun r => s.core.c.seq.binds.any fun b => b.obj == obj && overlap r.1 r.2 b.base b.len

/-- A queued copy command still has to store to a region bound to an object (06 R205). -/
def State.storesTo (s : State) (obj : Nat) : Bool := s.core.x.xq.any (s.storesBound obj)

/-- The command that a copy lane with global stores is to become, as the registers stand at its place. -/
def State.laneCmd (s : State) (p : Nat) (i : Instr) : Option XCmd :=
  let t := s.setU (s.u.setEng .x { s.u.eX with serial := p / 8, lane := p % 8 })
  match i with
  | .xcopySt x h _ _ e1 e2 e3 e4 => some (t.copyCmd i (some x) none none (some h) [e1, e2, e3, e4])
  | .xhost x true _ _ e1 e2 e3 => some (t.copyCmd i (some x) none none none [e1, e2, e3])
  | .xpeer x true _ _ e1 => some (t.copyCmd i (some x) none none none [e1])
  | .xcoll x _ _ _ _ e1 e2 => some (t.copyCmd i (some x) none none none [e1, e2])
  | _ => none

/-- A lane of another engine still has to write what a lane at place `p` reads. -/
def State.readsUnknown (s : State) (p : Nat) (i : Instr) : Bool :=
  let need := laneReads (s.u.view p) i 0
  [Engine.a, .v, .m].any fun o => (s.pending o p).any fun y => match y.2 with
    | some j => (laneWrites (s.u.view y.1) j).any need.contains
    | none => true

/-- An earlier lane of the copy engine, still to be executed, stores to a region bound to an object, or may: what it reads is still to be
written (06 R205). -/
def State.laneStoresTo (s : State) (obj : Nat) : Bool :=
  (s.pending .x s.u.eC.pos).any fun x => match x.2 with
    | none => true
    | some i => match s.laneCmd x.1 i with
      | some c => s.readsUnknown x.1 i || s.storesBound obj c
      | none => false

/-- The sequence word after its addition, in place at its home: old value and state (06 R205, 10 R354). -/
def State.bumpWord (s : State) (a : Word) (n : Word) : M (State × Word) := do
  scalarAddr a 64
  let (t, e, pa) ← s.translate s.u.world a.toNat .write
  t.mayStore e a
  let t := t.guardRegion
  let add (old : Nat) : Bytes := natLe 8 ((old + n.toNat) % 2 ^ 64)
  if e.target = 1 then
    let old := leNat (Memory.reads t.dev.m.host pa 8)
    pure (t.modMem fun m => { m with host := Memory.writes m.host pa (add old) }, BitVec.ofNat 64 old)
  else if e.target = 2 then
    let old := leNat (Memory.reads t.dev.m.peer pa 8)
    pure (t.modMem fun m => { m with peer := Memory.writes m.peer pa (add old) }, BitVec.ofNat 64 old)
  else do
    let k := t.memKey t.u.world
    let bs ← t.readDev k a pa 8
    let t ← t.storeInPlace k a pa (add (leNat bs))
    pure (t, BitVec.ofNat 64 (leNat bs))

/-- REL.scope rd, s1, s2: once the unit's stores to the bound regions have been performed, the addition (06 R205; log 130). -/
def execRel (rd : CReg) (s1 s2 : CSrc) (_scope : Scope) (s : State) : Outcome State Fault Refusal :=
  lane .c s do
    s.useC [s1, s2] [rd]
    let (t, old) ← s.bumpWord (s.valC s1) (s.valC s2)
    holdUntil (!s.storesTo (s.valC s1).toNat && !s.laneStoresTo (s.valC s1).toNat)
    pure (t.setRd rd old)

/-- Commands that access global memory are queued (06 R207). -/
def State.globalQueued (s : State) : Bool :=
  (s.core.x.xq.any fun c => laneIsGlobal c.instr) || s.core.c.mat.mq.any fun c => laneIsGlobal c.instr

/-- FENCE.scope: every earlier global access has been performed (06 R207). -/
def execFence (_scope : Scope) (s : State) : Outcome State Fault Refusal :=
  lane .c s do
    holdUntil (!s.globalQueued)
    pure s

end Sys2Proof.Machine
end

