-- ==== Sys2Proof/Machine/Scan.lean ====
section
/-! DEFINITION. Scan (06 R232-R235; 17 R467-R474; 18 R479-R482): stopping and restarting clocks, the ember image, its capture
and restore, ownership. -/

namespace Sys2Proof.Machine

open Sys2Proof Host

/-! ### Segment masks (06 R232) -/

/-- The core segments of a mask: C, A, V, X, W. -/
def maskCore (m : Nat) : Nat := m % 32
/-- Its quadrants. -/
def maskQuads (m : Nat) : Nat := m / 256 % 16
/-- Lantern control. -/
def maskLc (m : Nat) : Bool := m / 4096 % 2 == 1
/-- The bits of a mask, ascending. -/
def maskBits (m : Nat) : List Nat := (List.range 13).filter fun b => m / 2 ^ b % 2 == 1

/-- The core that Src(s2) names (06 R233). -/
def scanCore (v : Word) : M Nat := do
  chk (decide (v.toNat < 512)) .reservedField
  pure v.toNat

/-- The mask and core checks (06 R232, R234). -/
def State.scanMask (s : State) (mask : Word) (t : Nat) (own : Bool) : M PUnit := do
  let m := mask.toNat
  chk (m != 0 && (maskBits m).all (fun b => b < 5 || 8 ≤ b) && decide (m < 2 ^ 13)) .scanMask
  chk (maskCore m == 0 || (s.coreAt t).sys.enabled) .scanMask
  chk ((leaseQuads (maskQuads m)).all fun q => hasQuad (s.lanternAt (t / 4)).live q) .scanMask
  chk (!(own && t == s.cur && maskCore m != 0)) .scanMask

/-- World 15 only (06 R188). -/
def State.onlyPrivileged (s : State) : M PUnit := chk s.privileged .privilegedInstruction

/-! ### Clocks (06 R234; 17 R467-R471; 18 R479) -/

/-- Stop the core segments and lantern control of a mask. -/
def State.stopSegs (s : State) (t mask : Nat) : State :=
  let c := s.coreAt t
  let s := s.setCoreAt t { c with sys := { c.sys with stopped := c.sys.stopped ||| maskCore mask } }
  let l := s.lanternAt (t / 4)
  if maskLc mask then s.setLanternAt (t / 4) { l with lcStopped := true } else s

/-- Change the quadrants of a mask. -/
def State.onQuads (s : State) (ltn mask : Nat) (f : Quad → Quad) : State :=
  s.setLanternAt ltn ((leaseQuads (maskQuads mask)).foldl (fun (l : Lantern) q => l.setQuad q (f (l.quad q))) (s.lanternAt ltn))

/-- Stop a quadrant at once. -/
def Quad.stop (d : Quad) : Quad := { d with stopped := true, armed := none }

/-- A product command is in progress on a quadrant: from the moment its lane has executed, behind other commands too (18 R479). -/
def State.quadBusy (s : State) (ltn q : Nat) : Bool :=
  let d := (s.lanternAt ltn).quad q
  match d.holder with
  | none => false
  | some c =>
    let m := (s.coreAt (4 * ltn + c)).c.mat
    d.rcd.active || (hasQuad m.lease q && m.mq.any fun x => (prodKind x.instr).isSome)

/-- SCSTOP.beat arrives at a quadrant with count `n`, which counts while a product is in progress there (06 R234, 18 R479). -/
def Quad.arm (n : Nat) (busy : Bool) (d : Quad) : Quad :=
  let open' := busy && (!d.rcd.active || decide (d.rcd.done ≤ n))
  if d.stopped then { d with armed := if open' then some n else none }
  else if open' then { d with armed := some n }
  else d.stop

/-- All quadrants of a mask are stopped. -/
def Lantern.allStopped (l : Lantern) (mask : Nat) : Bool := (leaseQuads (maskQuads mask)).all fun q => (l.quad q).stopped

/-- No quadrant of a mask is armed while its clock runs. -/
def Lantern.noneArmed (l : Lantern) (mask : Nat) : Bool :=
  (leaseQuads (maskQuads mask)).all fun q => (l.quad q).stopped || (l.quad q).armed.isNone

/-- One waiting scan lane: its clocks stop once its count has elapsed. -/
def State.elapseOp (ltn : Nat) (s : State) (o : ScanOp) : State × ScanOp :=
  if o.fired then (s, o)
  else if o.kind = 0 then
    if o.due ≤ s.cycOf o.target then ((s.onQuads ltn o.mask Quad.stop).stopSegs o.target o.mask, { o with fired := true }) else (s, o)
  else if o.kind = 1 then
    if (s.lanternAt ltn).allStopped o.mask then (s.stopSegs o.target o.mask, { o with fired := true }) else (s, o)
  else if (s.lanternAt ltn).noneArmed o.mask then (s, { o with fired := true })
  else (s, o)

/-- Every waiting scan lane of a lantern. -/
def State.elapseScan (s : State) (ltn : Nat) : State :=
  let (t, ops) := (s.lanternAt ltn).stops.foldl (fun p o =>
    let (t, o) := p.1.elapseOp ltn o
    (t, p.2 ++ [o])) (s, [])
  t.setLanternAt ltn { t.lanternAt ltn with stops := ops }

/-- SCSTOP_COUNT_ELAPSED. -/
def execScstopCountElapsed (ltn : Nat) (s : State) : Outcome State Fault Refusal := event s (.ok (s.elapseScan ltn))

/-- The waiting scan lane of the core in focus on a lantern. -/
def State.scanOp (s : State) (ltn : Nat) : Option ScanOp := (s.lanternAt ltn).stops.find? fun o => o.issuer == s.cur

/-- It passes. -/
def State.dropScanOp (s : State) (ltn : Nat) : State :=
  let l := s.lanternAt ltn
  s.setLanternAt ltn { l with stops := l.stops.filter fun o => o.issuer != s.cur }

/-- It waits. -/
def State.addScanOp (s : State) (kind due t mask : Nat) : State :=
  let l := s.lanternAt (t / 4)
  s.setLanternAt (t / 4) { l with stops := l.stops ++ [⟨s.cur, kind, due, t, mask, false⟩] }

/-- A scan lane that may wait: `begin'` makes its checks and begins it, the flag says that it passes at once. -/
def State.scanLane (s : State) (srcs : List CSrc) (v : Word) (begin' : State → Nat → M (State × Bool)) :
    Outcome State Fault Refusal :=
  let ltn := v.toNat % 512 / 4
  match s.scanOp ltn with
  | some _ =>
    let t := s.elapseScan ltn
    match t.scanOp ltn with
    | some o => if o.fired then .next ((t.dropScanOp ltn).advance .c) else .next t
    | none => .next t
  | none =>
    match (do
      s.onlyPrivileged
      s.useC srcs []
      scanCore v : M Nat) >>= begin' s with
    | .ok (t, true) => .next (t.advance .c)
    | .ok (t, false) => .next t
    | .error x => lane .c s (.error x)

/-- SCSTOP.cyc s1, s2, s3 (06 R234). -/
def execScstopCyc (s1 s2 s3 : CSrc) (s : State) : Outcome State Fault Refusal :=
  s.scanLane [s1, s2, s3] (s.valC s2) fun s t => do
    s.scanMask (s.valC s1) t true
    let m := (s.valC s1).toNat
    let n := (s.valC s3).toNat
    if n = 0 then pure ((s.onQuads (t / 4) m Quad.stop).stopSegs t m, true)
    else pure (s.addScanOp 0 (s.cycOf t + n) t m, false)

/-- SCSTOP.beat s1, s2, s3 (06 R234, 18 R479). -/
def execScstopBeat (s1 s2 s3 : CSrc) (s : State) : Outcome State Fault Refusal :=
  s.scanLane [s1, s2, s3] (s.valC s2) fun s t => do
    s.scanMask (s.valC s1) t true
    let m := (s.valC s1).toNat
    let l := s.lanternAt (t / 4)
    let u := s.setLanternAt (t / 4) ((leaseQuads (maskQuads m)).foldl (fun (l : Lantern) q =>
      l.setQuad q ((l.quad q).arm (s.valC s3).toNat (s.quadBusy (t / 4) q))) l)
    if (u.lanternAt (t / 4)).allStopped m then pure (u.stopSegs t m, true)
    else pure (u.addScanOp 1 0 t m, false)

/-! ### Restart (06 R235; 17 R468, R472) -/

/-- The lane of the product in progress of the core in focus. -/
def State.productLane (s : State) : LaneAt :=
  match s.core.c.mat.cur with | some c => c.lane | none => ⟨0, [0, 0, 0, 0, 0, 0], false, 0⟩

/-- An active command restarts: the checks of 08 R287 and R297 on its tiles again (17 R468). -/
def State.recheck (s : State) (n : Nat) (r : Rcd) : State :=
  match r.prod? with
  | none => s
  | some p =>
    let t := s.focus n
    match t.dataChecks p with
    | .error (.trap c a _) =>
      let u := (t.setRcd fun x => { x with active := false }).trapM c a t.productLane
      (u.modMat fun m => { m with cur := none }).focus s.cur
    | _ => s

/-- Commands of a queue up to its first product, which is in progress on the lease's quadrants (18 R479). -/
def MatIss.upToProduct (m : MatIss) : Nat := match m.mq.findIdx? fun c => (prodKind c.instr).isSome with | some i => i + 1 | none => 0

/-- The clock of a quadrant starts: the product in progress there goes on, or the queued commands up to it are owed to the stop (18 R482);
a lease that outlived its unit for the stop ends with the last of its stops (log 136). -/
def State.startQuad (s : State) (ltn q : Nat) : State :=
  let l := s.lanternAt ltn
  let d := l.quad q
  if d.stopped then
    let t := s.setLanternAt ltn (l.setQuad q { d with stopped := false })
    match d.holder with
    | some c =>
      let lease := (s.coreAt (4 * ltn + c)).c.mat.lease
      if !hasQuad lease q then (t.setLanternAt ltn ((t.lanternAt ltn).endLease c ((t.lanternAt ltn).heldBy c lease false))).arbiterPass ltn
      else if d.rcd.active then t.recheck (4 * ltn + c) d.rcd
      else ((t.focus (4 * ltn + c)).modMat fun m => { m with owed := m.upToProduct }).focus s.cur
    | none => t
  else s

/-- The clocks of a mask start. -/
def State.startSegs (s : State) (t mask : Nat) : State :=
  let ltn := t / 4
  let s := (leaseQuads (maskQuads mask)).foldl (fun s q => s.startQuad ltn q) s
  let c := s.coreAt t
  let keep := (List.range 5).foldl (fun n b => if c.sys.stopped / 2 ^ b % 2 = 1 ∧ mask / 2 ^ b % 2 = 0 then n + 2 ^ b else n) 0
  let s := s.setCoreAt t { c with sys := { c.sys with stopped := keep } }
  if maskLc mask then (s.setLanternAt ltn { s.lanternAt ltn with lcStopped := false }).arbiterPass ltn else s

/-- SCGO s1, s2 (06 R235, 17 R472, 18 R479). -/
def execScgo (s1 s2 : CSrc) (s : State) : Outcome State Fault Refusal :=
  s.scanLane [s1, s2] (s.valC s2) fun s t => do
    s.scanMask (s.valC s1) t true
    let m := (s.valC s1).toNat
    let l := s.lanternAt (t / 4)
    chk ((leaseQuads (maskQuads m)).all fun q => !((l.quad q).rcd.active && (l.quad q).holder.isNone)) .scanMask
    let u := s.startSegs t m
    if (u.lanternAt (t / 4)).noneArmed m then pure (u, true) else pure (u.addScanOp 2 0 t m, false)

/-! ### Owners (17 R471) -/

/-- The owner world of a segment. -/
def State.segOwner (s : State) (t bit : Nat) : Nat :=
  if bit < 5 then Sparse.get 15 (s.coreAt t).sys.owner bit
  else if bit = 12 then (s.lanternAt (t / 4)).lcOwner
  else ((s.lanternAt (t / 4)).quad (bit - 8)).owner

/-- Set the owner of the named segments. -/
def State.setOwner (s : State) (t mask w : Nat) : State :=
  let c := s.coreAt t
  let own := (List.range 5).foldl (fun o b => if mask / 2 ^ b % 2 = 1 then Sparse.set 15 o b w else o) c.sys.owner
  let s := s.setCoreAt t { c with sys := { c.sys with owner := own } }
  let s := s.onQuads (t / 4) mask fun d => { d with owner := w }
  if maskLc mask then s.setLanternAt (t / 4) { s.lanternAt (t / 4) with lcOwner := w } else s

/-- SCOWN s1, s2, s3 (06 R233, 17 R471). -/
def execScown (s1 s2 s3 : CSrc) (s : State) : Outcome State Fault Refusal :=
  lane .c s do
    s.onlyPrivileged
    s.useC [s1, s2, s3] []
    let t ← scanCore (s.valC s2)
    chk (decide ((s.valC s3).toNat ≤ 15)) .immediateRange
    s.scanMask (s.valC s1) t false
    pure (s.setOwner t (s.valC s1).toNat (s.valC s3).toNat)

/-! ### The ember image (17 R467, R473) -/

/-- The bytes of a segment's area, padded to 64. -/
def segBytes (full : Bool) (bit : Nat) : Nat :=
  match bit with
  | 0 => 8192
  | 1 => if full then 34816 else 18432
  | 2 => if full then 18432 else 10240
  | 3 => 1024
  | 4 => 66048
  | 12 => 64
  | _ => 428160

/-- IMGLEN. -/
def imageLen (full : Bool) (mask liveLen : Nat) : Nat :=
  256 + ((maskBits mask).map (segBytes full)).sum + (if mask % 2 = 1 then 65536 else 0) + liveLen + 16

/-- The header (17 R473). -/
def imageHeader (full : Bool) (qlive mask world flags savecnt len base liveLen iv line : Nat) : Bytes :=
  natLe 4 0x454D4231 ++ natLe 2 0x0104 ++ natLe 1 (if full then 64 else 32) ++ natLe 1 qlive ++ natLe 2 mask ++ natLe 1 world ++
  natLe 1 flags ++ natLe 4 0 ++ natLe 8 savecnt ++ natLe 8 len ++ natLe 4 base ++ natLe 4 liveLen ++ natLe 12 iv ++ natLe 4 0 ++
  natLe 8 line ++ List.replicate 192 0

/-- A tile binding's 64 bits (17 R468). -/
def Tile.bits (t : Tile) : Nat :=
  t.base % 2 ^ 21 + t.rows % 512 * 2 ^ 21 + t.cols % 512 * 2 ^ 30 + t.fmt.toNat % 128 * 2 ^ 39 + (if t.plane then 2 ^ 46 else 0) +
    t.planes % 128 * 2 ^ 47

/-- Those of a slot, zero when it is unbound. -/
def slotBits (t : Option Tile) : Nat := match t with | some x => x.bits | none => 0

/-- The command record's 1,024 bits (17 R468). -/
def Rcd.bits (r : Rcd) : Nat :=
  r.beat + (if r.active then 2 ^ 17 else 0) + r.core * 2 ^ 18 + r.word * 2 ^ 20 + (r.gm + r.gn * 2 ^ 16 + r.gk * 2 ^ 32 + r.g * 2 ^ 48) * 2 ^ 52 +
    slotBits r.a * 2 ^ 116 + slotBits r.b * 2 ^ 180 + (r.rm + r.rn * 2 ^ 16 + r.rk * 2 ^ 32) * 2 ^ 244 + r.afmt.toNat * 2 ^ 292

/-- A cell's 208 bits (08 R283). -/
def CellBits.bits (c : CellBits) (acc : Word) : Nat :=
  acc.toNat + c.preg.toNat * 2 ^ 64 + c.a.toNat * 2 ^ 128 + c.bg % 16 * 2 ^ 192 + c.gidx % 64 * 2 ^ 196 + (if c.va then 2 ^ 202 else 0) +
    (if c.vb then 2 ^ 203 else 0) + (if c.last then 2 ^ 204 else 0)

/-- A quadrant segment, bit p at byte p / 8 (17 R468): cells, check words, record. -/
def Quad.segment (d : Quad) : Bytes :=
  ((List.range 16384).flatMap fun k => natLe 26 ((Sparse.get CellBits.zero d.cells k).bits (Sparse.get 0 d.acc k))) ++
  ((List.range 128).flatMap fun r => natLe 8 (Sparse.get 0 d.sw r).toNat ++ natLe 8 (Sparse.get 0 d.ww r).toNat) ++
  natLe 128 d.rcd.bits

/-- A row of a quadrant that another unit than that of context `u` on a core has parked in (19 R491). -/
def Quad.foreignRow (d : Quad) (core : Nat) (u : UnitCtx) (r : Nat) : Bool :=
  (List.range 4).any fun i => match Sparse.get none d.parked (4 * r + i) with
    | some p => !p.isOf core u
    | none => false

/-- A quadrant as an image holds it: rows that another unit parked in are zero, and no mark of theirs goes with it. -/
def Quad.scanned (d : Quad) (core : Nat) (u : UnitCtx) (bad : List Nat) : Quad :=
  { d with acc := d.acc.filter fun c => !d.foreignRow core u (c.1 / 128), sw := d.sw.filter fun c => !d.foreignRow core u c.1,
           ww := d.ww.filter fun c => !d.foreignRow core u c.1, cells := d.cells.filter fun c => !d.foreignRow core u (c.1 / 128),
           bad := (d.bad.filter (fun r => !d.foreignRow core u r) ++ bad).eraseDups,
           parked := d.parked.filter fun x => match x.2 with | some p => p.isOf core u | none => false }

/-- A quadrant after an image of it is restored: rows that another unit parked in stay as they are; holder, owner and clock are
not part of the segment. -/
def Quad.restored (d i : Quad) (core : Nat) (u : UnitCtx) : Quad :=
  let keep (r : Nat) : Bool := d.foreignRow core u r
  { d with
    acc := (i.acc.filter fun c => !keep (c.1 / 128)).foldl (fun m c => Sparse.set 0 m c.1 c.2) (d.acc.filter fun c => keep (c.1 / 128))
    sw := (i.sw.filter fun c => !keep c.1).foldl (fun m c => Sparse.set 0 m c.1 c.2) (d.sw.filter fun c => keep c.1)
    ww := (i.ww.filter fun c => !keep c.1).foldl (fun m c => Sparse.set 0 m c.1 c.2) (d.ww.filter fun c => keep c.1)
    -- the partial products of floating cells are not loaded back (08 R284)
    cells := (i.cells.filter fun c => !keep (c.1 / 128)).foldl (fun m c => Sparse.set CellBits.zero m c.1
      (if fmtI i.rcd.afmt.toNat then c.2 else { c.2 with preg := (Sparse.get CellBits.zero d.cells c.1).preg }))
      (d.cells.filter fun c => keep (c.1 / 128))
    rcd := i.rcd
    bad := i.bad.filter (fun r => !keep r) ++ d.bad.filter keep }

/-- Check the rows of the named quadrants that a scan-out of core `n` writes, before it (08 R307, R308; 19 R491): the state with
corrections, and the poisoned rows of each quadrant. Corrections freeze the holder, or the core that scans a quadrant nobody holds. -/
def State.scanRows (s : State) (n mask : Nat) : State × List (Nat × List Nat) :=
  let ltn := n / 4
  (leaseQuads (maskQuads mask)).foldl (fun p q =>
    let d := (p.1.lanternAt ltn).quad q
    let core := match d.holder with | some c => 4 * ltn + c | none => s.cur
    let rows := (List.range 128).filter fun r => !d.foreignRow (n % 4) (s.coreAt n).unit r
    let (t, bad) := p.1.checkRows ltn q core rows
    (t, p.2 ++ [(q, bad)])) (s, [])

/-- Bytes of a core's scratchpad that an image carries. -/
def Core.part (c : Core) (mask base len : Nat) : List Cell :=
  c.spad.filter fun x => decide (mask % 2 = 1 ∧ 0x1F0000 ≤ x.1) || decide (base ≤ x.1 ∧ x.1 < base + len)

/-- The save counter that an image of a world must reach (17 R474): its floor, and no image of an earlier world of its number (19 R485,
log 122). -/
def State.saveFloor (s : State) (w : Nat) : Nat := max (Sparse.get 0 s.dev.sec.floor w) (Sparse.get 0 s.dev.sec.bar w)

/-- Capture an image of the named segments: SAVECNT of their world and the IV counter advance (17 R473). The lease clock is
kept as the cycles it has counted. -/
def State.capture (s : State) (t mask base len : Nat) : State × Image :=
  let ltn := t / 4
  let w := s.segOwner t ((maskBits mask).headD 0)
  let (s, bad) := s.scanRows t mask
  let c := s.coreAt t
  let l := s.lanternAt ltn
  let n := Sparse.get 0 s.dev.sec.saveCnt w + 1
  let iv := s.dev.sec.iv
  let line := match c.c.seq.region with | some x => if mask % 2 = 1 then x else 2 ^ 64 - 1 | none => 2 ^ 64 - 1
  let qs := bad.foldl (fun m b => Sparse.set Quad.reset m b.1 ((l.quad b.1).scanned (t % 4) c.unit b.2)) []
  let flags := (if mask % 2 = 1 ∧ c.c.seq.region.isSome then 1 else 0) +
    (if qs.any fun b => !b.2.bad.isEmpty then 2 else 0)
  let total := imageLen c.sys.full mask len
  let seg := { c.c with mat := { c.c.mat with start := s.cycOf t - c.c.mat.start } }
  let img : Image := ⟨iv, imageHeader c.sys.full l.live mask w flags n total base len iv line, total, mask, w, n,
    if c.sys.full then 64 else 32, t, seg, c.a, c.v, c.x, c.w, qs, c.part mask base len,
    c.tag.filter fun x => decide (base / 64 ≤ x.1 ∧ x.1 < (base + len) / 64), base, len,
    if maskLc mask then some (l.ptr, l.waiting, l.rotWant) else none, s.memKey w, []⟩
  (s.modDev fun d => { d with sec := { d.sec with saveCnt := Sparse.set 0 d.sec.saveCnt w n, iv := iv + 1 } }, img)

/-- Parts 2 to 4 of an image in plaintext (17 R473): the named segments, the reserved scratchpad when C is named, the live range. The
layout of the segments other than quadrants is free (R467). -/
def Image.plain (i : Image) : Bytes :=
  ((maskBits i.segmap).flatMap fun b =>
    if 8 ≤ b ∧ b < 12 then fit 428160 (Sparse.get Quad.reset i.quads (b - 8)).segment
    else (List.range (segBytes (i.vlanes == 64) b)).map fun k => Config.segByte i.id b k) ++
  (if i.segmap % 2 = 1 then Memory.reads i.spad 0x1F0000 65536 else []) ++ Memory.reads i.spad i.live i.liveLen

/-- The bytes of an image: the header, then the rest sealed under its key (17 R473, 18 R480). -/
def Image.bytes (i : Image) : Bytes := i.header ++ fit (i.len - 256) (gcmSeal i.key i.id i.header i.plain)

/-- The unit of an image stands on another core now (17 R477); the segments of the core it came from stay as they are (17 R469, log 120). -/
def State.moveUnit (s : State) (i : Image) (t : Nat) : State :=
  match i.c.u.lid.bind s.launch? with
  | none => s
  | some l =>
    s.setLaunch { l with placed := l.placed.map fun p =>
      if p.idx = i.c.u.idx ∧ p.run = i.c.u.run ∧ p.ended = false then { p with core := t } else p }

/-- Scratchpad bytes of an image over those of a core. -/
def putPart (spad : List Cell) (mask base len : Nat) (cells : List Cell) : List Cell :=
  let kept := spad.filter fun x => !(decide (mask % 2 = 1 ∧ 0x1F0000 ≤ x.1) || decide (base ≤ x.1 ∧ x.1 < base + len))
  cells.foldl (fun m x => Memory.write m x.1 x.2) kept

/-- Registers of the text order that stand in segment A: the bindings of slots and buffers. -/
def SharedWrite.inA : SharedWrite → Bool
  | .ts .. => true
  | .cb .. => true
  | _ => false

/-- The one that stands in segment V: VSP. -/
def SharedWrite.inV : SharedWrite → Bool
  | .vsp .. => true
  | _ => false

/-- A log with those of its entries for which `f` holds taken from another. -/
def logWith (l m : List (Nat × SharedWrite)) (f : SharedWrite → Bool) : List (Nat × SharedWrite) :=
  (m.filter fun e => f e.2).foldl (fun l e => logInsert e.1 e.2 l) (l.filter fun e => !f e.2)

/-- A context with what stands in segment A taken from another: the access engine's place, slots and buffers (17 R467). -/
def UnitCtx.takeA (u v : UnitCtx) : UnitCtx :=
  { u with eA := v.eA, sh := { u.sh with ts := v.sh.ts, cb := v.sh.cb }, log := logWith u.log v.log SharedWrite.inA }

/-- With what stands in segment V: the vector engine's place, VSP. -/
def UnitCtx.takeV (u v : UnitCtx) : UnitCtx :=
  { u with eV := v.eV, sh := { u.sh with vsp := v.sh.vsp }, log := logWith u.log v.log SharedWrite.inV }

/-- With what stands in segment X: the copy engine's place. -/
def UnitCtx.takeX (u v : UnitCtx) : UnitCtx := { u with eX := v.eX }

/-- The control segment of a core after an image of it is restored, with what the model holds there of segments A, V and X: of the region
shadow, the slots and buffers are A's, the binding table C's (17 R478, log 121). -/
def SegC.restored (c i : SegC) (has : Nat → Bool) : SegC :=
  let k := if has 0 then i else c
  let from' (b : Nat) : UnitCtx := if has b then i.u else c.u
  let a := if has 1 then i.seq.shadow else c.seq.shadow
  { k with seq := { k.seq with shadow := { a with binds := k.seq.shadow.binds } }, u := ((k.u.takeA (from' 1)).takeV (from' 2)).takeX (from' 3),
           csr := { k.csr with fv := if has 2 then i.csr.fv else c.csr.fv } }

/-- Restore an image into core `t` and its lantern (17 R472): segments, the scratchpad it carries, a lease's quadrants held; its launch
uses them (20 R510). -/
def State.restore (s : State) (t : Nat) (i : Image) : State :=
  let has (b : Nat) : Bool := i.segmap / 2 ^ b % 2 == 1
  let c := s.coreAt t
  let seg := { i.c with mat := { i.c.mat with start := s.cycOf t - i.c.mat.start } }
  let c := { c with
    c := c.c.restored seg has, a := if has 1 then i.a else c.a, v := if has 2 then i.v else c.v,
    x := if has 3 then i.x else c.x, w := if has 4 then i.w else c.w,
    spad := putPart c.spad i.segmap i.live i.liveLen i.spad,
    sys := { c.sys with shifting := maskCore i.segmap } }
  let c := match i.c.u.lid with | some lid => if maskCore i.segmap = 0 then c else c.use lid | none => c
  let s := s.setCoreAt t c
  let l := s.lanternAt (t / 4)
  let l := (leaseQuads (maskQuads i.segmap)).foldl (fun (l : Lantern) q =>
    l.setQuad q (((l.quad q).restored (Sparse.get Quad.reset i.quads q) (t % 4) i.c.u).use i.c.u.lid)) l
  let l := if has 0 then (leaseQuads i.c.mat.lease).foldl (fun (l : Lantern) q =>
      l.setQuad q { (l.quad q).use i.c.u.lid with holder := some (t % 4) }) l else l
  let l := match i.lc with | some x => { l with ptr := x.1, waiting := x.2.1, rotWant := x.2.2 } | none => l
  let s := s.setLanternAt (t / 4) l
  if has 0 then match i.c.u.lid with | some lid => (s.moveUnit i t).logPlacement lid | none => s else s

/-! ### The region image (17 R477, R478) -/

/-- A buffer's 16 bytes in the region shadow (17 R478). -/
def bufBits (b : Option Buf) (n : Option BufCount) : Nat :=
  match b, n with
  | some b, some n => b.base % 2 ^ 21 + (bitLen (b.size / 64) - 1) % 16 * 2 ^ 21 + b.count % 512 * 2 ^ 25 + n.free % 512 * 2 ^ 34 +
      n.filled % 512 * 2 ^ 43 + n.fill % 256 * 2 ^ 52 + n.take % 256 * 2 ^ 60 + n.rel % 256 * 2 ^ 68 + 2 ^ 76
  | _, _ => 0

/-- The code of a scope (05 R131). -/
def scopeCode : Scope → Nat
  | .core => 0 | .ltn => 1 | .die => 2 | .dev => 3 | .sys => 4

/-- An entry's 24 bytes of the binding table (17 R478). -/
def bindBytes (b : Option Binding) : Bytes :=
  match b with
  | some b => natLe 8 b.obj ++ natLe 8 b.base ++ natLe 5 b.len ++ natLe 1 (scopeCode b.scope) ++ [1, 0]
  | none => List.replicate 24 0

/-- The 1,024 bytes of a region shadow (17 R478). -/
def Shadow.bytes (d : Shadow) : Bytes :=
  ((List.range 16).flatMap fun i => natLe 8 (slotBits (Sparse.get none d.ts i))) ++
  ((List.range 8).flatMap fun i =>
    let b := Sparse.get none d.cb i
    natLe 16 (bufBits b (b.bind fun b => Sparse.get none d.cbc (i + 8 * b.gen)))) ++
  ((List.range 16).flatMap fun i => bindBytes d.binds[i]?) ++ List.replicate 384 0

/-- The header of the region image of a unit that moves (17 R477): SEGMAP 0, FLAGS bit 0, a fresh save counter and IV. -/
def State.regionHeader (s : State) (r : Restart) : Bytes :=
  let ltn := s.lanternAt (r.core / 4)
  imageHeader r.full ltn.live 0 r.world 1 (Sparse.get 0 s.dev.sec.saveCnt r.world + 1) (256 + 8192 + 1024 + r.live.length + 16)
    (recLive r.record).1 r.live.length s.dev.sec.iv (r.region.getD (2 ^ 64 - 1))

/-- The image: header, then record, shadow and live range sealed under the world's key. -/
def State.regionImage (s : State) (r : Restart) : Bytes :=
  let h := s.regionHeader r
  h ++ fit (8192 + 1024 + r.live.length + 16)
    (gcmSeal (s.memKey r.world) s.dev.sec.iv h (r.record ++ r.shadow.bytes ++ r.live))

/-- Firmware sends the image: the counters advance. -/
def State.sendRegion (s : State) (r : Restart) : State :=
  s.modDev fun d => { d with sec := { d.sec with
    saveCnt := Sparse.set 0 d.sec.saveCnt r.world (Sparse.get 0 d.sec.saveCnt r.world + 1), iv := d.sec.iv + 1 } }

/-- Checks 3 and 4 of 17 R474 on an image of the region: its save counter against the world's floor, its tag. -/
def State.regionOk (s : State) (r : Restart) (img : Bytes) : Bool :=
  decide (s.saveFloor r.world ≤ leNat ((img.drop 16).take 8)) && img == s.regionImage r

/-! ### SCOUT (06 R235) -/

/-- A range of virtual addresses cut at its pages: address, offset, length. -/
def pageParts (va n : Nat) : List (Nat × Nat × Nat) :=
  (List.range (n / 65536 + 2)).filterMap fun i =>
    let lo := max va ((va / 65536 + i) * 65536)
    let hi := min (va + n) ((va / 65536 + i + 1) * 65536)
    if lo < hi then some (lo, lo - va, hi - lo) else none

/-- Store a range of bytes as the control engine's own accesses (18 R481). -/
def State.storeRange (s : State) (va : Nat) (bs : Bytes) : M State :=
  (pageParts va bs.length).foldlM (fun t p => do
    let a := BitVec.ofNat 64 p.1
    chkAt (decide (p.1 < 2 ^ 56)) .addressRange a
    let (t, e, pa) ← t.translate t.u.world p.1 .write
    t.mayStore e a
    let part := (bs.drop p.2.1).take p.2.2
    if e.target = 1 then pure (t.guardRegion.modMem fun m => { m with host := Memory.writes m.host pa part })
    else if e.target = 2 then pure (t.guardRegion.modMem fun m => { m with peer := Memory.writes m.peer pa part })
    else t.storeDev (t.memKey t.u.world) a pa part) s

/-- Load a range of bytes. -/
def State.loadRange (s : State) (va n : Nat) : M (State × Bytes) :=
  (pageParts va n).foldlM (fun p x => do
    let a := BitVec.ofNat 64 x.1
    chkAt (decide (x.1 < 2 ^ 56)) .addressRange a
    let (t, e, pa) ← p.1.translate p.1.u.world x.1 .read
    if e.target = 1 then pure (t, p.2 ++ Memory.reads t.dev.m.host pa x.2.2)
    else if e.target = 2 then pure (t, p.2 ++ Memory.reads t.dev.m.peer pa x.2.2)
    else do
      let bs ← t.readDev (t.memKey t.u.world) a pa x.2.2
      pure (t, p.2 ++ bs)) (s, [])

/-- The clocks of the named segments stand (06 R235). -/
def State.scanStill (s : State) (t mask : Nat) : M PUnit :=
  let l := s.lanternAt (t / 4)
  chk ((List.range 5).all (fun b => mask / 2 ^ b % 2 == 0 || (s.coreAt t).sys.stopped / 2 ^ b % 2 == 1) &&
    l.allStopped mask && (!maskLc mask || l.lcStopped)) .scanRunning

/-- The live range of Src(s4): base and length (06 R233). -/
def liveRange (v : Word) : M (Nat × Nat) := do
  let n := v.toNat
  let base := n % 2 ^ 21
  let len := n / 2 ^ 32 % 2 ^ 21
  chk (decide (n = base + len * 2 ^ 32)) .reservedField
  chk (decide (base % 64 = 0 ∧ len % 64 = 0 ∧ base + len ≤ 0x200000)) .immediateRange
  pure (base, len)

/-- SCOUT.mem and SCOUT.spad rd, s1, s2, s3, s4. -/
def execScout (rd : CReg) (s1 s2 s3 s4 : CSrc) (spad : Bool) (s : State) : Outcome State Fault Refusal :=
  lane .c s do
    s.onlyPrivileged
    s.useC [s1, s2, s3, s4] [rd]
    let t ← scanCore (s.valC s2)
    let (base, len) ← liveRange (s.valC s4)
    s.scanMask (s.valC s1) t true
    let m := (s.valC s1).toNat
    let owners := (maskBits m).map (s.segOwner t)
    chk (owners.all fun w => w == owners.headD 0) .scanMask
    s.scanStill t m
    let a := (s.valC s3).toNat
    let (u, i) := s.capture t m base len
    let u := u.modDev fun d => { d with sec := { d.sec with images := d.sec.images ++ [i] } }
    let u ← if spad then do
        u.spadRange a i.len
        pure (u.setSpad a i.bytes)
      else u.storeRange a i.bytes
    pure (u.setRd rd (BitVec.ofNat 64 i.len))

/-! ### SCIN (06 R235, 17 R474) -/

/-- Read bytes of an image from its source. -/
def State.imageRead (s : State) (spad : Bool) (a n : Nat) : M (State × Bytes) :=
  if spad then do
    s.spadRange a n
    pure (s, s.spad a n)
  else s.loadRange a n

/-- The image that the seal knows by its bytes: the tag verifies under the key that its world has now. -/
def State.sealed (s : State) (bs : Bytes) : Option Image :=
  s.dev.sec.images.find? fun i => i.bytes == bs && i.key == s.memKey i.world

/-- The checks of 17 R474 in order, with the image when all pass. A SEGMAP that is not the named segments counts as a class
mismatch (log 32). -/
def State.scinStatus (s : State) (spad : Bool) (a t mask : Nat) : M (State × Nat × Option Image) := do
  let (s, h) ← s.imageRead spad a 256
  let fld (o n : Nat) : Nat := leNat ((h.drop o).take n)
  let full := (s.coreAt t).sys.full
  let len := imageLen full (fld 8 2) (fld 36 4)
  if fld 4 2 ≠ 0x0104 then pure (s, 1, none)
  else if fld 6 1 ≠ (if full then 64 else 32) ∨ fld 8 2 ≠ mask then pure (s, 2, none)
  else do
    let parkedAt := (s.dev.sec.images.find? fun i => i.header == h).bind fun i =>
      if i.segmap / 4 % 2 = 1 ∧ i.v.park ≠ [] then some i.core else none
    if parkedAt.isSome ∧ parkedAt ≠ some t then pure (s, 2, none)
    else if fld 16 8 < s.saveFloor (fld 10 1) then pure (s, 4, none)
    else if 0x200000 < fld 36 4 then pure (s, 3, none)
    else do
      let (s, bs) ← s.imageRead spad a len
      match s.sealed bs with
      | none => pure (s, 3, none)
      | some i =>
        if (maskBits mask).all fun b => s.segOwner t b == i.world then pure (s, 0, some i) else pure (s, 5, none)

/-- SCIN.mem and SCIN.spad rd, s1, s2, s3. -/
def execScin (rd : CReg) (s1 s2 s3 : CSrc) (spad : Bool) (s : State) : Outcome State Fault Refusal :=
  lane .c s do
    s.onlyPrivileged
    s.useC [s1, s2, s3] [rd]
    let t ← scanCore (s.valC s2)
    s.scanMask (s.valC s1) t true
    let m := (s.valC s1).toNat
    s.scanStill t m
    let (u, st, i) ← s.scinStatus spad (s.valC s3).toNat t m
    let u := match i with
      | none => u
      | some i => (u.restore t i).modDev fun d => { d with sec := { d.sec with floor := Sparse.set 0 d.sec.floor i.world i.savecnt } }
    pure (u.setRd rd (BitVec.ofNat 64 st))

/-- SCAN_IN_SHIFT_COMPLETE: a restarted segment finishes its shift (02 R74). -/
def execScanInShiftComplete (core : Nat) (s : State) : Outcome State Fault Refusal :=
  let c := s.coreAt core
  event s (.ok (match (List.range 5).find? fun b => c.sys.shifting / 2 ^ b % 2 == 1 && c.sys.stopped / 2 ^ b % 2 == 0 with
    | some b => s.setCoreAt core { c with sys := { c.sys with shifting := c.sys.shifting - 2 ^ b } }
    | none => s))

end Sys2Proof.Machine
end

