-- ==== Sys2Proof/Machine/System.lean ====
section
/-! DEFINITION. DIAGINJ, TLBINV and FRAMESET (06 R236, R237, R240; 12 R376, R377). -/

namespace Sys2Proof.Machine

open Sys2Proof Host

/-! ### DIAGINJ (06 R236) -/

/-- Privileged, or DIAGEN set (06 R188). -/
def State.mayInject (s : State) : M PUnit := chk (s.privileged || s.core.c.csr.diagen) .privilegedInstruction

/-- The cell of .prod and .acc: quadrant, row, column. -/
def injectCell (loc bit : Word) : M (Nat × Nat × Nat) := do
  let n := loc.toNat
  chk (decide (n < 2 ^ 17 ∧ n / 2 ^ 7 % 2 = 0 ∧ bit.toNat ≤ 63)) .immediateRange
  pure (n / 2 ^ 15, n / 2 ^ 8 % 128, n % 128)

/-- The quadrant is live, and held under lease by an unprivileged unit. -/
def State.injectQuad (s : State) (q : Nat) : M PUnit := do
  chk (hasQuad s.liveQuads q) .quadrantFused
  chk (s.privileged || ((s.lantern.quad q).holder == some (s.cur % 4) && hasQuad s.core.c.mat.lease q)) .privilegedInstruction

/-- Array commands of the unit that stand before the next one it issues on a quadrant: those of its lease (12 R377). -/
def State.arrayAhead (s : State) (q : Nat) : Nat :=
  if hasQuad s.core.c.mat.lease q then
    (s.core.c.mat.mq.filter fun c => onArray c.instr).length + (if s.core.c.mat.cur.isSome then 1 else 0)
  else 0

/-- DIAGINJ.prod s1, s2, s3: arms a flip, which replaces one armed before (12 R377). -/
def execDiaginjProd (s1 s2 s3 : CSrc) (s : State) : Outcome State Fault Refusal :=
  lane .c s do
    s.mayInject
    s.useC [s1, s2, s3] []
    let (q, r, c) ← injectCell (s.valC s1) (s.valC s2)
    s.injectQuad q
    let f : Flip := ⟨r, c, (s.valC s2).toNat, (s.valC s3).toNat, s.arrayAhead q⟩
    pure (s.modMat fun m => { m with flip := Sparse.set none m.flip q (some f) })

/-- DIAGINJ.acc s1, s2, s3: flips the stored bit, outside the check words. -/
def execDiaginjAcc (s1 s2 s3 : CSrc) (s : State) : Outcome State Fault Refusal :=
  lane .c s do
    s.mayInject
    s.useC [s1, s2, s3] []
    let (q, r, c) ← injectCell (s.valC s1) (s.valC s2)
    s.injectQuad q
    let l := s.lantern
    pure (s.setLantern (l.setQuad q ((l.quad q).flipBit r c (s.valC s2).toNat)))

/-- Flip bit `b` of bytes. -/
def flipByte (d : Bytes) (b : Nat) : Bytes := d.set (b / 8) (d.getD (b / 8) 0 ^^^ BitVec.ofNat 8 (2 ^ (b % 8)))

/-- DIAGINJ.vreg s1, s2, s3: on the parked copy of a parked register; a dead register becomes live; v32 to v63 as the
lane's iteration maps them (14 R409). -/
def execDiaginjVreg (s1 s2 s3 : CSrc) (s : State) : Outcome State Fault Refusal :=
  lane .c s do
    let n := (s.valC s1).toNat
    let b := (s.valC s2).toNat
    s.mayInject
    s.useC [s1, s2, s3] []
    chk (decide (n < 64 ∧ b < 8 * s.payload)) .immediateRange
    let p := physV (s.u.curLine .c).rb n
    match s.parkAt p with
    | some a =>
      let l := s.lantern
      pure (s.setLantern (l.setQuad a.quad ((l.quad a.quad).flipBit a.row (32 * a.slot + b / 64) (b % 64))))
    | none =>
      let e := s.readV p
      pure (s.writeV p { e with data := flipByte e.data b })

/-- DIAGINJ.spad s1, s2, s3. -/
def execDiaginjSpad (s1 s2 s3 : CSrc) (s : State) : Outcome State Fault Refusal :=
  lane .c s do
    let a := (s.valC s1).toNat
    let b := (s.valC s2).toNat
    s.mayInject
    s.useC [s1, s2, s3] []
    chk (decide (a < 0x200000 ∧ b < 8)) .immediateRange
    chk (s.privileged || decide (a < 0x1F0000)) .privilegedInstruction
    pure (s.setSpad a (flipByte (s.spad a 1) b))

/-! ### TLBINV (06 R237) -/

/-- Keep the TLB entries of every core that satisfy a test. -/
def State.filterTlbs (s : State) (keep : TlbEntry → Bool) : State :=
  s.cores.foldl (fun t x =>
    let c := t.coreAt x.1
    t.setCoreAt x.1 { c with sys := { c.sys with tlb := c.sys.tlb.filter keep } }) s

/-- Drop every translation of a world (06 R237). -/
def State.dropWorldTlb (s : State) (w : Nat) : State := s.filterTlbs fun e => e.world != w

/-- TLBINV.kind s1, s2: every TLB of the device has dropped the named entries when it is passed. -/
def execTlbinv (kind : BitVec 2) (s1 s2 : CSrc) (s : State) : Outcome State Fault Refusal :=
  lane .c s do
    s.onlyPrivileged
    s.useC [s1, s2] []
    let w := (s.valC s2).toNat % 16
    let a := (s.valC s1).toNat
    pure (match kind.toNat with
      | 0 => s.filterTlbs fun e => !(e.world == w && decide (e.va ≤ a) && decide (a < e.va + e.size))
      | 1 => s.dropWorldTlb w
      | _ => s.filterTlbs fun _ => false)

/-! ### FRAMESET (06 R240) -/

/-- FRAMESET s1, s2: the slot takes effect at the core's next frame edge. -/
def execFrameset (s1 s2 : CSrc) (slot : BitVec 4) (s : State) : Outcome State Fault Refusal :=
  lane .c s do
    let v := (s.valC s1).toNat
    let t := (s.valC s2).toNat
    let len := v / 16 % 32
    s.onlyPrivileged
    s.useC [s1, s2] []
    chk (decide (18 ≤ len ∧ len ≤ 24 ∧ t < 512)) .immediateRange
    chk (s.coreAt t).sys.enabled .immediateRange
    let c := s.coreAt t
    let x : Slot := ⟨v % 16, len, v / 512 % 2 == 1⟩
    pure (s.setCoreAt t { c with sys := { c.sys with slotNext := c.sys.slotNext ++ [(s.cycOf t, slot.toNat, x)] } })

end Sys2Proof.Machine
end

