-- ==== Sys2Proof/Machine/Sched.lean ====
section
/-! DEFINITION. The stream controller (16 R427-R453; 20 R511-R513): lists, launch records, the scoreboard, placement, unit start
and end, commit, levels, events, KISSUE, SXFER and CANCEL. -/

namespace Sys2Proof.Machine

open Sys2Proof Host

/-! ### The anchor block and the lists (16 R427-R429) -/

/-- Bytes of the anchor block, under the world-15 memory key. -/
def State.anchorRead (s : State) (off n : Nat) : Nat := leNat (s.dev.m.readKey Stage.empty .firmware (s.dev.anchor + off) n)
/-- The queue control block (16 R427). -/
def queueBlock (p q : Nat) : Nat := 0x1000 + 64 * (16 * p + q)

/-- The next record of a list after the last one consumed (16 R429); the first record of a list is the one TAIL first named
(log 33). -/
def State.nextRecord (s : State) (first pos : Nat) : Option Nat :=
  if pos = 0 then (if first = 0 then none else some first)
  else
    let nx := fieldOf (s.peek pos 8) 0 8
    if nx = 0 then none else some nx

/-- Firmware runs. -/
def State.inService (s : State) : Bool := s.dev.stateWord == 1 && s.dev.powered

/-! ### Launch records (16 R433, R434) -/

/-- The fields of a launch record, for a world, a partition and a queue; none when R433 or R434 rejects it on its own. -/
def parseLaunch (bs : Bytes) (world part queue : Nat) : Option Launch :=
  let f := fieldOf bs
  let deps := ((List.range 4).map fun i => f (72 + 4 * i) 4) ++ ((List.range 4).map fun i => f (104 + 4 * i) 4)
  let named := deps.filter fun d => d != 0xFFFFFFFF
  let ok := f 8 1 = 1 ∧ f 9 1 < 8 ∧ (f 10 1 = 32 ∨ f 10 1 = 64) ∧ f 11 1 ≤ 4 ∧ 1 ≤ f 12 4 ∧ f 12 4 ≤ 16777216 ∧
    1 ≤ f 24 8 ∧ f 24 8 < 2 ^ 32 ∧ f 32 4 ≤ 65535 ∧ f 36 4 ≤ 65534 ∧ f 40 4 ≤ 65535 ∧ 1 ≤ f 44 4 ∧ f 44 4 ≤ 65536 ∧
    1 ≤ f 48 4 ∧ f 48 4 ≤ 65535 ∧ 1 ≤ f 52 4 ∧ f 52 4 ≤ 65536 ∧ f 56 8 % 32 = 0 ∧ f 64 8 % 64 = 0 ∧ f 88 8 % 64 = 0 ∧
    f 96 1 ≤ 8 ∧ f 97 3 = 0 ∧ (f 100 4 = 0 ∨ (100 ≤ f 100 4 ∧ f 100 4 ≤ 3600000000)) ∧ f 120 8 = 0
  if ok ∧ named.all (fun d => decide (d < f 44 4 ∧ d ≠ f 40 4)) = true then
    some {
      lid := f 16 8, jobid := f 24 8, phase := f 32 4, graph := f 36 4, node := f 40 4
      nnodes := f 44 4, ngraphs := f 48 4, nphases := f 52 4, n := f 12 4
      gang := f 9 1 % 2 == 1, dup := f 9 1 / 2 % 2 == 1, log := f 9 1 / 4 % 2 == 1
      vlanes := f 10 1, qcnt := f 11 1, text := f 56 8, args := f 64 8, deps := named, snuff := f 100 4
      world := world, part := part, queue := queue, ready := none, state := .waiting, placed := [], started := none
      stage0 := Stage.empty, stage1 := Stage.empty, unstaged := false, requeues := 0, errors := 0, mismatch := false
      recorded := false, replay := none, loops := [], snap := Mem.reset, die := 0, freed := [], expired := none }
  else none

/-- A stream-transfer descriptor that breaks no rule (16 R437). -/
def parseXfer (bs : Bytes) : Option Xfer :=
  let f := fieldOf bs
  if f 0 8 % 64 = 0 ∧ f 8 4 % 64 = 0 ∧ 64 ≤ f 8 4 ∧ f 8 4 ≤ 33554432 ∧ f 14 1 ≤ 7 ∧ f 15 1 = 0 ∧ f 18 46 = 0 then
    some ⟨f 0 8, f 8 4, f 12 2, f 14 1, f 16 2, false⟩
  else none

/-- The lanterns that a transfer names. -/
def Xfer.lanterns (x : Xfer) : List Nat := ((List.range 16).filter fun i => x.ltn / 2 ^ i % 2 == 1).map fun i => 16 * x.die + i

/-- The size entry of a level. -/
def Device.size? (d : Device) (level id : Nat) : Option LevelSize := d.sizes.find? fun x => x.level == level && x.id == id

/-- A size given before for the same level agrees (16 R434). -/
def Device.sizeAgrees (d : Device) (level id n : Nat) : Bool :=
  match d.size? level id with | some x => x.size == n | none => true

/-- Forget what is on record of a job that has completed, when a new record uses its JOBID (log 34). -/
def Device.freshJob (d : Device) (job : Nat) : Device :=
  if d.endedLevel 4 job = some true then
    { d with ended := d.ended.filter fun e => !(if e.level = 4 then e.id == job else if e.level = 3 then e.parent == job
               else e.parent / 2 ^ 32 == job),
             sizes := d.sizes.filter fun x => !(if x.level = 4 then x.id == job else x.id / 2 ^ 32 == job)
             marked := d.marked.filter fun x => !(if x.1 = 4 then x.2 == job else x.1 != 1 && x.2 / 2 ^ 32 == job) }
  else d

/-- Put the sizes of a launch's levels on record. -/
def Device.noteSizes (d : Device) (l : Launch) : Device :=
  let add (level id n : Nat) (d : Device) : Device :=
    if (d.size? level id).isSome then d else { d with sizes := ⟨level, id, n, l.part, l.queue, l.world, false⟩ :: d.sizes }
  add 4 l.jobid l.nphases (add 3 l.pid l.ngraphs (add 2 l.gid l.nnodes d))

/-- The device-wide checks of R434: the identifier is free, the sizes agree, the job stays in its queue. -/
def Device.admits (d : Device) (l : Launch) : Bool :=
  (d.launches.all fun x => x.lid != l.lid || x.state == .failed) &&
  d.sizeAgrees 2 l.gid l.nnodes && d.sizeAgrees 3 l.pid l.ngraphs && d.sizeAgrees 4 l.jobid l.nphases &&
  (match d.size? 4 l.jobid with | some x => x.part == l.part && x.queue == l.queue | none => true)

/-! ### Classes and frame tables (01 R24; 19 R487, R488) -/

/-- The live quadrants of a core's lantern. -/
def State.quadsAt (s : State) (n : Nat) : Nat := quadCount (s.lanternAt (n / 4)).live

/-- A core satisfies a launch's minimum class and is enabled in its partition, on a die with power (20 R506). -/
def State.satisfies (s : State) (l : Launch) (n : Nat) : Bool :=
  let c := s.coreAt n
  (match s.part? l.part with | some p => p.has (n / 4) | none => false) &&
  c.sys.enabled && !c.sys.fenced && !s.dieDown n && (l.vlanes == 32 || c.sys.full) && decide (l.qcnt ≤ s.quadsAt n)

/-- Every core that satisfies a launch. -/
def State.classCores (s : State) (l : Launch) : List Nat := (List.range 512).filter (s.satisfies l)

/-- The save of a world's unit on a core: its key and image (19 R489). -/
def State.savedUnit (s : State) (n w : Nat) : Option (Nat × Image) :=
  s.dev.saves.findSome? fun x => match x.2 with
    | some i => if x.1 / 256 = n ∧ i.c.u.world = w then some (x.1, i) else none
    | none => none

/-- A unit of world `w` may start on a core in this cycle (19 R488, 16 R442). -/
def State.mayStart (s : State) (n w : Nat) : Bool :=
  let y := (s.coreAt n).sys
  w == 15 || y.worlds == [w] ||
  (y.worlds.contains w && y.frameWorld == w && y.opened == s.cycOf n && (s.savedUnit n w).isNone)

/-- A gang of which some unit still runs holds a core, in the frames of its world (01 R43; log 111). -/
def State.gangHolds (s : State) (n : Nat) : Bool :=
  s.dev.launches.any fun l => l.gang && (l.world == 15 || (s.coreAt n).sys.frameWorld == l.world) && l.placed.any fun p => p.core == n

/-- A core that no unit holds and no gang, and that takes units. -/
def State.coreIdle (s : State) (n : Nat) : Bool :=
  let c := s.coreAt n
  !c.c.busy && c.sys.saved.isNone && !c.sys.draining && c.sys.stopped == 0 && !s.gangHolds n

/-- A core on which a unit of a launch could start now, were it the only launch. -/
def State.couldStart (s : State) (l : Launch) (n : Nat) : Bool := s.satisfies l n && s.coreIdle n && s.mayStart n l.world

/-- Another launch has first claim on a core: it has freed it, units of it have still to start, and one could start there
(16 R439). -/
def State.claimed (s : State) (l : Launch) (n : Nat) : Bool :=
  s.dev.launches.any fun x => x.lid != l.lid && x.freed.contains n && x.state == .running && !(s.unplaced x).isEmpty &&
    s.couldStart x n

/-- The cores on which a unit of a launch can start now. -/
def State.freeCores (s : State) (l : Launch) : List Nat :=
  (List.range 512).filter fun n => s.couldStart l n && !s.claimed l n

/-- Before another core in the order of R441. -/
def State.better (s : State) (a b : Nat) : Bool :=
  let key (n : Nat) : Nat := 2 * s.quadsAt n + (if (s.coreAt n).sys.full then 1 else 0)
  decide (key a < key b ∨ (key a = key b ∧ a < b))

/-- The core that a unit goes to. -/
def State.bestCore (s : State) : List Nat → Option Nat
  | [] => none
  | n :: ns => match s.bestCore ns with
    | some m => if s.better n m then some n else some m
    | none => some n

/-- The cores of a launch's class have equal frame-table slots for its world (01 R43). -/
def State.tablesAgree (s : State) (l : Launch) : Bool :=
  let tab (n : Nat) : List (Nat × Slot) := (s.coreAt n).sys.enabledSlots.filter fun x => x.2.world == l.world
  match s.classCores l with
  | [] => true
  | n :: ns => ns.all fun m => tab m == tab n

/-- Runs of a launch: two for each unit of a duplicated one. -/
def Launch.runs (l : Launch) : Nat := if l.dup then 2 * l.n else l.n

/-- Why a gang is refused at submission (01 R43, 16 R444). -/
def State.gangRefusal (s : State) (l : Launch) : Option Nat :=
  if !l.gang then none
  else if (s.classCores l).length < l.runs then some 1
  else if !s.tablesAgree l then some 2
  else none

/-! ### The scoreboard (16 R436) -/

/-- Entries in use on a die's scoreboard. -/
def State.boardUsed (s : State) (die : Nat) : Nat :=
  (s.dev.launches.filter fun l => l.state != .failed && l.die == die).length +
  (s.dev.board.filter fun f => f.die == die).length

/-- A rejected record's event (16 R434, R443). -/
def State.badRecord (s : State) (p q a job : Nat) : State :=
  s.pushEvent p q ⟨0, 9, 0, 0, a, job, 0, 0xFFFFFFFF, 0, s.ns⟩

/-- A launch enters the scoreboard of a die, with the transfers that feed it. -/
def State.enter (s : State) (l : Launch) (raw : Bytes) : State :=
  let (t, rec) := if l.log && s.dev.recm.enabled then s.logEntry 1 l.lid raw else (s, false)
  t.modDev fun d => { d with launches := (d.launches.filter fun x => x.lid != l.lid) ++ [{ l with recorded := rec }]
                             marked := d.marked.filter fun x => x != (1, l.lid) }

/-- Consume a launch record whose transfers are known: rejected, cancelled with a level of it that is (01 R19, R20), refused as a
gang, or entered. -/
def State.takeLaunch (s : State) (bs : Bytes) (a world part queue die : Nat) (xs : Option (List Xfer)) : State :=
  match parseLaunch bs world part queue, xs, s.part? part with
  | some l, some xs, some p =>
    let l := { l with die := die }
    let d := s.dev.freshJob l.jobid
    if decide (a % 64 = 0) && d.admits l && xs.all fun x => x.lanterns.all p.has then
      let t := s.modDev fun _ => d.noteSizes l
      if d.cancelled l then t.launchEvent l 1 0 0xFFFFFFFF 0
      else match t.gangRefusal l with
        | some c => t.launchEvent l 3 c 0xFFFFFFFF 0
        | none => (t.enter l bs).modDev fun d => { d with board := d.board ++ xs.map fun x => ⟨die, some l.lid, x⟩ }
    else s.badRecord part queue a l.jobid
  | _, _, _ => s.badRecord part queue a (fieldOf bs 24 8)

/-- Where a record's transfer descriptors stand: the address STRM and their bytes, none when STRM is 0 (16 R433). -/
def xferRange (bs : Bytes) : Nat × Nat := if fieldOf bs 88 8 = 0 then (0, 0) else (fieldOf bs 88 8, 64 * fieldOf bs 96 1)

/-- The descriptors at STRM. -/
def State.xfersOf (s : State) (bs : Bytes) : Option (List Xfer) :=
  let a := fieldOf bs 88 8
  if a = 0 then some [] else (List.range (fieldOf bs 96 1)).mapM fun i => parseXfer (s.peek (a + 64 * i) 64)

/-- A record of a queue has been consumed: DONE (16 R429). -/
def State.doneRecord (s : State) (p q a : Nat) : State :=
  (s.anchorWrite (queueBlock p q + 8) (natLe 8 a)).setQueue p q { s.queue p q with pos := a }

/-- The home die of a partition (16 R431). -/
def State.homeDie (s : State) (p : Nat) : Nat := match s.part? p with | some x => x.home | none => 0

/-- The dispatch program reads a queue's list: it is enabled, and the lamplighter of the partition's home die has power (16 R429; 20
R506). -/
def State.serves (s : State) (p q : Nat) : Bool :=
  s.inService && (s.queue p q).enabled && (s.part? p).isSome && !s.dieDown (512 + s.homeDie p)

/-- The record that a queue's list offers. -/
def State.offered (s : State) (p q : Nat) : Option (Nat × Bytes) :=
  if s.serves p q then (s.nextRecord (s.queue p q).first (s.queue p q).pos).map fun a => (a, s.peek a 128) else none

/-- Some of the ranges (address, length) touch a poisoned granule (10 R361). -/
def State.anyPoisoned (s : State) (rs : List (Nat × Nat)) : Bool := rs.any fun r => s.dev.m.poisoned Stage.empty r.1 r.2

/-- What the reader of a list reads from a tail word at `tail` to the next record of `n` bytes (16 R429). -/
def State.listReads (s : State) (tail first pos n : Nat) : List (Nat × Nat) :=
  [(tail, 8)] ++ (if pos = 0 then [] else [(pos, 8)]) ++ match s.nextRecord first pos with | some a => [(a, n)] | none => []

/-- What the dispatch program reads to consume the next record of a queue: the list, the record and its transfer descriptors (16 R437). -/
def State.recordReads (s : State) (p q : Nat) : List (Nat × Nat) :=
  s.listReads (s.dev.anchor + queueBlock p q) (s.queue p q).first (s.queue p q).pos 128 ++
  match s.offered p q with
  | some (_, bs) => if fieldOf bs 8 1 = 2 then [] else [xferRange bs]
  | none => []

/-- The dispatch program consumes a poisoned granule: the lamplighter counts it, and a trap of world 15 is a device-level fault (10 R361;
17 R462, R466; log 150). -/
def State.dispatchFault (s : State) (p : Nat) : State :=
  (((s.focus (512 + s.homeDie p)).noteUncorr).focus s.cur).deviceFault

/-- The dispatch program consumes the next record of a queue, which `f` does; not one that stands in poisoned memory. -/
def State.consume (s : State) (p q : Nat) (f : Nat → Bytes → State) : State :=
  if s.serves p q && s.anyPoisoned (s.recordReads p q) then s.dispatchFault p
  else match s.offered p q with
    | some (a, bs) => f a bs
    | none => s

/-- LAUNCH_RECORD: the dispatch program consumes the next record of a queue when it is no cancel: at once when it is rejected, else
once the scoreboard has room for the launch and its transfers. -/
def execLaunchRecord (p q : Nat) (s : State) : Outcome State Fault Refusal :=
  event s (.ok (s.consume p q fun a bs =>
    if fieldOf bs 8 1 = 2 then s
    else
      let die := s.homeDie p
      let bad := (parseLaunch bs (s.queue p q).world p q).isNone || (s.xfersOf bs).isNone
      if bad = true ∨ s.boardUsed die + 1 + fieldOf bs 96 1 ≤ 64 then
        (s.takeLaunch bs a (s.queue p q).world p q die (s.xfersOf bs)).doneRecord p q a
      else s))

/-- The JOBID of a level, 0 for a launch that is not on record (16 R433, R443). -/
def Device.jobOf (d : Device) (level id : Nat) : Nat :=
  match level with
  | 1 => match d.launches.find? fun l => l.lid == id with
    | some l => l.jobid
    | none => match d.ended.find? fun e => e.level == 1 && e.id == id with
      | some e => e.parent / 2 ^ 32
      | none => 0
  | 4 => id
  | _ => id / 2 ^ 32

/-- CANCEL_RECORD: its event carries cancelled, already complete or unknown identifier (16 R435). -/
def execCancelRecord (p q : Nat) (s : State) : Outcome State Fault Refusal :=
  event s (.ok (s.consume p q fun a bs =>
    if fieldOf bs 8 1 ≠ 2 then s
    else
      let level := fieldOf bs 9 1
      let id := fieldOf bs 16 8
      let t := if 1 ≤ level ∧ level ≤ 4 then
          let (t, r) := s.cancel level id
          let st := if r = 0 then 1 else if r = 1 then 2 else 8
          if r = 0 then t
          else t.pushEvent p q ⟨level, st, 0, t.dev.countOf level id, id, t.dev.jobOf level id, t.levelFlags level id, 0xFFFFFFFF, 0, t.ns⟩
        else s.badRecord p q a 0
      t.doneRecord p q a))

/-! ### Residency (16 R437, R438) -/

/-- 12 MiB. -/
def residencyLimit : Nat := 12582912

/-- Bytes that a transfer keeps resident. -/
def Xfer.held (x : Xfer) : Nat := min x.len residencyLimit

/-- Bytes resident in a lantern. -/
def State.resident (s : State) (ltn : Nat) : Nat :=
  ((s.dev.board.filter fun f => f.x.resident && f.x.lanterns.contains ltn).map fun f => f.x.held).sum

/-- The first transfer of a die that waits, with its place; none on a die without power (20 R506). -/
def State.nextXfer (s : State) (die : Nat) : Option (Nat × Feed) :=
  if s.dieDown (512 + die) then none else
  let fs := s.dev.board.zipIdx
  let first := (fs.filter fun f => f.1.die == die).head?.map Prod.snd
  (fs.find? fun f => f.1.die == die && !f.1.x.resident).bind fun f =>
    if first = some f.2 ∨ (f.1.x.lanterns.all fun l => decide (s.resident l + f.1.x.held ≤ residencyLimit)) = true then
      some (f.2, f.1)
    else none

/-- STREAM_RESIDENCY_COMPLETE. -/
def execStreamResidencyComplete (die : Nat) (s : State) : Outcome State Fault Refusal :=
  event s (.ok (match s.nextXfer die with
    | some (i, f) => s.modDev fun d => { d with board := d.board.set i { f with x := { f.x with resident := true } } }
    | none => s))

/-! ### Readiness and choice (16 R439, R440) -/

/-- A node of a graph is complete. -/
def Device.nodeDone (d : Device) (gid node : Nat) : Bool :=
  d.ended.any fun e => e.level == 1 && e.parent == gid && e.node == node && e.ok

/-- A phase of a job is complete. -/
def Device.phaseDone (d : Device) (job k : Nat) : Bool := d.endedLevel 3 (job * 2 ^ 32 + k * 2 ^ 16 + 0xFFFF) == some true

/-- A core is held in the frames of a world: by a unit that runs on it in them, or that is saved for them, or by a gang (01 R43, 19
R488). -/
def State.heldFor (s : State) (n w : Nat) : Bool :=
  let c := s.coreAt n
  let ws := c.sys.worlds
  (c.c.busy && (w == 15 || c.unit.world == 15 || c.unit.world == w || !(ws.contains w && decide (1 < ws.length)))) ||
  (s.savedUnit n w).isSome || s.dev.launches.any fun l => l.gang && (l.world == 15 || l.world == w) && l.placed.any fun p => p.core == n

/-- The cores that are free for a gang, in whose frames its world then starts it (01 R43): no other unit holds them, no other launch of
its world has first claim on them (16 R439). -/
def State.gangCores (s : State) (l : Launch) : List Nat :=
  (List.range 512).filter fun n => s.satisfies l n && !(s.coreAt n).sys.draining && (s.coreAt n).sys.stopped == 0 && !s.heldFor n l.world &&
    !(s.dev.launches.any fun x => x.lid != l.lid && x.world == l.world && x.freed.contains n && x.state == .running &&
      !(s.unplaced x).isEmpty && s.satisfies x n)

/-- A launch is ready (16 R439); the frame rule of 19 R488 is no condition of it (log 100). -/
def State.isReady (s : State) (l : Launch) : Bool :=
  l.state != .failed && (l.deps.all fun n => s.dev.nodeDone l.gid n) &&
  ((List.range l.phase).all fun k => s.dev.phaseDone l.jobid k) &&
  (s.dev.board.all fun f => f.lid != some l.lid || f.x.resident) &&
  (!l.gang || !l.placed.isEmpty || decide (l.runs ≤ (s.gangCores l).length))

/-- Stamp the launches that have become ready; a gang that is ready no more keeps its stamp (log 100). -/
def State.stampReady (s : State) : State :=
  s.modDev fun d => { d with launches := d.launches.map fun l =>
    if l.ready = none ∧ s.isReady l = true then { l with ready := some d.now } else l }

/-- Effective priority (16 R440). -/
def State.priority (s : State) (l : Launch) : Nat :=
  let age := s.dev.now - l.ready.getD s.dev.now
  let step := match s.part? l.part with | some p => p.aging * 1000000 | none => 2000000000
  min 3 ((s.queue l.part l.queue).prio + age / (max step 1))

/-- One launch is chosen before another: by priority, time, queue. -/
def State.before (s : State) (a b : Launch) : Bool :=
  let ra := a.ready.getD s.dev.now
  let rb := b.ready.getD s.dev.now
  if s.priority a ≠ s.priority b then decide (s.priority b < s.priority a)
  else if ra ≠ rb then decide (ra < rb)
  else decide (a.queue < b.queue)

/-- The first of a list in that order. -/
def State.pickFirst (s : State) : List Launch → Option Launch
  | [] => none
  | l :: ls => match s.pickFirst ls with
    | some m => if s.before m l then some m else some l
    | none => some l

/-! ### Unit start (01 R21; 02 R82; 03 R112; 16 R439, R441) -/

/-- The converter term (03 R112). -/
def Launch.term (l : Launch) (core e : Nat) : Nat := if l.dup || l.replay.isSome || l.recorded then 0 else core * 8 + e

/-- The registers x1 to x7 at unit start (01 R21). -/
def Launch.startRegs (l : Launch) (idx : Nat) : Sparse Word :=
  [(1, BitVec.ofNat 64 idx), (2, BitVec.ofNat 64 l.n), (3, BitVec.ofNat 64 (l.args % 2 ^ 56)), (4, BitVec.ofNat 64 l.lid)].foldl
    (fun m x => Sparse.set 0 m x.1 x.2) []

/-- The control context of a unit at its start. -/
def Launch.startCtx (l : Launch) (idx run : Nat) : UnitCtx :=
  { UnitCtx.reset with sh := { Shared.reset with xg := l.startRegs idx }, front := .line l.text false none,
                       world := l.world, lid := some l.lid, idx := idx, run := run }

/-- A core with a unit of a launch at its start. -/
def Core.started (c : Core) (l : Launch) (core idx run : Nat) : Core :=
  let c := c.clear
  let seed (e : Nat) : Word := seedOf (BitVec.ofNat 64 l.lid) (BitVec.ofNat 64 idx) (l.term core e)
  { c with
    c := { c.c with u := l.startCtx idx run, busy := true,
                    mat := { c.c.mat with qgen := (List.range 4).foldl (fun m q => Sparse.set 0 m q (seed (1 + q))) [] } }
    v := { c.v with gen := seed 0 } }

/-- Start a run of a unit on a core. -/
def State.startUnit (s : State) (l : Launch) (idx run core : Nat) : State :=
  let t := s.setCoreAt core (((s.coreAt core).started l core idx run).use l.lid)
  let t := t.setOwner core 0x1F l.world
  let first := l.started.isNone
  t.setLaunch { l with state := .running, placed := l.placed ++ [⟨idx, run, core, false⟩],
                       freed := l.freed.filter fun n => n != core,
                       started := if first then some s.dev.now else l.started, snap := if first then s.dev.m else l.snap }

/-- A second core of equal class for a duplicated unit (16 R449). -/
def State.twin (s : State) (free : List Nat) (n : Nat) : Option Nat :=
  s.bestCore (free.filter fun m => m != n && s.quadsAt m == s.quadsAt n && (s.coreAt m).sys.full == (s.coreAt n).sys.full)

/-- Start unit `idx` of a launch wherever the rules let it: on its logged core, or on the best free one, or pair of equal
class. -/
def State.placeUnit (s : State) (l : Launch) (idx : Nat) : Option State :=
  let free := s.freeCores l
  match l.replay with
  | some cores =>
    let n := cores.getD idx 0
    if free.contains n then some (s.startUnit l idx 0 n) else none
  | none =>
    if l.dup then
      (free.filterMap fun n => (s.twin free n).map fun m => (n, m)).head?.bind fun _ =>
        let firsts := free.filter fun n => (s.twin free n).isSome
        (s.bestCore firsts).bind fun n => (s.twin free n).map fun m =>
          let t := s.startUnit l idx 0 n
          match t.launch? l.lid with
          | some l => t.startUnit l idx 1 m
          | none => t
    else (s.bestCore free).map (s.startUnit l idx 0)

/-- Start every unit of a gang, or none (01 R43). -/
def State.placeGang (s : State) (lid : Nat) : List Nat → Option State
  | [] => some s
  | i :: is => (s.launch? lid).bind fun l => (s.placeUnit l i).bind fun t => t.placeGang lid is

/-- Start the next unit of a launch, the lowest index not yet placed (01 R22 leaves the order open: DESIGN CHOICE, log 101), or all
of a gang. -/
def State.startNext (s : State) (l : Launch) : Option State :=
  match s.unplaced l with
  | [] => none
  | i :: is => (if l.gang then s.placeGang l.lid (i :: is) else s.placeUnit l i).map fun t => t.logPlacement l.lid

/-- The ready launches of a partition that can start a unit now, on scoreboards that have power (20 R506); none while the partition is
being reset. -/
def State.startable (s : State) (p : Nat) : List Launch :=
  if s.inService && !(s.dev.resetting.any fun r => r.part == p) then
    s.dev.launches.filter fun l => l.part == p && !s.dieDown (512 + l.die) && s.isReady l && (s.startNext l).isSome
  else []

/-- UNIT_START: in a partition that is not being reset, the first ready launch in the order of R439 and R440 that can start a
unit does so. -/
def execUnitStart (p : Nat) (s : State) : Outcome State Fault Refusal :=
  let t := s.stampReady
  event s (.ok (((t.pickFirst (t.startable p)).bind t.startNext).getD s))

/-! ### Completion (01 R15, R18; 16 R446, R449) -/

/-- One bit of the CRC-64 of R449. -/
def crcBit (crc : Nat) (bit : Nat) : Nat :=
  let top := crc / 2 ^ 63 % 2
  let sh := crc * 2 % 2 ^ 64
  if top ≠ bit then Nat.xor sh 0x42F0E1EBA9EA3693 else sh

/-- The CRC-64 of bytes, most significant bit first. -/
def crc64 (bs : Bytes) : Nat :=
  bs.foldl (fun c b => (List.range 8).foldl (fun c i => crcBit c (b.toNat / 2 ^ (7 - i) % 2)) c) 0

/-- The staged granules of a run, ascending. -/
def Stage.granules (g : Stage) : List Nat := (g.mem.map fun c => c.1 / 32 * 32).eraseDups

/-- The signature of a run: of each granule its address, mask, bytes and descriptor. A byte that the mask leaves out counts as
zero (log 35). -/
def Mem.signature (m : Mem) (g : Stage) : Nat :=
  crc64 (g.granules.flatMap fun a =>
    let bytes := (List.range 32).map fun i => Sparse.get none g.mem (a + i)
    let mask := (bytes.zipIdx.foldl (fun n b => if b.1.isSome then n + 2 ^ b.2 else n) 0)
    let d := match Sparse.get none g.desc (a / 64) with | some d => d | none => Sparse.get Desc.zero m.desc (a / 64)
    natLe 8 a ++ natLe 4 mask ++ bytes.map (fun b => b.getD 0) ++ [d.fmt, d.scale])

/-- A level is complete: its event, and on to the level that holds it. -/
def State.completeUp (s : State) (l : Launch) : State :=
  if s.dev.doneIn 2 l.gid < l.nnodes ∨ (s.dev.endedLevel 2 l.gid).isSome = true then s
  else
    let t := (s.levelEvent l.part l.queue 2 l.gid l.jobid 0 0).endLevel 2 l.gid l.pid true
    if t.dev.doneIn 3 l.pid < l.ngraphs then t
    else
      let t := (t.levelEvent l.part l.queue 3 l.pid l.jobid 0 0).endLevel 3 l.pid l.jobid true
      if t.dev.doneIn 4 l.jobid < l.nphases then t
      else (t.levelEvent l.part l.queue 4 l.jobid l.jobid 0 0).endLevel 4 l.jobid 0 true

/-- The last unit of a launch has ended: signatures, commit, events. -/
def State.completeLaunch (s : State) (l : Launch) : State :=
  if l.dup && s.dev.m.signature l.stage0 != s.dev.m.signature l.stage1 then
    if l.mismatch then
      (((s.launchEvent l 1 3 0xFFFFFFFF 0).dropLaunch l.lid).endLevel 1 l.lid l.gid false).cancelPhaseOf l 3
    else s.requeue { l with mismatch := true }
  else
    let t := s.modMem fun m => m.commit l.stage0
    let t := (t.launchEvent l 0 0 0xFFFFFFFF 0).dropLaunch l.lid
    -- a replay of a launch on record as complete completes no second node
    (t.modDev fun d => { d with ended := ⟨1, l.lid, l.gid, l.node, l.n, true⟩ ::
      (d.ended.filter fun e => !(e.level == 1 && e.id == l.lid && e.parent == l.gid)) }).completeUp l

/-- The conditions of 01 R40 for the core in focus; a lease does not end while a quadrant of it is stopped (18 R482). -/
def State.unitDone (s : State) : Bool :=
  let u := s.u
  s.core.c.busy && !s.handling && s.core.c.pend.isNone &&
  ([Engine.c, .a, .v, .m, .x].all fun e => (u.eng e).ended) &&
  s.core.c.mat.mq.isEmpty && s.core.c.mat.cur.isNone && s.product.isNone && !s.quadStopped && s.core.x.xq.isEmpty &&
  ((List.range 8).all fun k => s.token k == 0) &&
  ([4, 5, 6, 7].all fun q => (s.queueOf q).isEmpty && (s.qbind q).isNone)

/-- The run that core `n` held has ended, and has freed it. -/
def Launch.endRun (l : Launch) (idx run n : Nat) : Launch :=
  { l with placed := l.placed.map fun p => if p.idx = idx ∧ p.run = run ∧ p.core = n then { p with ended := true } else p,
           freed := if l.freed.contains n then l.freed else l.freed ++ [n] }

/-- Every run of a launch has ended. -/
def Launch.allEnded (l : Launch) : Bool := (l.placed.filter Placed.ended).length == l.runs

/-- The limit of a launch in microseconds (16 R453, 20 R514). -/
def State.snuffLimit (s : State) (l : Launch) : Nat := if l.snuff = 0 then (s.queue l.part l.queue).limit else l.snuff

/-- A launch's snuffer has run out. -/
def State.snuffed (s : State) (l : Launch) : Bool :=
  match l.started with
  | some t => decide (t + s.snuffLimit l * 1000000 ≤ s.dev.now)
  | none => false

/-- UNIT_END (01 R40). A launch whose snuffer has run out no longer completes (21 R520). -/
def execUnitEnd (core : Nat) (s : State) : Outcome State Fault Refusal :=
  let t := s.focus core
  event s (.ok (
    if t.unitDone then
      let u := t.u
      let c := t.clearCore core
      match u.lid.bind t.launch? with
      | none => c
      | some l =>
        let l := l.endRun u.idx u.run core
        let c := c.setLaunch l
        if l.allEnded && !t.snuffed l && l.expired.isNone then c.completeLaunch l else c
    else t))

/-! ### Events (16 R443) -/

/-- The bytes of event record `n`. -/
def Event.bytes (e : Event) (n : Nat) : Bytes :=
  natLe 8 n ++ natLe 1 e.level ++ natLe 1 e.status ++ natLe 2 e.cause ++ natLe 4 e.count ++ natLe 8 e.id ++ natLe 8 e.jobid ++
  natLe 1 e.flags ++ natLe 3 0 ++ natLe 4 e.unit ++ natLe 8 e.addr ++ natLe 8 e.time ++ natLe 8 0

/-- EVENT_RECORD_WRITE: the oldest pending event of a queue, when its ring has room; then EVTSEQ and the MSI-X message. A poisoned queue
block is an uncorrectable error that the stream controller consumes (10 R361, 17 R462). -/
def execEventRecordWrite (p q : Nat) (s : State) : Outcome State Fault Refusal :=
  event s (.ok (
    let x := s.queue p q
    match x.events with
    | [] => s
    | e :: es =>
      let blk := queueBlock p q
      let n := x.seq + 1
      let cnt := s.anchorRead (blk + 24) 4
      if s.inService && s.anyPoisoned [(s.dev.anchor + blk, 64)] then s.deviceFault
      else if s.inService && s.dev.port.linkUp && decide (n - s.anchorRead (blk + 32) 8 ≤ cnt) then
        let a := s.anchorRead (blk + 16) 8 + 64 * ((n - 1) % max cnt 1)
        let t := s.modMem fun m => { m with host := Memory.writes m.host a (e.bytes n) }
        let t := (t.anchorWrite (blk + 40) (natLe 8 n)).setQueue p q { x with seq := n, events := es }
        if x.msix = 0xFF then t else t.modDev fun d => { d with port := { d.port with msix := d.port.msix ++ [x.msix] } }
      else s))

/-! ### KISSUE, SXFER, CANCEL (06 R238, R239) -/

/-- The die whose stream controller a lamplighter uses; other cores trap. -/
def State.dispatchDie (s : State) : M Nat := do
  chk (decide (512 ≤ s.cur)) .dispatchCore
  pure (s.cur - 512)

/-- KISSUE rd, s1, s2: hands over a launch record, with the transfers handed over before it (log 128). -/
def execKissue (rd : CReg) (s1 s2 : CSrc) (s : State) : Outcome State Fault Refusal :=
  lane .c s do
    let w := (s.valC s2).toNat
    s.onlyPrivileged
    s.useC [s1, s2] [rd]
    chk (decide (w < 2 ^ 12)) .reservedField
    let die ← s.dispatchDie
    let (t, bs) ← s.loadRange (s.valC s1).toNat 128
    if 64 ≤ t.boardUsed die then pure (t.setRd rd 1)
    else
      let feeds := t.dev.board.filter fun f => f.die == die && f.lid.isNone
      let u := t.modDev fun d => { d with board := d.board.filter fun f => !(f.die == die && f.lid.isNone) }
      let u := u.takeLaunch bs (s.valC s1).toNat (w % 16) (w / 16 % 16) (w / 256) die (some (feeds.map Feed.x))
      pure (u.stampReady.setRd rd 0)

/-- SXFER rd, s1: hands over a stream-transfer descriptor (log 127). -/
def execSxfer (rd : CReg) (s1 : CSrc) (s : State) : Outcome State Fault Refusal :=
  lane .c s do
    s.onlyPrivileged
    s.useC [s1] [rd]
    let die ← s.dispatchDie
    let (t, bs) ← s.loadRange (s.valC s1).toNat 64
    if 64 ≤ t.boardUsed die then pure (t.setRd rd 1)
    else
      let f := fieldOf bs
      let x : Xfer := ⟨f 0 8, f 8 4, f 12 2, f 14 1, f 16 2, false⟩
      pure ((t.modDev fun d => { d with board := d.board ++ [⟨die, none, x⟩] }).setRd rd 0)

/-- CANCEL rd, s1, level. A kernel that cancels its own launch stops with it. -/
def execCancel (rd : CReg) (s1 : CSrc) (lvl : BitVec 3) (s : State) : Outcome State Fault Refusal :=
  match (do
    s.onlyPrivileged
    s.useC [s1] [rd] : M PUnit) with
  | .error x => lane .c s (.error x)
  | .ok _ =>
    let (t, r) := s.cancel lvl.toNat (s.valC s1).toNat
    let t := t.stampReady
    if t.core.c.busy = s.core.c.busy then lane .c s (.ok (t.setRd rd (BitVec.ofNat 64 r))) else .next t

end Sys2Proof.Machine
end

