-- ==== Sys2Proof/Machine/Frames.lean ====
section
/-! DEFINITION. Delivery of contained traps and the standard firmware's action (17 R456-R460), the end of a correction freeze (17
R466), region pre-emption and restart (17 R475-R478), and the frame edge (19 R487-R491). -/

namespace Sys2Proof.Machine

open Sys2Proof Host

/-! ### Region pre-emption (17 R476, 01 R44, 10 R374) -/

/-- The control engine of the core in focus stands at a YIELD lane that issues. -/
def State.atYield (s : State) : Bool :=
  let p := s.u.eC
  s.canMove .c && (match s.u.line? p.serial with
    | none => false
    | some ln => match (s.lanesIn ln .c).find? fun l => decide (p.lane ≤ l.n) with
      | none => false
      | some l => (l.issue ln.iter).isSome && (match decodeInstr .c l.exts l.word with
        | .ok (.yieldI, _) => true
        | _ => false))

/-- A ready launch of higher priority waits in the partition of the launch of a core's unit (06 R228). -/
def State.outranked (s : State) (n : Nat) : Bool :=
  match (s.coreAt n).unit.lid.bind s.launch? with
  | none => false
  | some l => s.dev.launches.any fun x =>
      x.part == l.part && s.isReady x && !(s.unplaced x).isEmpty && decide (s.priority l < s.priority x)

/-- REGION_PREEMPTION: the stream controller pre-empts the open region of a unit that stands at YIELD, in favour of a waiting launch;
a region that R374 protects, or a unit of world 15, stays. -/
def execRegionPreemption (core : Nat) (s : State) : Outcome State Fault Refusal :=
  event s (.ok (
    if (s.focus core).atYield && (s.coreAt core).c.seq.region.isSome && s.outranked core && (s.coreAt core).mayLeave && s.allLeave core
    then s.preempt core else s))

/-! ### Region restart (17 R476, R478) -/

/-- Bind again what the shadow holds. -/
def State.restoreShadow (s : State) (sh : Shadow) : State :=
  let t := s.setU { s.u with sh := { s.u.sh with ts := sh.ts, cb := sh.cb } }
  (t.modA fun a => { a with cbc := sh.cbc }).modSeq fun q => { q with binds := sh.binds, shadow := sh }

/-- The live range of a record as it was kept. -/
def State.restoreLive (s : State) (r : Restart) : State :=
  let base := (recLive r.record).1
  let t := (s.setSpad regionRecord r.record).setSpad base r.live
  t.setCore { t.core with tag := Sparse.setMany Desc.zero t.core.tag (base / 64) r.tags }

/-- A restart on another core than the unit's own takes a region image (17 R477). -/
def Restart.moves (r : Restart) (n : Nat) : Bool := r.region.isSome && r.core != n

/-- Restart a unit on a core: from its region's entry line, or from unit start when no region was open. -/
def State.restartUnit (s : State) (r : Restart) (n : Nat) : State :=
  match s.launch? r.lid with
  | none => s
  | some l =>
    let s := if r.moves n then s.sendRegion r else s
    let t := (s.startUnit l r.idx r.run n).focus n
    let t := match r.region with
      | none => t
      | some line =>
        let t := ((t.restoreLive r).restoreRecord r.full r.record).restoreShadow r.shadow
        let t := t.setU { t.u with front := .line line false none }
        t.modSeq fun q => { q with region := some line, everGuarded := r.everGuarded, taken := r.taken, takenAt := r.taken, regionRb := 0 }
    ((t.setU { t.u with grans := r.grans }).logPlacement r.lid).focus s.cur

/-- A unit can restart on a core now, a replayed launch's on its logged core alone (20 R513); its image, when it moves, passes its
checks. -/
def State.canRestart (s : State) (l : Launch) (r : Restart) (n : Nat) : Bool :=
  (s.freeCores l).contains n && (match l.replay with | some cores => cores.getD r.idx 0 == n | none => true) &&
  (!r.moves n || s.regionOk r (s.regionImage r))

/-- Restart units, the first on core `n`, the others each on the best core left; none when one finds no core. -/
def State.restartAll (s : State) : Nat → List Restart → Option State
  | _, [] => some s
  | n, r :: rs =>
    let t := s.restartUnit r n
    match rs with
    | [] => some t
    | x :: _ => (t.launch? r.lid).bind fun l =>
        (t.bestCore ((t.freeCores l).filter (t.canRestart l x))).bind fun m => t.restartAll m rs

/-- The units that restart together with a waiting one. -/
def State.restartSet (s : State) (r : Restart) (l : Launch) : List Restart :=
  if l.gang then s.dev.waiting.filter fun x => x.lid == r.lid else [r]

/-- The restart, on core `n`, of the first waiting unit that can go there. -/
def State.tryRestart (s : State) (n : Nat) : List Restart → Option State
  | [] => none
  | r :: rs =>
    let here := (s.launch? r.lid).bind fun l =>
      if s.canRestart l r n && !s.dieDown (512 + l.die) && !(s.dev.resetting.any fun x => x.part == l.part) then
        let set := s.restartSet r l
        (s.restartAll n set).map fun t => t.modDev fun d => { d with waiting := d.waiting.filter fun x => !set.contains x }
      else none
    match here with
    | some t => some t
    | none => s.tryRestart n rs

/-- REGION_RESTART. -/
def execRegionRestart (core : Nat) (s : State) : Outcome State Fault Refusal :=
  event s (.ok (if s.inService then (s.tryRestart core s.dev.waiting).getD s else s))

/-! ### Trap delivery and the standard firmware (17 R456-R460) -/

/-- A debug unlock applies to a world (19 R497). -/
def State.unlocked (s : State) (w : Nat) : Bool := s.dev.sec.unlocked / 2 ^ w % 2 == 1

/-- The causes of containment (17 R460). -/
def memoryError (c : Nat) : Bool :=
  [Cause.uncorrectableStore, .poisonConsumed, .accumulatorUncorrectable, .sramUncorrectable].any fun x => x.code == c

/-- What the standard firmware does with a stale-grant: region pre-emption and restart, restart from unit start, or failure. -/
def State.staleGrant (s : State) (l : Launch) (idx : Nat) (addr : Nat) : State :=
  let q := s.core.c.seq
  if (if q.region.isSome then !q.guarded else !q.everGuarded) && s.allLeave s.cur then s.preempt s.cur
  else s.failLaunch l 4 Cause.staleGrant.code idx addr

/-- A command that has begun can still act for the unit whose handler runs in the core in focus (17 R456). -/
def State.begunActs (s : State) : Bool :=
  match s.core.sys.saved with
  | none => false
  | some u =>
    let w := (s.modSys fun y => { y with saved := none }).setU u
    w.product.isSome || (w.pickCopy true 0 [] w.core.x.xq).isSome || (w.nextGath 0 w.core.x.xq).isSome

/-- The standard firmware acts on the trap whose handler runs in the core in focus; under a debug unlock the handler's own lanes
decide after a precise trap, the only kind they could resume (17 R460). -/
def State.firmwareAction (s : State) : State :=
  match s.core.sys.saved with
  | none => s
  | some u =>
    if s.unlocked u.world && s.core.sys.tr.trep.getLsbD 20 then s
    else
      let c := s.core.sys.tr.trep.toNat % 1024
      let a := s.core.sys.tr.taddr.toNat
      match u.lid.bind s.launch? with
      | none => s.clearCore s.cur
      | some l =>
        if c = Cause.staleGrant.code then s.staleGrant l u.idx a
        else if memoryError c then s.contain l c u.idx a
        else s.failLaunch l 4 c u.idx a

/-- TRAP_DELIVERY: the waiting report of a contained trap is delivered, after a freeze; once the handler has been entered and the commands
that had begun have run to completion, the standard firmware takes its action. -/
def execTrapDelivery (core : Nat) (s : State) : Outcome State Fault Refusal :=
  let t := s.focus core
  event s (.ok (
    if t.dev.stateWord = 2 ∨ t.dev.powered = false ∨ t.core.sys.freeze ≠ 0 ∨ t.core.sys.stopped % 2 = 1 then t
    else match t.core.c.pend with
      | some r => if t.handling then t else t.deliver r.engine r.cause r.addr 0 r.lane
      | none => if t.begunActs then t else t.firmwareAction))

/-- CORRECTION_FREEZE_END: the cycles of the freeze pass, and the core resumes (08 R307, 17 R466). -/
def execCorrectionFreezeEnd (core : Nat) (s : State) : Outcome State Fault Refusal :=
  let t := s.focus core
  let n := t.core.sys.freeze
  event s (.ok (if n = 0 then t else (t.elapse n).modSys fun y => { y with freeze := 0 }))

/-! ### Frame edges (19 R487-R491) -/

/-- The saved copies of the lost lease of the core in focus, which go with its unit. -/
def State.lostSaves (s : State) : Sparse (Option LeaseSave) :=
  if s.core.c.mat.lost then s.lantern.saves.filter fun x => x.1 / 4 == s.cur % 4 else []

/-- Save the outgoing unit of the core in focus in its world's save area for the core and slot (19 R489). -/
def State.edgeSave (s : State) : State :=
  let qs := if s.core.c.mat.lost then 0 else s.core.c.mat.lease
  let (t, i) := s.capture s.cur (0x1F + 256 * qs) 0 0x1F0000
  let i := { i with lost := s.lostSaves }
  t.modDev fun d => { d with saves := Sparse.set none d.saves (256 * s.cur + 16 * s.core.sys.slot + i.c.u.world) (some i) }

/-- A quadrant that the outgoing unit of core `c` held, cleared and released, its record all zeros (17 R468). -/
def Quad.edgeRelease (c : Nat) (d : Quad) : Quad :=
  if d.holder = some c then { d.release c with rcd := Rcd.zero } else d

/-- Clear the core in focus at an edge: the state of R82, the whole scratchpad and tag array, the report; leased quadrants are
released, parked rows stay. -/
def State.edgeClear (s : State) : State :=
  let c := s.core.clear
  let y := c.sys
  let tr : TrapRegs := { TrapRegs.reset with tvec := y.tr.tvec, errcnt := y.tr.errcnt }
  let t := s.setCore { c with spad := [], tag := [], sys := { y with tr := tr } }
  if s.cur < 512 then
    let mask := s.core.c.mat.lease
    let l := (leaseQuads mask).foldl (fun (l : Lantern) q => l.setQuad q ((l.quad q).edgeRelease (s.cur % 4))) t.lantern
    let l := l.releaseLease (s.cur % 4) mask
    (t.setLantern l).arbiterPass (s.cur / 4)
  else t

/-- The checks of 17 R474 on a saved image of the core in focus: its width, its quadrants, its save counter. -/
def State.edgeChecks (s : State) (i : Image) : Bool :=
  i.vlanes == s.vlanes && ((leaseQuads (maskQuads i.segmap)).all fun q => hasQuad s.lantern.live q) &&
  decide (s.saveFloor i.world ≤ i.savecnt)

/-- Restore an image into the core in focus: its segments, its scratchpad with descriptors; the quadrants it leased wait for a
grant, their contents kept as saved, with the command in progress if they had one, through as many exchanges as pass before the grant (19
R489, R490). -/
def State.edgeRestore (s : State) (i : Image) : State :=
  let m := i.c.mat
  let t := s.setOwner s.cur 0x1F i.c.u.world
  let t := t.restore s.cur { i with segmap := 0x1F, c := { i.c with mat := { m with lease := 0 } } }
  let t := t.setCore { t.core with tag := i.tag }
  if m.lease = 0 then t
  else
    let l := t.lantern
    let saves := if m.lost then i.lost.foldl (fun sv x => Sparse.set none sv x.1 x.2) l.saves
      else (leaseQuads m.lease).foldl (fun sv q =>
        let d := Sparse.get Quad.reset i.quads q
        Sparse.set none sv (4 * (s.cur % 4) + q) (some ⟨d.acc, d.sw, d.ww, d.bad, d.cells, some d.rcd⟩)) l.saves
    ((t.setLantern { l with saves := saves }).modMat fun x => { x with lease := m.lease, lost := true }).awaitLease

/-- Restore the incoming world's unit, if one is saved, `back` lets its launch return and the rotation does not drain the core (20 R508); a
failed check fails its launch and leaves
the frame idle. -/
def State.edgeEnter (s : State) (w : Nat) (back : Option Nat → Bool) : State :=
  match s.savedUnit s.cur w with
  | none => s
  | some (k, i) =>
    if !back i.c.u.lid || s.core.sys.draining then s
    else if s.edgeChecks i then
      (s.edgeRestore i).modDev fun d => { d with saves := Sparse.set none d.saves k none }
    else match i.c.u.lid.bind s.launch? with
      | some l => s.failLaunch l 4 Cause.sealTag.code i.c.u.idx 0
      | none => s.modDev fun d => { d with saves := Sparse.set none d.saves k none }

/-- The cores whose saved units belong to a launch, with the units' world. -/
def State.savedOn (s : State) (lid : Option Nat) : List (Nat × Nat) :=
  s.dev.saves.filterMap fun x => match x.2 with
    | some i => if i.c.u.lid.isSome ∧ i.c.u.lid = lid then some (x.1 / 256, i.c.u.world) else none
    | none => none

/-- A launch is a gang. -/
def State.isGang (s : State) (lid : Option Nat) : Bool := match lid.bind s.launch? with | some l => l.gang | none => false

/-- A launch's saved unit may return: a gang's only with all the others, each to a core in a frame of its world that no other unit
keeps (01 R44) and the rotation does not drain (20 R508). -/
def State.returns (s : State) (lid : Option Nat) : Bool :=
  !s.isGang lid || (!(s.savedOn lid).isEmpty && (s.savedOn lid).all fun x =>
    s.frameAfter x.1 == some x.2 && !(s.coreAt x.1).sys.draining && (!(s.coreAt x.1).c.busy || s.exchanged x.1))

/-- The cores that exchange together with a core: those of the gang whose unit leaves it, and those to which a gang returns with the unit
that is saved for it. -/
def State.edgeLinks (s : State) (n : Nat) : List Nat :=
  (if s.exchanged n then s.leavers n else []) ++
  (match (s.frameAfter n).bind fun w => s.savedUnit n w with
    | some (_, i) => if s.isGang i.c.u.lid && s.returns i.c.u.lid then (s.savedOn i.c.u.lid).map Prod.fst else []
    | none => [])

/-- All cores that exchange together, with enough fuel for every core. -/
def State.edgeGroup (s : State) : Nat → List Nat → List Nat
  | 0, cs => cs
  | k + 1, cs =>
    let ds := (cs ++ cs.flatMap s.edgeLinks).eraseDups
    if ds.length = cs.length then cs else s.edgeGroup k ds

/-- The core in focus exchanges within its frame, with its gang: the unit is saved, or returns. -/
def State.midway (s : State) (leave : Bool) (back : Option Nat → Bool) : State :=
  let t := if leave then s.edgeSave.edgeClear else s
  if t.core.c.busy then t else t.edgeEnter s.core.sys.frameWorld back

/-- The edge of the core in focus: the unit is saved where it leaves, the core is cleared at a change of world, the next enabled slot's
frame begins, and the unit saved for its world returns. When no slot is left, the slot stays. -/
def State.edge (s : State) (leave : Bool) (back : Option Nat → Bool) : State :=
  let y := s.core.sys
  let z := y.atEdge
  let t := if leave then s.edgeSave.edgeClear else if s.worldChanges s.cur && !s.core.c.busy then s.edgeClear else s
  match z.following with
  | none => t.modSys fun w => { w with slots := z.slots, slotNext := z.slotNext, edge := y.edge + 2 ^ (Sparse.get Slot.off y.slots y.slot).len }
  | some (i, x) =>
    let t := t.modSys fun w => { w with slots := z.slots, slotNext := z.slotNext, slot := i, edge := y.edge + 2 ^ x.len, opened := y.edge }
    if t.core.c.busy then t else t.edgeEnter x.world back

/-- The exchange of a core with its group, as the state `s` before it decides it. -/
def State.exchangeOn (s t : State) (n : Nat) : State :=
  if s.edgeDue n then (t.focus n).edge (s.exchanged n) s.returns else (t.focus n).midway (s.exchanged n) s.returns

/-- The edge of a core can act: the core has come to its edge cycle, and none of the cores that exchange with it has to wait. -/
def State.edgeReady (s : State) (n : Nat) : Bool :=
  s.dev.stateWord != 2 && s.dev.powered && s.edgeDue n &&
  (s.edgeGroup 512 [n]).all fun m => !((s.exchanged m || (s.edgeDue m && s.worldChanges m)) && (s.focus m).edgeWaits)

/-- FRAME_EDGE: at or after a core's edge cycle. A gang is exchanged as a whole at the edge of any of its cores, once none of them has to
wait (01 R44; log 111). -/
def execFrameEdge (core : Nat) (s : State) : Outcome State Fault Refusal :=
  event s (.ok (if s.edgeReady core then ((s.edgeGroup 512 [core]).foldl s.exchangeOn s).focus core else s.focus core))

end Sys2Proof.Machine
end

