-- ==== Sys2Proof/Machine/HostPort.lean ====
section
/-! DEFINITION. The host port and start-up (16 R424-R426, R454; 17 R462; 20 R502, R517-R519): BAR0, the data and descriptor windows,
the kindling ROM, power and reset. -/

namespace Sys2Proof.Machine

open Sys2Proof Host

/-! ### The windows (16 R424, R425) -/

/-- A dropped write counts, saturating (16 R424). -/
def State.hostError (s : State) : State :=
  s.modDev fun d => { d with port := { d.port with hostErr := min (d.port.hostErr + 1) (2 ^ 64 - 1) } }

/-- The host reaches the device. -/
def State.hostReaches (s : State) : Bool := s.dev.powered && s.dev.port.linkUp

/-- The mapping of a data slice: base and key. -/
def State.slice? (s : State) (i : Nat) : Option (Nat × KeyId) := if i < 64 then Sparse.get none s.dev.port.slices i else none

/-- A host write of `n` bytes at `a` may be the first that gives a list's tail word a value: the list's first record is known then (16
R429; log 33). -/
def State.noteTails (s : State) (a n : Nat) : State :=
  let hit (off : Nat) : Bool := decide (a < s.dev.anchor + off + 8 ∧ s.dev.anchor + off < a + n)
  if s.dev.stateWord ≠ 1 then s
  else
    let t := if hit 0 && s.dev.mgmtFirst == 0 then s.modDev fun d => { d with mgmtFirst := s.anchorRead 0 8 } else s
    ((List.range 256).filter fun k => hit (0x1000 + 64 * k)).foldl (fun t k =>
      let x := t.queue (k / 16) (k % 16)
      if x.first = 0 then t.setQueue (k / 16) (k % 16) { x with first := t.anchorRead (0x1000 + 64 * k) 8 } else t) t

/-- HOST_WRITE_DATA_SLICE: the bytes are encrypted under the slice's key and stand in committed memory; a write through an
unmapped slice is dropped and counted. One access lies in one slice. -/
def execHostWriteDataSlice (slice off : Nat) (data : Bytes) (s : State) : Outcome State Fault Refusal :=
  event s (
    if !s.hostReaches then .ok s
    else match s.slice? slice with
      | none => .ok s.hostError
      | some (b, k) =>
        if 2 ^ 30 < off + data.length then .ok s.hostError
        else if memTop + 1 < b + off + data.length then .error (.fault (.absentMemory (b + off)))
        else .ok ((s.modMem fun m => (m.put k (b + off) data).repair (b + off) data.length).noteTails (b + off) data.length))

/-- HOST_WRITE_DESCRIPTOR: bytes 2i and 2i + 1 of a descriptor slice are the descriptor of block i of the range. -/
def execHostWriteDescriptor (slice off : Nat) (data : Bytes) (s : State) : Outcome State Fault Refusal :=
  event s (.ok (
    if !s.hostReaches then s
    else match s.slice? slice, data with
      | some (b, _), [f, e] =>
        if off % 2 = 0 ∧ off < 2 ^ 25 then
          s.modMem fun m => { m with desc := Sparse.set Desc.zero m.desc (b / 64 + off / 2) ⟨f, e⟩ }
        else s.hostError
      | _, _ => s.hostError))

/-- Committed bytes as the host reads them; the spec gives a poisoned granule's bytes no value, and they are free. -/
def State.hostBytes (s : State) (k : KeyId) (a n : Nat) : Bytes :=
  (s.dev.m.readKey Stage.empty k a n).zipIdx.map fun x =>
    if Sparse.get false s.dev.m.poison ((a + x.2) / 32 * 32) then Config.freeByte (s.dev.fresh + x.2) else x.1

/-- Bytes of a descriptor slice that maps the range at `b`: 2i and 2i + 1 are the descriptor of its block i (16 R425). -/
def State.sliceDescs (s : State) (b off n : Nat) : Bytes :=
  (List.range n).map fun i =>
    let d := Sparse.get Desc.zero s.dev.m.desc (b / 64 + (off + i) / 2)
    if (off + i) % 2 = 0 then d.fmt else d.scale

/-- HOST_READ_DATA_SLICE: committed contents under the slice's key, all ones through an unmapped slice; a number of 64 and above reads
that descriptor slice of BAR4. `lastRead` holds what the host got. -/
def execHostReadDataSlice (slice off len : Nat) (s : State) : Outcome State Fault Refusal :=
  event s (
    if !s.hostReaches then .ok s
    else
      let got (bs : Bytes) : State := s.modDev fun d => { d with port := { d.port with lastRead := bs }, fresh := d.fresh + len }
      match s.slice? (slice % 64) with
      | none => .ok (got (List.replicate len 0xFF))
      | some (b, k) =>
        if 64 ≤ slice then .ok (got (s.sliceDescs b off len))
        else if memTop + 1 < b + off + len then .error (.fault (.absentMemory (b + off)))
        else .ok (got (s.hostBytes k (b + off) len)))

/-! ### Start-up (20 R518, R519) -/

/-- The ROM's checks of a length: 0 started, 1 bad signature, 2 bad length, 3 memory training failed. -/
def State.bootCode (s : State) (n : Nat) : Nat :=
  if Config.trainingFails then 3
  else if n = 0 || !Config.bootLengthOk n then 2
  else if Config.firmwareOk (s.dev.m.readKey Stage.empty .default 0x18000000000 n) then 0 else 1

/-- The boot length is written: taken only while the state word reads 0. -/
def State.boot (s : State) (n : Nat) : State :=
  if s.dev.stateWord ≠ 0 then s.hostError
  else
    let c := s.bootCode n
    let h := if c = 0 then Config.sha512 (s.dev.m.readKey Stage.empty .default 0x18000000000 n) else s.dev.sec.fwHash
    s.modDev fun d => { d with port := { d.port with bootLen := n, bootErr := c }, sec := { d.sec with fwHash := h } }

/-- BOOT_LENGTH_WRITE. -/
def execBootLengthWrite (val : BitVec 32) (s : State) : Outcome State Fault Refusal :=
  event s (.ok (if s.hostReaches then s.boot val.toNat else s))

/-- BAR0_WRITE: every write but one of 4 bytes to the boot length is dropped and counted. -/
def execBar0Write (off : Nat) (data : Bytes) (s : State) : Outcome State Fault Refusal :=
  event s (.ok (
    if !s.hostReaches then s
    else if off = 0x1004 ∧ data.length = 4 then s.boot (leNat data)
    else s.hostError))

/-- The identity record (16 R426). The counts are those of manufacture; fenced cores and quadrants count too (20 R503). -/
def State.identity (s : State) : Bytes :=
  let cores := (List.range 512).filter fun n => (s.coreAt n).sys.enabled
  let full := cores.filter fun n => (s.coreAt n).sys.full
  let quads := ((List.range 128).map fun l => quadCount (s.lanternAt l).qlive).sum
  fit 128 (natLe 4 0x4C5A7160 ++ [3, 0] ++ natLe 2 0x0104 ++ natLe 8 s.dev.anchor ++ natLe 2 cores.length ++ natLe 2 full.length ++
    natLe 2 quads ++ List.replicate 10 0 ++ fit 16 Config.serial ++ List.replicate 16 0 ++ fit 64 Config.devid)

/-- A byte of BAR0 as the host reads it (16 R424). -/
def State.bar0 (s : State) (off : Nat) : Byte :=
  if off < 128 then s.identity.getD off 0
  else if 0x1000 ≤ off then
    (natLe 4 s.dev.stateWord ++ natLe 4 s.dev.port.bootLen ++ natLe 8 s.dev.port.bootErr ++ natLe 8 s.dev.port.hostErr).getD (off - 0x1000) 0
  else 0

/-- The ROM has started a verified image. -/
def State.booted (s : State) : Bool := s.dev.stateWord == 0 && s.dev.powered && s.dev.port.bootLen != 0 && s.dev.port.bootErr == 0

/-- The inventory's entry for a core (20 R502). -/
def State.inventoryByte (s : State) (n : Nat) : Byte :=
  let y := (s.coreAt n).sys
  BitVec.ofNat 8 ((s.lanternAt (n / 4)).live + (if y.full then 32 else 0) + (if y.fenced then 64 else 0) +
    (if y.enabled then 128 else 0))

/-- Write the inventory table. -/
def State.writeInventory (s : State) : State := s.anchorWrite 0x5000 ((List.range 512).map s.inventoryByte)

/-- Write the fault reports that wait for a ring (20 R507, R510). -/
def State.flushReports (s : State) : State :=
  let r := s.dev.rot
  if r.ring = 0 then s
  else
    let t := r.reports.foldl (fun (t : State) b =>
      let n := t.dev.rot.seq + 1
      (t.poke (r.ring + 64 * ((n - 1) % max r.count 1)) (natLe 8 n ++ b.2)).modDev fun d => { d with rot := { d.rot with seq := n } }) s
    t.modDev fun d => { d with rot := { d.rot with reports := [] } }

/-- Bytes 8 to 63 of a fault report (20 R510). -/
def faultReport (kind num : Nat) (used : List Nat) (passed now : Nat) : Bytes :=
  fit 56 (natLe 1 kind ++ natLe 2 num ++ natLe 1 0 ++ natLe 4 used.length ++ natLe 8 (passed / 1000) ++ natLe 8 (now / 1000) ++
    (used.take 4).flatMap (natLe 8))

/-- A fault report is written, or held until a ring is given; `passed` is the start of the last passed test of what it reports. -/
def State.report (s : State) (passed : Nat) (b : Bytes) : State :=
  (s.modDev fun d => { d with rot := { d.rot with reports := d.rot.reports ++ [(passed, b)] } }).flushReports

/-- The handler entry of every core and lamplighter. -/
def State.setTvec (s : State) (v : Word) : State :=
  (List.range 520).foldl (fun (t : State) n =>
    let c := t.coreAt n
    t.setCoreAt n { c with sys := { c.sys with tr := { c.sys.tr with tvec := BitVec.ofNat 64 (v.toNat % 2 ^ 56 / 32 * 32) } } }) s

/-- A test of the start-up pass on a core: passed now, or fenced with a report that waits for its ring. -/
def State.firstTestCore (s : State) (n : Nat) : State :=
  let c := s.coreAt n
  if !c.sys.enabled || c.sys.fenced then s
  else if Config.startTest s.dev.fresh n then
    (s.setCoreAt n { c with sys := { c.sys with passed := s.dev.now } }).addHealth (n / 64) 1 1
  else
    ((s.setCoreAt n { c with sys := { c.sys with fenced := true } }).addHealth (n / 64) 2 1).report c.sys.passed
      (faultReport 1 n c.sys.used c.sys.passed s.dev.now)

/-- On a quadrant, numbered 4 × lantern + quadrant. -/
def State.firstTestQuad (s : State) (k : Nat) : State :=
  let l := s.lanternAt (k / 4)
  let q := k % 4
  let d := l.quad q
  if !hasQuad l.live q then s
  else if Config.startTest s.dev.fresh (512 + k) then
    (s.setLanternAt (k / 4) (l.setQuad q { d with passed := s.dev.now })).addHealth (k / 64) 1 1
  else
    ((s.setLanternAt (k / 4) (l.setQuad q { d with fenced := true })).addHealth (k / 64) 2 1).report d.passed
      (faultReport 2 k d.used d.passed s.dev.now)

/-- The first rotation pass, on every die: each core and quadrant of the part passes or fails a test that starts now (log 138). -/
def State.firstPass (s : State) : State :=
  let t := (List.range 512).foldl State.firstTestCore s
  let t := (List.range 512).foldl State.firstTestQuad t
  t.modDev fun d => { d with rot := { d.rot with conf := d.now }, fresh := d.fresh + 1 }

/-- The dispatch program starts on a lamplighter: a unit of world 15 and of no launch, with a control engine only (01 R14; log 112). -/
def State.startDispatch (s : State) (n : Nat) : State :=
  let c := (s.coreAt n).clear
  let off : EngPos := { EngPos.start with ended := true }
  s.setCoreAt n { c with c := { c.c with busy := true, u := { UnitCtx.reset with
    front := .line (Config.dispatchEntry / 32 * 32) false none, eA := off, eV := off, eM := off, eX := off } } }

/-- FIRMWARE_START: the anchor block is reserved and slice 0 maps the range that holds it under the world-15 memory key (log 36);
the inventory, one rotation pass, then the state word 1 and the dispatch program on every lamplighter. -/
def execFirmwareStart (anchor : Nat) (tvec : Word) (s : State) : Outcome State Fault Refusal :=
  event s (.ok (
    if s.booted then
      let t := s.modDev fun d => { d with
        anchor := anchor
        port := { d.port with slices := Sparse.set none d.port.slices 0 (some (anchor / 2 ^ 30 * 2 ^ 30, .firmware)) } }
      let t := (((t.writeInventory).setTvec tvec).firstPass).writeInventory
      (List.range 8).foldl (fun u d => u.startDispatch (512 + d)) (t.modDev fun d => { d with stateWord := 1 })
    else s))

/-! ### Power and reset (16 R454; 17 R462; 20 R503, R517, R518) -/

/-- What fuses keep of a core: its class, whether it is enabled, whether it is fenced. Frame edges count from the reset. -/
def Core.cold (c : Core) : Core :=
  { Core.reset with sys := { CoreSys.reset with enabled := c.sys.enabled, full := c.sys.full, fenced := c.sys.fenced } }

/-- What fuses keep of a lantern. -/
def Lantern.cold (l : Lantern) : Lantern :=
  ({ Lantern.reset with qlive := l.qlive }).mapQuads fun q d => { d with fenced := (l.quad q).fenced }

/-- Device memory after a reset: what was written before reads as unknown bytes under any key (log 37). -/
def Mem.forget (m : Mem) (n : Nat) : Mem :=
  { m with key := m.key.map fun x => (x.1, x.2.map fun _ => KeyId.lost n), home := [], offline := 0 }

/-- The device at cold reset: the state of `State.reset` with what fuses and the security controller keep for life; with slice 0
mapped by the kindling ROM (20 R518). -/
def State.coldReset (s : State) : State :=
  let d := s.dev
  { cur := 0
    agenda := s.agenda
    cores := s.cores.foldl (fun m x => Sparse.set Core.reset m x.1 x.2.cold) []
    lanterns := s.lanterns.foldl (fun m x => Sparse.set Lantern.reset m x.1 x.2.cold) []
    dev := { Device.reset with
      m := d.m.forget d.fresh
      sec := { Device.reset.sec with iv := d.sec.iv, serial := d.sec.serial, reports := d.sec.reports }
      fresh := d.fresh + 1 } }

/-- POWER_ON. -/
def execPowerOn (s : State) : Outcome State Fault Refusal := event s (.ok s.coldReset)

/-- DEVICE_RESET: counters, unlocks and save state are cleared; a device without power stays so. -/
def execDeviceReset (s : State) : Outcome State Fault Refusal :=
  event s (.ok (if s.dev.powered then s.coldReset else s))

/-- HOST_LINK_LOSS: a device-level fault while launches are live. -/
def execHostLinkLoss (s : State) : Outcome State Fault Refusal :=
  event s (.ok (
    let t := s.modDev fun d => { d with port := { d.port with linkUp := false } }
    if s.dev.launches.any fun l => l.state != .failed then t.deviceFault else t))

/-- JUNCTION_OVERTEMP: a device-level fault, and no power for the passenger dies. -/
def execJunctionOvertemp (s : State) : Outcome State Fault Refusal :=
  event s (.ok (s.deviceFault.modDev fun d => { d with powered := false }))

/-- UNCORRECTABLE_ERROR in a controller, a router or world-15 state: a device-level fault. -/
def execUncorrectableError (s : State) : Outcome State Fault Refusal := event s (.ok s.deviceFault)

end Sys2Proof.Machine
end

