-- ==== Sys2Proof/Machine/Lanes.lean ====
section
/-! DEFINITION. Vector moves, constants, the mask stack, the skip and the choice of shape register (07 R263-R272). -/

namespace Sys2Proof.Machine

open Sys2Proof Host

/-! ### Moves (07 R263-R268) -/

/-- VMOV vd, vs1 (07 R263). -/
def execVmov (vd : VDst) (vs1 : VSrc) (s : State) : Outcome State Fault Refusal := lane .v s (s.vmoveBits vd vs1 fun _ a => a)

/-- VSHUF vd, vs1, vs2 (07 R264). -/
def execVshuf (vd : VDst) (vs1 vs2 : VSrc) (s : State) : Outcome State Fault Refusal :=
  lane .v s do
    s.useV [vs1, vs2]
    let a := s.valV vs1
    let b := s.valV vs2
    let c := a.code
    let w := fmtWidth c
    chk (b.code != 0) .rawOperand
    chk (fmtI b.code && fmtWidth b.code == w) .mixedFormat
    let (ls, fl) := s.buildLanes vd c fun k =>
      let j := b.lane w k
      (if j < s.lanes c then a.lane w j else 0, 0)
    s.finishV [vs1, vs2] vd (mkElem a.fmt a.scales w ls) fl

/-- VSLIDE vd, vs1, s (07 R265). -/
def execVslide (vd : VDst) (vs1 : VSrc) (n : BitVec 10) (s : State) : Outcome State Fault Refusal :=
  lane .v s do
    s.useV [vs1]
    let a := s.valV vs1
    let c := a.code
    let w := fmtWidth c
    chk (decide (n.toInt.natAbs < s.lanes c)) .immediateRange
    let (ls, fl) := s.buildLanes vd c fun k =>
      let j : Int := (k : Int) + n.toInt
      (if 0 ≤ j ∧ j < (s.lanes c : Int) then a.lane w j.toNat else 0, 0)
    s.finishV [vs1] vd (mkElem a.fmt a.scales w ls) fl

/-- VBCAST vd, vs1, i (07 R265). -/
def execVbcast (vd : VDst) (vs1 : VSrc) (i : BitVec 8) (s : State) : Outcome State Fault Refusal :=
  lane .v s do
    s.useV [vs1]
    let a := s.valV vs1
    let c := a.code
    let w := fmtWidth c
    chk (decide (i.toNat < s.lanes c)) .immediateRange
    let (ls, fl) := s.buildLanes vd c fun _ => (a.lane w i.toNat, 0)
    let sc := s.fitScales (List.replicate 4 (BitVec.ofNat 8 (a.laneScale w i.toNat)))
    s.finishV [vs1] vd (mkElem a.fmt sc w ls) fl

/-- VSPLAT vd, xs, fmt (07 R266). -/
def execVsplat (vd : VDst) (xs : CSrc) (fmt : BitVec 7) (s : State) : Outcome State Fault Refusal :=
  lane .v s do
    let c := fmt.toNat
    chk (fmtOk c) .reservedFormat
    chk (!([8, 9, 10].contains c)) .unsupportedFormat
    s.useX .v [xs]
    let w := fmtWidth c
    let x := (s.valX .v xs).toNat % 2 ^ w
    let (ls, fl) := s.buildLanes vd c fun _ => (x, 0)
    s.finishV [] vd (mkElem (fmt.setWidth 8) unitScales w ls) fl

/-- What VEXTR takes of a lane: sign-extended for INT8, INT16, INT32 and INT64 (07 R267). -/
def extrFn (c n : Nat) : Word :=
  if c = 1 ∨ c = 3 ∨ c = 4 ∨ c = 5 then BitVec.ofInt 64 (intOf c n) else BitVec.ofNat 64 n

/-- VEXTR xd, vs1, i (07 R267). -/
def execVextr (xd : CReg) (vs1 : VSrc) (i : BitVec 8) (s : State) : Outcome State Fault Refusal :=
  lane .v s do
    s.useV [vs1]
    let a := s.valV vs1
    let c := a.code
    chk (decide (i.toNat < s.lanes c)) .immediateRange
    chk ((s.view .v).inFrame xd.toNat) .frameBounds
    pure ((s.takeV [vs1]).writeX .v xd.toNat (extrFn c (a.lane (fmtWidth c) i.toNat)))

/-- The pattern of VLI's immediate and its flags (07 R268). -/
def vliFn (c : Nat) (i : Int) : Nat × Nat :=
  if fmtI c then (wrapBits (fmtWidth c) i, 0) else encodeVal c 0 0 (Val.ofInt i)

/-- VLI vd, imm (07 R268). -/
def execVli (vd : VDst) (imm : Imm 17) (s : State) : Outcome State Fault Refusal :=
  lane .v s do
    let c := s.curShape.afmt.toNat
    let i := immS imm
    chk (!fmtI c || decide (fmtMin c ≤ i ∧ i ≤ fmtMax c)) .immediateRange
    accept [c] fun c => fmtI c || fmtF8 c || fmtF c
    let (ls, fl) := s.buildLanes vd c fun _ => vliFn c i
    s.finishV [] vd (mkElem s.curShape.afmt unitScales (fmtWidth c) ls) fl

/-! ### The mask stack (07 R269, R270; 02 R60) -/

/-- A mask with the lanes for which a condition holds. -/
def maskOf (f : Nat → Bool) : BitVec 256 :=
  BitVec.ofNat 256 ((List.range 256).foldl (fun n k => if f k then n + 2 ^ k else n) 0)

/-- VCMP.cond vs1, vs2 (07 R269). -/
def execVcmp (vs1 vs2 : VSrc) (cond : BitVec 3) (s : State) : Outcome State Fault Refusal :=
  lane .v s do
    chk (decide (cond.toNat ≤ 6)) .reservedField
    s.useV [vs1, vs2]
    let a := s.valV vs1
    let b := s.valV vs2
    let c := a.code
    accept [c, b.code] fun c => fmtF c || (fmtI c && cond.toNat != 6)
    chk (c == b.code) .mixedFormat
    chk (decide (s.core.v.mask.length < 16)) .maskOverflow
    let w := fmtWidth c
    let at' (k : Nat) : Bool × Nat := vcmpHolds cond.toNat c (a.lane w k) (b.lane w k)
    let act := (List.range (s.lanes c)).filter (s.active c)
    let m := maskOf fun k => act.contains k && (at' k).1
    let t := (s.takeV [vs1, vs2]).raiseFv (act.foldl (fun n k => n ||| (at' k).2) 0)
    pure (t.modV fun v => { v with mask := m :: v.mask })

/-- G: bits 0 to GVL − 1. -/
def State.gvlMask (s : State) : BitVec 256 := maskOf fun k => decide (k < s.curShape.gvl.toNat)

/-- VMINV (07 R270). -/
def execVminv (s : State) : Outcome State Fault Refusal :=
  lane .v s do
    match s.core.v.mask with
    | [] => trap .maskUnderflow
    | top :: rest =>
      let below := rest.headD (BitVec.allOnes 256)
      pure (s.modV fun v => { v with mask := (~~~top &&& below &&& s.gvlMask) :: rest })

/-- VMPOP n, the field holding n − 1 (07 R270). -/
def execVmpop (n : BitVec 4) (s : State) : Outcome State Fault Refusal :=
  lane .v s do
    chk (decide (n.toNat + 1 ≤ s.core.v.mask.length)) .maskUnderflow
    pure (s.modV fun v => { v with mask := v.mask.drop (n.toNat + 1) })

/-- VMGET vd, d (07 R270). -/
def execVmget (vd : VDst) (d : BitVec 4) (s : State) : Outcome State Fault Refusal :=
  lane .v s do
    match s.core.v.mask[d.toNat]? with
    | none => trap .maskUnderflow
    | some m => s.finishV [] vd ⟨0x0A, unitScales, padData (natLe 32 m.toNat)⟩ 0

/-- VSKIP label (07 R271, 01 R37, R38; the offset is unsigned, 05 R177): taken when the top entry is empty; a group switch for the vector engine. -/
def execVskip (off : Imm 24) (s : State) : Outcome State Fault Refusal :=
  lane .v s do
    match s.core.v.mask with
    | [] => pure s
    | top :: _ =>
      if top = 0 then do
        chk (decide (0 < immU off)) .skipRange
        let p := s.u.eV
        let k : Skip := ⟨s.lineAddr .v + 32 * immU off, p.serial, p.lane, p.idx⟩
        pure ((s.setU { s.u with eV := { p with skip := some k } }).emptyLatches .v)
      else pure s

/-- VSETSH sh (07 R272). -/
def execVsetsh (h : ShReg) (s : State) : Outcome State Fault Refusal :=
  lane .v s (.ok (s.modV fun v => { v with curSh := h }))

end Sys2Proof.Machine
end

