-- ==== Sys2Proof/Machine/Scalar.lean ====
section
/-! DEFINITION. Loads, stores and atomics of the control engine, the binding table, the acquire operations, LOCQ (06
R200-R204, R206, R208, R229, R231). -/

namespace Sys2Proof.Machine

open Sys2Proof Host

/-- The address of a load or store (06 R200). -/
def State.offsetAddr (s : State) (s1 : CSrc) (off : Imm 9) : Word := s.valC s1 + immWord off

/-- An old value or a loaded one, sign-extended from `n` bytes (06 R200, R202). -/
def sextBytes (n v : Nat) : Word := BitVec.ofInt 64 (signed (8 * n) v)

/-- LD.sz rt, [s1 + off] (06 R200). -/
def execLd (rt : CReg) (s1 : CSrc) (sz : BitVec 2) (sg : Bool) (off : Imm 9) (s : State) : Outcome State Fault Refusal :=
  lane .c s do
    s.useC [s1] [rt]
    let n := 2 ^ sz.toNat
    let (t, v) ← s.loadG (s.offsetAddr s1 off) n
    pure (t.setRd rt (if sg then sextBytes n v else BitVec.ofNat 64 v))

/-- ST.sz rt, [s1 + off] (06 R200). -/
def execSt (rt s1 : CSrc) (sz : BitVec 2) (off : Imm 9) (s : State) : Outcome State Fault Refusal :=
  lane .c s do
    s.useC [rt, s1] []
    s.storeG (s.offsetAddr s1 off) (2 ^ sz.toNat) (s.valC rt).toNat

/-- The width of an atomic in bytes (06 R202). -/
def amoBytes (wide : Bool) : Nat := if wide then 8 else 4

/-- An atomic: one indivisible step on memory, the old value to rd (06 R202). `f` takes the width in bits, the old value and
the operand taken to the width. -/
def State.amo (s : State) (rd : CReg) (s1 s2 : CSrc) (more : List CSrc) (scope : Scope) (wide : Bool)
    (f : Nat → Nat → Nat → Nat) : M State := do
  s.useC ([s1, s2] ++ more) [rd]
  let n := amoBytes wide
  let v := (s.valC s2).toNat % 2 ^ (8 * n)
  let (t, old) ← s.atomicG (s.valC s1) n (decide (scope = .sys)) fun old => f (8 * n) old v % 2 ^ (8 * n)
  pure (t.setRd rd (sextBytes n old))

/-- AMOADD (06 R202). -/
def execAmoAdd (rd : CReg) (s1 s2 : CSrc) (scope : Scope) (wide : Bool) (s : State) : Outcome State Fault Refusal :=
  lane .c s (s.amo rd s1 s2 [] scope wide fun _ old v => old + v)

/-- AMOAND (06 R202). -/
def execAmoAnd (rd : CReg) (s1 s2 : CSrc) (scope : Scope) (wide : Bool) (s : State) : Outcome State Fault Refusal :=
  lane .c s (s.amo rd s1 s2 [] scope wide fun _ old v => old &&& v)

/-- AMOOR (06 R202). -/
def execAmoOr (rd : CReg) (s1 s2 : CSrc) (scope : Scope) (wide : Bool) (s : State) : Outcome State Fault Refusal :=
  lane .c s (s.amo rd s1 s2 [] scope wide fun _ old v => old ||| v)

/-- AMOXOR (06 R202). -/
def execAmoXor (rd : CReg) (s1 s2 : CSrc) (scope : Scope) (wide : Bool) (s : State) : Outcome State Fault Refusal :=
  lane .c s (s.amo rd s1 s2 [] scope wide fun _ old v => old ^^^ v)

/-- AMOMIN: the signed minimum (06 R202). -/
def execAmoMin (rd : CReg) (s1 s2 : CSrc) (scope : Scope) (wide : Bool) (s : State) : Outcome State Fault Refusal :=
  lane .c s (s.amo rd s1 s2 [] scope wide fun w old v => if signed w old ≤ signed w v then old else v)

/-- AMOMAX: the signed maximum (06 R202). -/
def execAmoMax (rd : CReg) (s1 s2 : CSrc) (scope : Scope) (wide : Bool) (s : State) : Outcome State Fault Refusal :=
  lane .c s (s.amo rd s1 s2 [] scope wide fun w old v => if signed w v ≤ signed w old then old else v)

/-- AMOXCH (06 R202). -/
def execAmoXch (rd : CReg) (s1 s2 : CSrc) (scope : Scope) (wide : Bool) (s : State) : Outcome State Fault Refusal :=
  lane .c s (s.amo rd s1 s2 [] scope wide fun _ _ v => v)

/-- AMOCAS: the new value only if the old one equals s3 taken to the width; it writes either way (06 R202). -/
def execAmoCas (rd : CReg) (s1 s2 s3 : CSrc) (scope : Scope) (wide : Bool) (s : State) : Outcome State Fault Refusal :=
  lane .c s (s.amo rd s1 s2 [s3] scope wide fun w old v => if old = (s.valC s3).toNat % 2 ^ w then v else old)

/-! ### Bindings -/

/-- BIND.scope s1, s2, s3: a binding is identified by object and base (06 R203). -/
def execBind (s1 s2 s3 : CSrc) (scope : Scope) (s : State) : Outcome State Fault Refusal :=
  lane .c s do
    s.useC [s1, s2, s3] []
    scalarAddr (s.valC s1) 64
    let obj := (s.valC s1).toNat
    let base := (s.valC s2).toNat
    let len := (s.valC s3).toNat
    chk (decide (base % 64 = 0 ∧ len % 64 = 0 ∧ 64 ≤ len ∧ len ≤ 2 ^ 40)) .bindRegion
    let bs := s.core.c.seq.binds
    if bs.any fun b => b.obj == obj && b.base == base then
      pure (s.modSeq fun q => { q with binds := bs.map fun b =>
        if b.obj = obj ∧ b.base = base then ⟨obj, base, len, scope⟩ else b })
    else do
      chk (decide (bs.length < 16)) .bindFull
      pure (s.modSeq fun q => { q with binds := bs ++ [⟨obj, base, len, scope⟩] })

/-- UNBIND.scope s1, s2 (06 R204). -/
def execUnbind (s1 s2 : CSrc) (scope : Scope) (s : State) : Outcome State Fault Refusal :=
  lane .c s do
    s.useC [s1, s2] []
    scalarAddr (s.valC s1) 64
    let obj := (s.valC s1).toNat
    let base := (s.valC s2).toNat
    let bs := s.core.c.seq.binds
    match bs.find? fun b => b.obj == obj && b.base == base with
    | none => pure s
    | some b => do
      chk (decide (b.scope = scope)) .bindRegion
      pure (s.modSeq fun q => { q with binds := bs.filter fun b => !(b.obj == obj && b.base == base) })

/-! ### Acquire operations -/

/-- ACQ.scope rd, s1, s2: waits until the sequence word reaches s2 (06 R206). -/
def execAcq (rd : CReg) (s1 s2 : CSrc) (_scope : Scope) (s : State) : Outcome State Fault Refusal :=
  lane .c s do
    s.useC [s1, s2] [rd]
    scalarAddr (s.valC s1) 64
    let (t, v) ← s.loadG (s.valC s1) 8
    holdUntil (decide ((s.valC s2).toNat ≤ v))
    pure (t.setRd rd (BitVec.ofNat 64 v))

/-- WAITMEM.scope rd, s1, s2: waits until the word differs from s2 (06 R231). -/
def execWaitmem (rd : CReg) (s1 s2 : CSrc) (_scope : Scope) (s : State) : Outcome State Fault Refusal :=
  lane .c s do
    s.useC [s1, s2] [rd]
    let (t, v) ← s.loadG (s.valC s1) 8
    holdUntil (decide (BitVec.ofNat 64 v ≠ s.valC s2))
    pure (t.setRd rd (BitVec.ofNat 64 v))

/-! ### LOCQ -/

/-- The home socket of a frame of device memory (20 R501): the linear table, or where die offline moved it. -/
def Mem.homeOf (m : Mem) (pa : Nat) : Nat :=
  match Sparse.get none m.home (pa / 65536) with
  | some h => h
  | none => if pa < 0x18000000000 then pa / 0x3000000000 else 8 + (pa - 0x18000000000) / 0x2000000000

/-- What LOCQ gives for an address (06 R229). An address whose walk meets a poisoned or absent granule, or ends where no
device memory is, counts as unmapped (log 22). -/
def State.locate (s : State) (a : Word) : State × Word :=
  match (do
    scalarAddr a 1
    s.translate s.u.world a.toNat .read : M (State × TlbEntry × Nat)) with
  | .error _ => (s, 0x8000000000000000)
  | .ok (t, e, pa) =>
    if e.target = 1 then (t, BitVec.ofNat 64 (2 * 16 + 12))
    else if e.target = 2 then (t, BitVec.ofNat 64 (3 * 16 + 13 + Config.peerDie pa % 3))
    else if pa > memTop then (t, 0x8000000000000000)
    else
      let h := t.dev.m.homeOf pa
      (t, BitVec.ofNat 64 ((if h = dieOf t.cur then 0 else 16) + h))

/-- LOCQ rd, s1: never traps on its address (06 R229). -/
def execLocq (rd : CReg) (s1 : CSrc) (s : State) : Outcome State Fault Refusal :=
  lane .c s do
    s.useC [s1] [rd]
    let (t, v) := s.locate (s.valC s1)
    pure (t.setRd rd v)

end Sys2Proof.Machine
end

