-- ==== Sys2Proof/Machine/Manage.lean ====
section
/-! DEFINITION. The management list and its requests (16 R430-R432, R452; 13 R399-R402; 19 R483-R498; 20 R504-R507, R511-R513). -/

namespace Sys2Proof.Machine

open Sys2Proof Host

/-! ### The list (16 R430) -/

/-- The next request: its address and 256 bytes. -/
def State.request? (s : State) : Option (Nat × Bytes) :=
  if s.inService then (s.nextRecord s.dev.mgmtFirst s.dev.mgmt).map fun a => (a, s.peek a 256) else none

/-- What a request comes to: a state, with the RESULT once its effects are complete. -/
abbrev Done := State × Option Nat

/-- The request is complete with a result. -/
def State.result (s : State) (r : Nat) : Done := (s, some r)

/-- A RESULT that the spec does not give, for payload fields outside their ranges: free, and nothing else changes (log 38). -/
def State.openResult (s : State) : Done :=
  let f := s.dev.fresh
  (s.modDev fun d => { d with fresh := f + 4 }, some (leNat ((List.range 4).map fun i => Config.freeByte (f + i))))

/-- The controller reads bytes that a request names; a poisoned granule there is an uncorrectable error in the controller, a device-level
fault (10 R361, 17 R462; log 150). -/
def State.reading (s : State) (a n : Nat) (f : Bytes → Done) : Done :=
  if s.dev.m.poisoned Stage.empty a n then (s.deviceFault, none) else f (s.peek a n)

/-- Perform the next request when its CODE is the given one and its payload fits; RESULT follows the effects. The list must not stand in
poisoned memory. -/
def State.manage (s : State) (code : Nat) (fits : Bytes → Bool) (f : State → Bytes → Done) : State :=
  if s.inService && s.anyPoisoned (s.listReads s.dev.anchor s.dev.mgmtFirst s.dev.mgmt 256) then s.deviceFault
  else match s.request? with
  | none => s
  | some (a, r) =>
    if fieldOf r 8 2 = code ∧ fits r = true then
      let k := s.keyAt a
      match f s r with
      | (t, none) => t
      | (t, some n) => (t.modMem fun m => m.put k (a + 12) (natLe 4 n)).modDev fun d => { d with mgmt := a }
    else s

/-- Any payload. -/
def anyPayload (_ : Bytes) : Bool := true

/-- A request that depends only on its payload. -/
def request (code : Nat) (f : State → Bytes → Done) (s : State) : Outcome State Fault Refusal :=
  event s (.ok (s.manage code anyPayload f))

/-! ### Partitions and queues (16 R431, R432, R452) -/

/-- Another partition holds a lantern of a mask. -/
def State.maskTaken (s : State) (p mask : Nat) : Bool :=
  (List.range 16).any fun i => i != p && match s.part? i with
    | some x => (List.range 128).any fun l => x.has l && mask / 2 ^ l % 2 == 1
    | none => false

/-- A partition holds running work. -/
def State.partRuns (s : State) (p : Nat) : Bool := s.dev.launches.any fun l => l.part == p && l.state == .running

/-- Set partition. -/
def doSetPartition (s : State) (r : Bytes) : Done :=
  let p := fieldOf r 16 1
  let home := fieldOf r 17 1
  let aging := fieldOf r 20 4
  let mask := fieldOf r 32 16
  if 16 ≤ p ∨ 8 ≤ home then s.openResult
  else if aging ≠ 0 ∧ (aging < 100 ∨ 100000 < aging) then s.result 3
  else if s.maskTaken p mask then s.result 1
  else if s.partRuns p then s.result 2
  else
    (s.modDev fun d => { d with parts := Sparse.set none d.parts p (some ⟨mask, home, if aging = 0 then 2000 else aging⟩) }).result 0

/-- SET_PARTITION. -/
def execSetPartition (s : State) : Outcome State Fault Refusal := request 0x0010 doSetPartition s

/-- Set queue. -/
def doSetQueue (s : State) (r : Bytes) : Done :=
  let f (o n : Nat) : Nat := fieldOf r o n
  if 16 ≤ f 16 1 ∨ 16 ≤ f 17 1 ∨ 4 ≤ f 18 1 ∨ 15 ≤ f 19 1 then s.openResult
  else if f 24 8 < 100 ∨ 3600000000 < f 24 8 then s.result 1
  else
    let q := s.queue (f 16 1) (f 17 1)
    (s.setQueue (f 16 1) (f 17 1)
      { q with prio := f 18 1, world := f 19 1, enabled := f 20 1 != 0, msix := f 21 1, limit := f 24 8 }).result 0

/-- SET_QUEUE. -/
def execSetQueue (s : State) : Outcome State Fault Refusal := request 0x0011 doSetQueue s

/-- The gangs of a partition that no longer fit are cancelled with their phase (01 R44, 16 R452). -/
def State.cancelUnfit (s : State) (p : Nat) : State :=
  (s.dev.launches.filter fun l => l.part == p && l.gang).foldl (fun t l =>
    match t.launch? l.lid with
    | some l => if (t.gangRefusal l).isSome then t.cancelPhaseOf l 1 else t
    | none => t) s

/-- A saved unit becomes a unit that waits for its restart; what it has parked still stands in its lantern. -/
def Image.toRestart (i : Image) (l : Lantern) (lid : Nat) : Restart :=
  ({ Core.reset with c := i.c, a := i.a, v := i.v, spad := i.spad, tag := i.tag,
                     sys := { CoreSys.reset with full := i.vlanes == 64 } }).toRestart l i.core lid

/-- Units of a launch of the partition saved on departing cores leave them, when R374 lets them. -/
def State.leaveSaved (s : State) (p : Nat) (x : Part) : State :=
  s.dev.saves.foldl (fun t e => match e.2 with
    | none => t
    | some i => match i.c.u.lid.bind t.launch? with
      | none => t
      | some l =>
        if l.part = p ∧ !l.gang ∧ x.lost i.core ∧ !(i.c.seq.region.isSome && i.c.seq.guarded) then
          let r := i.toRestart (t.lanternAt (i.core / 4)) l.lid
          let t := t.setLaunch { l with placed := l.placed.filter fun y => !(y.idx == r.idx && y.run == r.run) }
          let t := t.setLanternAt (i.core / 4) ((t.lanternAt (i.core / 4)).mapQuads fun _ d => d.unparkAll (i.core % 4) i.c.u)
          t.modDev fun d => { d with saves := Sparse.set none d.saves e.1 none, waiting := d.waiting ++ [r] }
        else t) s

/-- The cores of a partition's units: where they run or are saved. -/
def State.unitCores (s : State) (p : Nat) : List Nat := (s.dev.launches.filter fun l => l.part == p).flatMap Launch.cores

/-- Resize: the mask changes at once, and each unit on a departing core leaves it as soon as it may; the request is complete when
every departing core is free. -/
def doResize (s : State) (r : Bytes) : Done :=
  let p := fieldOf r 16 1
  let mask := fieldOf r 32 16
  match s.part? p with
  | none => s.openResult
  | some x =>
    if s.maskTaken p mask then s.result 1
    else
      let x := { x with mask := mask }
      let t := s.modDev fun d => { d with parts := Sparse.set none d.parts p (some x) }
      let t := t.cancelUnfit p
      let t := (t.unitCores p).foldl (fun t n =>
        if x.lost n && (t.coreAt n).mayLeave && t.allLeave n then t.preempt n else t) t
      let t := t.leaveSaved p x
      if (t.unitCores p).any x.lost then (t, none) else t.result 0

/-- RESIZE_PARTITION. -/
def execResizePartition (s : State) : Outcome State Fault Refusal := request 0x0012 doResize s

/-- The key of an installed handle; 0xFFF names the device default key. -/
def State.sliceKey (s : State) (handle : Nat) : Option KeyId :=
  if handle = 0xFFF then some .default else (s.dev.sec.keys.find? fun k => k.handle == handle).map KeyEntry.id

/-- MAP_DATA_SLICE: the payload's layout is not in the spec, so the step carries its fields. -/
def execMapDataSlice (slice base handle : Nat) (s : State) : Outcome State Fault Refusal :=
  request 0x0013 (fun s _ =>
    match s.sliceKey handle with
    | some k =>
      if slice < 64 ∧ base % 2 ^ 30 = 0 ∧ base + 2 ^ 30 ≤ memTop + 1 then
        (s.modDev fun d => { d with port := { d.port with slices := Sparse.set none d.port.slices slice (some (base, k)) } }).result 0
      else s.openResult
    | none => s.openResult) s

/-! ### Keys and worlds (19 R484-R486) -/

/-- Install key. -/
def doInstallKey (s : State) (r : Bytes) : Done :=
  let h := fieldOf r 16 2
  let w := fieldOf r 18 1
  if 0xFFF ≤ h ∨ 16 ≤ w then s.openResult
  else if s.dev.sec.keys.any fun k => k.handle == h then s.result 1
  else s.reading (fieldOf r 24 8) 512 fun blob =>
    match Config.oaep ((r.drop 16).take 4) blob with
    | some k =>
      if k.length = 32 then
        (s.modDev fun d => { d with
          sec := { d.sec with keys := d.sec.keys ++ [⟨h, w, KeyId.ofNat (leNat k), 0⟩] } }).result 0
      else s.result 2
    | none => s.result 2

/-- INSTALL_KEY. -/
def execInstallKey (s : State) : Outcome State Fault Refusal := request 0x0021 doInstallKey s

/-- A key is the memory key or the group key of an existing world. -/
def State.keyUsed (s : State) (h : Nat) : Bool :=
  s.dev.sec.worlds.any fun x => match x.2 with | some w => w.memHandle == h || w.groupKey == h | none => false

/-- Remove key. -/
def doRemoveKey (s : State) (r : Bytes) : Done :=
  let h := fieldOf r 16 2
  if s.keyUsed h then s.result 1
  else if s.dev.sec.keys.any fun k => k.handle == h then
    (s.modDev fun d => { d with sec := { d.sec with keys := d.sec.keys.filter fun k => k.handle != h } }).result 0
  else s.openResult

/-- REMOVE_KEY. -/
def execRemoveKey (s : State) : Outcome State Fault Refusal := request 0x0022 doRemoveKey s

/-- Create world. While an unlock applies, a protected world is refused before the other checks (19 R498). -/
def doCreateWorld (s : State) (r : Bytes) : Done :=
  let w := fieldOf r 16 1
  let prot := fieldOf r 17 1 == 1
  let mh := fieldOf r 18 2
  let gh := fieldOf r 20 2
  let key := if mh = 0xFFF then (if prot then none else some KeyId.default) else s.keyFor w mh
  if 15 ≤ w then s.openResult
  else if prot && s.dev.sec.unlocked != 0 then s.result 3
  else if (s.world? w).isSome then s.result 1
  else match key with
    | none => s.result 2
    | some k =>
      if gh ≠ 0xFFF ∧ s.keyFor w gh = none then s.result 2
      else
        let x : World := ⟨prot, k, mh, gh, fieldOf r 24 8, []⟩
        (s.modDev fun d => { d with sec := { d.sec with
          worlds := Sparse.set none d.sec.worlds w (some x)
          floor := Sparse.set 0 d.sec.floor w (Sparse.get 0 d.sec.saveCnt w)
          bar := Sparse.set 0 d.sec.bar w (Sparse.get 0 d.sec.saveCnt w + 1) } }).result 0

/-- CREATE_WORLD. -/
def execCreateWorld (s : State) : Outcome State Fault Refusal := request 0x0020 doCreateWorld s

/-- Take a world's bit out of the unlocks. -/
def clearBit (m w : Nat) : Nat := if m / 2 ^ w % 2 = 1 then m - 2 ^ w else m

/-- Destroy world: its keys, its frame save areas, its translations, its unlock. -/
def doDestroyWorld (s : State) (r : Bytes) : Done :=
  let w := fieldOf r 16 1
  if 15 ≤ w then s.openResult
  else if s.dev.launches.any fun l => l.world == w && l.state != .failed then s.result 1
  else
    let t := s.dropWorldTlb w
    (t.modDev fun d => { d with
      sec := { d.sec with keys := d.sec.keys.filter fun k => k.world != w,
                          worlds := Sparse.set none d.sec.worlds w none, unlocked := clearBit d.sec.unlocked w }
      saves := d.saves.filter fun x => match x.2 with | some i => i.c.u.world != w | none => false }).result 0

/-- DESTROY_WORLD. -/
def execDestroyWorld (s : State) : Outcome State Fault Refusal := request 0x0023 doDestroyWorld s

/-! ### Rosters, attestation, debug unlock (19 R494-R498) -/

/-- A roster entry is accepted: its modulus hashes to an authenticated DEVID, its report verifies and names a protected world
with DEBUG 0. -/
def State.entryOk (s : State) (e : Bytes) : Bool :=
  let m := e.take 512
  let rep := e.drop 512
  s.dev.sec.peers.contains (Config.sha512 m) && s.pssOk m (rep.take 320) ((rep.drop 320).take 512) &&
  fieldOf rep 9 1 == 1 && fieldOf rep 10 1 == 0

/-- Set roster. -/
def doSetRoster (s : State) (r : Bytes) : Done :=
  let w := fieldOf r 16 1
  let n := fieldOf r 17 1
  match s.world? w with
  | none => s.openResult
  | some x =>
    if 64 < n then s.openResult
    else s.reading (fieldOf r 24 8) (1344 * n) fun all =>
      let es := (List.range n).map fun i => (all.drop (1344 * i)).take 1344
      match es.findIdx? fun e => !s.entryOk e with
      | some i => s.result (0x100 + i)
      | none =>
        let x := { x with roster := es.map fun e => Config.sha512 (e.take 512) }
        (s.modDev fun d => { d with sec := { d.sec with worlds := Sparse.set none d.sec.worlds w (some x) } }).result 0

/-- SET_ROSTER. -/
def execSetRoster (s : State) : Outcome State Fault Refusal := request 0x0024 doSetRoster s

/-- A debug unlock applies to any world (19 R498). -/
def State.worldBit (s : State) (w : Nat) : Nat := if s.unlocked w then 1 else 0

/-- The signed part of an attestation report (19 R496). -/
def State.reportBody (s : State) (w : Nat) (nonce : Bytes) : Bytes :=
  let x := s.world? w
  let roster := match x with | some y => y.roster | none => []
  fit 320 (natLe 4 0x41545331 ++ [3, 0] ++ natLe 2 0x0104 ++ natLe 1 w ++ natLe 1 (if s.protWorld w then 1 else 0) ++
    natLe 1 (s.worldBit w) ++ natLe 5 0 ++ natLe 8 (Sparse.get 0 s.dev.sec.saveCnt w) ++ natLe 8 (s.dev.sec.reports + 1) ++ nonce ++
    fit 64 Config.devid ++ fit 64 s.dev.sec.fwHash ++ fit 64 (Config.sha512 roster.flatten))

/-- Attest. -/
def doAttest (s : State) (r : Bytes) : Done :=
  let w := fieldOf r 16 1
  if 16 ≤ w then s.openResult
  else
    let b := s.reportBody w ((r.drop 32).take 64)
    let t := s.poke (fieldOf r 24 8) (b ++ fit 512 (Config.pssSign (s.dev.sec.reports + 1) b))
    (t.modDev fun d => { d with sec := { d.sec with reports := d.sec.reports + 1 } }).result 0

/-- ATTEST. -/
def execAttest (s : State) : Outcome State Fault Refusal := request 0x0025 doAttest s

/-- Debug unlock. -/
def doDebugUnlock (s : State) (r : Bytes) : Done :=
  s.reading (fieldOf r 24 8) 640 fun t =>
  let mask := fieldOf t 4 2
  let ok := s.pssOk Config.debugKey (t.take 128) (t.drop 128) && (t.drop 16).take 64 == fit 64 Config.devid
  if !ok then s.result 1
  else if fieldOf t 8 8 ≤ s.dev.sec.serial then s.result 2
  else if fieldOf t 0 4 ≠ 0x44425531 ∨ 2 ^ 15 ≤ mask then s.openResult
  else
    let named := (List.range 15).filter fun w => mask / 2 ^ w % 2 == 1
    let some' := named.filter fun w => !s.protWorld w
    let new := if mask = 0 then 0 else some'.foldl (fun m w => m ||| 2 ^ w) s.dev.sec.unlocked
    (s.modDev fun d => { d with sec := { d.sec with serial := fieldOf t 8 8, unlocked := new } }).result
      (if named.any s.protWorld then 3 else 0)

/-- DEBUG_UNLOCK. -/
def execDebugUnlock (s : State) : Outcome State Fault Refusal := request 0x0026 doDebugUnlock s

/-! ### Cache entries (13 R399-R402) -/

/-- The header of the cache entry that a request names, read: its address, its 256 bytes and LEN. -/
def State.cacheEntry (s : State) (r : Bytes) (f : Nat → Bytes → Nat → Done) : Done :=
  s.reading (fieldOf r 24 8) 256 fun h => f (fieldOf r 24 8) h (fieldOf h 144 8)

/-- Seal an entry. -/
def doSeal (s : State) (r : Bytes) : Done :=
  s.cacheEntry r fun a h n =>
  if n % 32 ≠ 0 ∨ fieldOf r 32 8 < 256 + n + 16 then s.result 9
  else s.reading (a + 256) n fun body =>
    let iv := s.dev.sec.iv
    let h := h.take 80 ++ fit 64 Config.devid ++ (h.drop 144).take 8 ++ natLe 12 iv ++ h.drop 164
    let c := fit (n + 16) (gcmSeal .cache iv h body)
    ((s.poke a (h ++ c)).modDev fun d => { d with sec := { d.sec with iv := iv + 1 } }).result 0

/-- CACHE_ENTRY_SEAL. -/
def execCacheEntrySeal (s : State) : Outcome State Fault Refusal :=
  event s (.ok (s.manage 0x0027 (fun r => fieldOf r 16 1 == 0) doSeal))

/-- Open an entry: checks 1 to 4 of R402. -/
def doOpen (s : State) (r : Bytes) : Done :=
  s.cacheEntry r fun a h n =>
  if fieldOf h 0 4 ≠ 0x58454301 ∨ fieldOf h 4 2 ≠ 1 then s.result 1
  else if fieldOf r 32 8 < 256 + n + 16 then s.result 2
  else if (h.drop 80).take 64 ≠ fit 64 Config.devid then s.result 4
  else s.reading (a + 256) (n + 16) fun body =>
    match gcmOpen .cache (fieldOf h 152 12) h body with
    | some p => (s.poke (a + 256) (fit n p)).result 0
    | none => s.result 3

/-- CACHE_ENTRY_OPEN. -/
def execCacheEntryOpen (s : State) : Outcome State Fault Refusal :=
  event s (.ok (s.manage 0x0027 (fun r => fieldOf r 16 1 == 1) doOpen))

/-! ### Die offline (20 R504-R506) -/

/-- The entries of a table that anything has been written to; the others are not valid. -/
def Mem.tableEntries (m : Mem) (table n : Nat) : List Nat :=
  ((m.key.filter fun c => decide (table ≤ c.1 ∧ c.1 < table + 8 * n)).map fun c => (c.1 - table) / 8).eraseDups

/-- The ranges of device memory that a world's tables map, with those of the tables themselves where `own` says so, as (address,
size). -/
def Mem.mappedFrom (m : Mem) (own : Bool) (table : Nat) : List (Nat × Nat × Bool) → List (Nat × Nat)
  | [] => []
  | (sh, bits, _) :: rest =>
    (if own then [(table, 8 * 2 ^ bits)] else []) ++ (m.tableEntries table (2 ^ bits)).flatMap fun i =>
      let e := leNat (m.readKey Stage.empty .firmware (table + 8 * i) 8)
      let pa := e / 256 % 2 ^ 48 * 256
      if e % 2 = 0 then []
      else if e / 2 % 2 = 1 then (if e / 16 % 4 = 0 then [(pa, 2 ^ sh)] else [])
      else m.mappedFrom own pa rest

/-- The frames of ranges. -/
def framesOf (rs : List (Nat × Nat)) : List Nat :=
  (rs.flatMap fun r => (List.range ((r.1 % 65536 + r.2 + 65535) / 65536)).map fun i => r.1 / 65536 + i).eraseDups

/-- The existing worlds with their records. -/
def Security.live (c : Security) : List (Nat × World) := c.worlds.filterMap fun x => x.2.map fun w => (x.1, w)

/-- The frames that a world's tables map, with those that they fill where `own` says so. -/
def State.worldFrames (s : State) (own : Bool) (w : World) : List Nat := framesOf (s.dev.m.mappedFrom own w.root walkLevels)

/-- The frames in use: mapped by any world, or holding the anchor block, tables or the firmware image. -/
def State.framesUsed (s : State) : List Nat :=
  (framesOf [(s.dev.anchor, 65536), (0x18000000000, s.dev.port.bootLen)] ++
    s.dev.sec.live.flatMap fun x => s.worldFrames true x.2).eraseDups.filter fun f => decide (f * 65536 ≤ memTop)

/-- Frames that a socket's memory holds. -/
def socketFrames (s : Nat) : Nat := if s < 8 then 0x300000 else 0x200000

/-- The free frames of a socket. -/
def State.roomOn (s : State) (used : List Nat) (k : Nat) : Nat :=
  socketFrames k - (used.filter fun f => s.dev.m.homeOf (f * 65536) == k).length

/-- The online memory-holding sockets other than one. -/
def State.otherSockets (s : State) (k : Nat) : List Nat :=
  (List.range 12).filter fun i => i != k && s.dev.m.offline / 2 ^ i % 2 == 0

/-- Move a frame to a socket with room, or poison it whole (20 R505). The choice of the socket is free. -/
def State.moveFrame (s : State) (used : List Nat) (k f : Nat) : State × Bool :=
  match (s.otherSockets k).filter fun i => decide (0 < s.roomOn used i) with
  | [] => (s.modMem fun m => { m with poison := (List.range 2048).foldl (fun p i =>
      Sparse.set false p (f * 65536 + 32 * i) true) m.poison }, false)
  | c :: cs =>
    let dst := (c :: cs).getD (Config.evacuate f % (cs.length + 1)) c
    (s.modMem fun m => { m with home := Sparse.set none m.home f (some dst) }, true)

/-- Cancel the live jobs of the worlds that map a poisoned frame: the state and their JOBIDs. A job lives from its first record until it
ends (log 89). -/
def State.cancelPoisoned (s : State) (bad : List Nat) : State × List Nat :=
  let ws := (s.dev.sec.live.filter fun x => (s.worldFrames false x.2).any bad.contains).map Prod.fst
  let jobs := (((s.dev.sizes.filter fun x => x.level == 4 && s.dev.openLevel x && ws.contains x.world).map LevelSize.id).reverse ++
    (s.dev.launches.filter fun l => ws.contains l.world).map Launch.jobid).eraseDups
  (jobs.foldl (fun t j => t.cancelLevel 4 j 0) s, jobs)

/-- The frames in use that a socket still holds, apart from poisoned ones. -/
def State.framesLeft (s : State) (k : Nat) (bad : List Nat) : List Nat :=
  s.framesUsed.filter fun f => s.dev.m.homeOf (f * 65536) == k && !bad.contains f

/-- One step of an evacuation: the next frame moves or is poisoned; after the last one, jobs are cancelled, the report is written and the
socket powered down (20 R505, R506). -/
def State.evacStep (s : State) (k : Nat) (bad : List Nat) (a n : Nat) : Done :=
  match s.framesLeft k bad with
  | f :: _ =>
    let (t, ok) := s.moveFrame s.framesUsed k f
    (t.modDev fun d => { d with evac := some (k, if ok then bad else bad ++ [f]) }, none)
  | [] =>
    let (t, jobs) := s.cancelPoisoned bad
    let body := natLe 4 jobs.length ++ natLe 4 bad.length ++ natLe 8 0 ++ jobs.flatMap (natLe 8)
    let fits := if n < 16 then 0 else 16 + (n - 16) / 8 * 8
    ((t.poke a (body.take fits)).modDev fun d => { d with evac := none, m := { d.m with offline := d.m.offline ||| 2 ^ k } }).result 0

/-- Die offline: the request is checked, then the socket is evacuated one frame at a time. -/
def doDieOffline (s : State) (r : Bytes) : Done :=
  match s.dev.evac with
  | some (k, bad) => s.evacStep k bad (fieldOf r 24 8) (fieldOf r 32 4)
  | none =>
  let k := fieldOf r 16 1
  let mode := fieldOf r 17 1
  let held := k < 8 ∧ ((List.range 16).any fun p => match s.part? p with
    | some x => x.mask / 2 ^ (16 * k) % 2 ^ 16 != 0
    | none => false) = true
  let room := ((s.otherSockets k).map (s.roomOn s.framesUsed)).sum
  if 12 ≤ k then s.result 3
  else if held then s.result 2
  else if mode = 0 ∧ room < (s.framesLeft k []).length then s.result 1
  else if 1 < mode then s.openResult
  else (s.modDev fun d => { d with evac := some (k, []) }, none)

/-- DIE_OFFLINE. -/
def execDieOffline (s : State) : Outcome State Fault Refusal := request 0x0030 doDieOffline s

/-! ### Rotation, record mode, replay (20 R507, R511-R513) -/

/-- Rotation. -/
def doRotation (s : State) (r : Bytes) : Done :=
  let per := fieldOf r 20 4
  let n := fieldOf r 32 4
  if per = 0 ∨ 1000 < per ∨ !([4, 8, 16, 32, 64, 128, 256, 512, 1024, 2048, 4096].contains n) then s.openResult
  else
    let t := s.modDev fun d => { d with rot := { d.rot with
      enabled := fieldOf r 16 1 != 0, period := per, ring := fieldOf r 24 8, count := n } }
    t.flushReports.result 0

/-- ROTATION. -/
def execRotation (s : State) : Outcome State Fault Refusal := request 0x0031 doRotation s

/-- Record mode: a log begins with its header. -/
def doRecordMode (s : State) (r : Bytes) : Done :=
  if fieldOf r 16 1 = 0 then (s.modDev fun d => { d with recm := { d.recm with enabled := false } }).result 0
  else
    let a := fieldOf r 24 8
    let m : RecMode := ⟨true, a, fieldOf r 32 8, 16, false⟩
    ((s.poke a (natLe 8 16 ++ natLe 8 0)).modDev fun d => { d with recm := m }).result 0

/-- RECORD_MODE. -/
def execRecordMode (s : State) : Outcome State Fault Refusal := request 0x0032 doRecordMode s

/-- Replay: the logged launch runs again on its logged cores with its logged loop counts, one run of each unit, once its predecessors,
phases and transfers allow it (log 39). The request waits while the scoreboard has no room for them (16 R436). -/
def doReplay (s : State) (r : Bytes) : Done :=
  let a := fieldOf r 24 8
  let lid := fieldOf r 32 8
  let p := fieldOf r 16 1
  let q := fieldOf r 17 1
  s.reading a 16 fun head =>
  let used := fieldOf head 0 8
  s.reading (a + 16) (used - 16) fun _ =>
  let es := s.logOf a used lid
  let rec' := (es.reverse.find? fun e => e.2.1 == 1).bind fun e =>
    (parseLaunch e.2.2.2 (s.queue p q).world p q).map fun l => (l, e.2.2.2)
  match rec', (sinceRecord es).find? (fun e => e.2.1 == 2) with
  | some (l, raw), some (_, _, _, e) =>
    s.reading (xferRange raw).1 (xferRange raw).2 fun _ =>
    let xs := (s.xfersOf raw).getD []
    let cores := (List.range l.n).map fun i => fieldOf e (2 * i) 2
    let loops := ((sinceRecord es).filter fun e => e.2.1 == 3).map fun (_, _, _, e) =>
      (fieldOf e 0 4, fieldOf e 4 8, (e.drop 12).take 64)
    let die := match s.part? p with | some x => x.home | none => 0
    let bad := cores.any fun n => (s.coreAt n).sys.fenced || match s.part? p with | some x => x.lost n | none => true
    if bad then s.result 2
    else if s.dev.launches.any fun x => x.lid == l.lid && x.state != .failed then s.openResult
    else if s.dev.cancelled l then (s.launchEvent l 1 0 0xFFFFFFFF 0).result 0
    else if 64 < s.boardUsed die + 1 + xs.length then (s, none)
    else
      let l := { l with dup := false, log := false, die := die, replay := some cores, loops := loops }
      (s.modDev fun d =>
        let d := d.noteSizes l
        { d with launches := (d.launches.filter fun x => x.lid != l.lid) ++ [l],
                 board := d.board ++ xs.map fun x => ⟨die, some l.lid, x⟩ }).result 0
  | _, _ => s.result 1

/-- REPLAY. -/
def execReplay (s : State) : Outcome State Fault Refusal := request 0x0033 doReplay s

/-! ### Other codes (16 R430) -/

/-- The codes of R430. -/
def knownCode (c : Nat) : Bool := decide (0x10 ≤ c ∧ c ≤ 0x13) || decide (0x20 ≤ c ∧ c ≤ 0x27) || decide (0x30 ≤ c ∧ c ≤ 0x33)

/-- UNKNOWN_REQUEST: RESULT 0xFFFFFFFE. A cache request whose OP is neither 0 nor 1 gets a result the spec does not give. -/
def execUnknownRequest (s : State) : Outcome State Fault Refusal :=
  event s (.ok (match s.request? with
    | none => s
    | some (_, r) =>
      let c := fieldOf r 8 2
      if !knownCode c then s.manage c anyPayload fun s _ => s.result 0xFFFFFFFE
      else if c = 0x27 ∧ 2 ≤ fieldOf r 16 1 then s.manage c anyPayload fun s _ => s.openResult
      else s))

end Sys2Proof.Machine
end

