-- ==== Sys2Proof/Machine/Park.lean ====
section
/-! DEFINITION. Parking rows and the push stack (07 R273-R275; 02 R67, R68). -/

namespace Sys2Proof.Machine

open Sys2Proof Host

/-- The first empty slot of a quadrant row. -/
def Quad.emptySlot (d : Quad) (r : Nat) : Option Nat := (List.range 4).find? fun i => (Sparse.get none d.parked (4 * r + i)).isNone

/-- Where VPARK puts a register: an empty slot of a row of the unit's own, else the next free row (07 R273). -/
def State.parkSlot (s : State) : Option ParkAt :=
  let mask := s.core.c.mat.lease
  let rows := leaseRows mask
  let own := rows.findSome? fun x =>
    if s.ownRow x.1 x.2 then ((s.lantern.quad x.1).emptySlot x.2).map fun i => (⟨x.1, x.2, i⟩ : ParkAt) else none
  match own with
  | some a => some a
  | none => (rows.find? fun x => s.rowFree .v mask x.1 x.2).map fun x => ⟨x.1, x.2, 0⟩

/-- The cells of a parked register's payload (log 25). -/
def State.parkCells (s : State) (e : Elem) : List Word :=
  (List.range (s.payload / 8)).map fun i => BitVec.ofNat 64 (laneOf e.data 64 i)

/-- Move physical register `p` into a slot; it becomes parked and dead. -/
def State.park (s : State) (p : Nat) (a : ParkAt) (e : Elem) : State :=
  let d := (s.lantern.quad a.quad).setRun a.row (32 * a.slot) (s.parkCells e)
  let d' : Quad := { d with parked := Sparse.set none d.parked (4 * a.row + a.slot) (some ⟨s.cur % 4, s.u.lid, s.u.idx, s.u.run, p, e.fmt, e.scales⟩) }
  (s.setLantern (s.lantern.setQuad a.quad d')).modV fun v =>
    { v with park := Sparse.set none v.park p (some a), v := Sparse.set VReg.zero v.v p VReg.zero }

/-- VPARK vr (07 R273, 02 R67). -/
def execVpark (vr : BitVec 6) (s : State) : Outcome State Fault Refusal :=
  let p := physV s.rb vr.toNat
  if s.core.c.mat.lost = true ∧ (s.parkAt p).isNone = true then .next s.awaitLease
  else lane .v s do
    chk (s.parkAt p).isNone .parkState
    chk (s.core.c.mat.lease != 0) .parkFull
    match s.parkSlot with
    | none => trap .parkFull
    | some a =>
      let t := if (s.vreg p).live then s else s.stick (some .v) stGATED
      pure (((t.notePark .v).park p a (s.readV p)).regrant .v)

/-- VUNPARK vr (07 R274): the row is checked first (08 R307; log 123). -/
def execVunpark (vr : BitVec 6) (s : State) : Outcome State Fault Refusal :=
  let p := physV s.rb vr.toNat
  lane .v s do
    match s.parkAt p with
    | none => trap .parkState
    | some a =>
      let holder := match (s.lantern.quad a.quad).holder with | some c => 4 * (s.cur / 4) + c | none => s.cur
      let (t, ok) := s.checkRow (s.cur / 4) a.quad a.row holder
      if ok then
        let e := t.parkedCopy a
        let t := t.notePark .v
        let t := t.setLantern (t.lantern.setQuad a.quad ((t.lantern.quad a.quad).unpark a.row a.slot))
        let t := (t.modV fun v => { v with park := Sparse.set none v.park p none }).writeV p e
        pure (t.regrant .v)
      else .error (.trapped s .accumulatorUncorrectable 0)

/-- B, the bytes of one saved register (02 R68). -/
def State.pushBytes (s : State) : Nat := s.payload + 8

/-- VPUSHM vf, vl (07 R275, 02 R68). -/
def execVpushm (vf vl : BitVec 6) (s : State) : Outcome State Fault Refusal :=
  lane .v s do
    chk (decide (vf.toNat ≤ vl.toNat)) .reservedField
    let n := vl.toNat - vf.toNat + 1
    let vsp := (s.view .v).vsp
    chk (decide (0x1F0000 + n * s.pushBytes ≤ vsp)) .pushOverflow
    let regs := (List.range n).map fun m => physV s.rb (vf.toNat + m)
    let t := if regs.any fun p => !(s.vreg p).live then s.stick (some .v) stGATED else s
    let top := vsp - n * s.pushBytes
    let t := t.setSpad top (regs.flatMap fun p => s.packV (s.readV p))
    pure (t.write .v (.vsp top))

/-- VPOPM vf, vl (07 R275, 02 R68). -/
def execVpopm (vf vl : BitVec 6) (s : State) : Outcome State Fault Refusal :=
  lane .v s do
    chk (decide (vf.toNat ≤ vl.toNat)) .reservedField
    let n := vl.toNat - vf.toNat + 1
    let vsp := (s.view .v).vsp
    let b := s.pushBytes
    chk (decide (vsp + n * b ≤ 0x1F8000)) .pushUnderflow
    let es := (List.range n).map fun m => s.unpackV (s.spad (vsp + m * b) b)
    chk (es.all fun e => fmtOk e.code) .reservedFormat
    let t := (List.range n).foldl (fun t m => t.writeV (physV s.rb (vf.toNat + m)) (es.getD m Elem.zero)) s
    pure (t.write .v (.vsp (vsp + n * b)))

end Sys2Proof.Machine
end

