-- ==== Sys2Proof/Machine/Seq.lean ====
section
/-! DEFINITION. The loop sequencer and the overwriting walker (06 R220-R225; chapter 14). -/

namespace Sys2Proof.Machine

open Sys2Proof Host

/-! ### Setting a loop up -/

/-- SEQL n, s1: the trip count of a level (06 R221). -/
def execSeql (n : BitVec 3) (s1 : CSrc) (s : State) : Outcome State Fault Refusal :=
  lane .c s do
    s.useC [s1] []
    let v := (s.valC s1).toNat
    chk (decide (v < 2 ^ 32)) .seqCount
    pure (s.modSeq fun q => { q with trip := Sparse.set 0 q.trip n.toNat v })

/-- SEQS n, j, aK, s1: a stride binding (06 R221). -/
def execSeqs (n : BitVec 3) (j : BitVec 2) (ak : AReg) (s1 : CSrc) (s : State) : Outcome State Fault Refusal :=
  lane .c s do
    s.useC [s1] []
    let st := ((s.valC s1).setWidth 32).toInt
    pure (s.modSeq fun q => { q with stride := Sparse.set none q.stride (4 * n.toNat + j.toNat) (some (ak.toNat, st)) })

/-- OVW n: the mark of the next loop (06 R224). -/
def execOvw (n : BitVec 3) (s : State) : Outcome State Fault Refusal :=
  lane .c s do
    chk s.core.c.seq.ovw.isNone .seqOvw
    pure (s.modSeq fun q => { q with ovw := some n.toNat })

/-! ### Indices (14 R404-R410) -/

/-- The trip count of a level. -/
def Loop.trip (l : Loop) (n : Nat) : Nat := l.trips.getD n 0

/-- How often a level's position advances: K kernel iterations on level 0 of a pipelined loop (14 R408). -/
def Loop.limit (l : Loop) (n : Nat) : Nat := if n = 0 ∧ 2 ≤ l.stages then l.trip 0 + l.stages - 1 else l.trip n

/-- The index of a level at its walk position: an overwriting level descends (14 R404). -/
def Loop.index (l : Loop) (n : Nat) : Nat :=
  let p := l.pos.getD n 0
  if l.ovr = some n then l.trip n - 1 - p else p

/-- The iteration at the loop's position. -/
def Loop.iter (l : Loop) (skip : Bool) : Iter :=
  ⟨(List.range l.levels).map l.index, l.pos.getD 0 0, l.stages, l.trips, l.ovr, skip, l.strides⟩

/-- Advance the lowest position that is not at its end: the new positions and the level that took its next value. -/
def carryPos : Nat → List Nat → List Nat → Option (List Nat × Nat)
  | _, [], _ => none
  | _, _ :: _, [] => none
  | n, p :: ps, t :: ts =>
    if p + 1 < t then some ((p + 1) :: ps, n)
    else (carryPos (n + 1) ps ts).map fun r => (0 :: r.1, r.2)

/-- The next position of a loop, and the highest level that changed; none at the end. -/
def Loop.next (l : Loop) : Option (List Nat × Nat) := carryPos 0 l.pos ((List.range l.levels).map l.limit)

/-! ### Loading a loop (06 R222-R224; 14 R405, R410, R414, R419) -/

/-- Fetch the words of `n` lines from `a` on. -/
def State.loadBody (s : State) (a : Nat) : Nat → M (State × List (List Nat))
  | 0 => .ok (s, [])
  | n + 1 => do
    let (t, ws) ← s.fetchLine a
    let (u, rest) ← t.loadBody (a + 32) n
    pure (u, ws :: rest)

/-- The lanes of a body's lines, with the line's number. -/
def bodyLanes (buf : List (List Nat)) : List (Nat × LaneText) := buf.zipIdx.flatMap fun x => (lineLanes x.1).map fun l => (x.2, l)

/-- Lanes a body may not hold: B, BC, BR, CALL, CALLR, RET, TRAP, EXIT, LOOPB, LOOPC, REGION, a control END (06 R222). -/
def LaneText.illInBody (l : LaneText) : Bool :=
  l.kind == 1 && [0x20, 0x21, 0x22, 0x23, 0x24, 0x25, 0x4D, 0x48, 0x42, 0x43, 0x47, 0xF8].contains l.op

/-- Lanes an overwriting body may not hold: ST, atomics, REL, ASTREAM, the copies of 14 R419. -/
def LaneText.illInOver (l : LaneText) : Bool :=
  (l.kind == 1 && (l.op == 0x29 || (decide (0x2A ≤ l.op ∧ l.op ≤ 0x31) || l.op == 0x33))) ||
  (l.kind == 2 && l.op == 0x0C) ||
  (l.kind == 5 && decide (1 ≤ l.op ∧ l.op ≤ 6))

/-- Some queue is bound to a stream (14 R419). -/
def State.streamBound (s : State) : Bool :=
  (List.range 8).any fun q => match s.qbind q with
    | some (.stream _) => true
    | _ => false

/-- The strides bound to the levels of a loop. -/
def Seq.stridesOf (q : Seq) (levels : Nat) : List (Nat × Nat × Int) :=
  (List.range (4 * levels)).filterMap fun i => (Sparse.get none q.stride i).map fun b => (b.1, i / 4, b.2)

/-- OVWRAN at a loop's end (14 R421). -/
def Walk.ovwran (w : Walk) : Word := BitVec.ofNat 64 (min w.skipped 0xFFFFFFFF * 2 ^ 32 + w.lowran)

/-- The running loop, with the walk's position when it overwrites (14 R422). -/
def State.runningLoop (s : State) : Option Loop :=
  s.core.c.seq.loop.map fun l => if l.ovr.isSome then { l with pos := s.core.w.walk.pos, started := s.core.w.walk.started } else l

/-- The running loop moves. -/
def State.setLoop (s : State) (l : Loop) : State :=
  if l.ovr.isSome then s.modW fun w => { w with walk := { w.walk with pos := l.pos, started := l.started } }
  else s.modSeq fun q => { q with loop := some l }

/-- The line after a loop's body. -/
def Loop.after (l : Loop) : Nat := l.line + 32 * (l.len + 1)

/-- A write at the end of the known text: the place between two iterations. -/
def State.writeEnd (s : State) (w : SharedWrite) : State :=
  s.setU { s.u with log := logInsert ((s.u.base + s.u.text.length) * 8) w s.u.log }

/-- A loop ends: every engine continues at the line after the body, a group switch; an overwriting one writes OVWRAN (14
R405, R421). -/
def State.endLoop (s : State) (l : Loop) : State :=
  let t := if l.ovr.isSome then s.writeEnd (.ovwran s.core.w.walk.ovwran) else s
  let t := t.modSeq fun q => { q with loop := none }
  t.setU { t.u with front := .line l.after true none }

/-- Some level has a trip count of 0: the loop runs no iteration, and its end is a boundary (05 R171), which an overwriting loop comes
to as to any other (14 R413). -/
def Loop.noTrips (l : Loop) : Bool := l.trips.any fun n => n == 0

/-- Begin a loop: the checks at its load in the order seq-body, seq-ovw of the level, seq-ovw of a modified FOOT or FOOTV,
ovw-store, seq-ovw of a bound stream, seq-ovw of a pipelined walk (log 23). An overwriting loop clears the cover map, which waits for the
walker (02 R74, 17 R470). -/
def State.beginLoop (s : State) (lv len : Nat) : M State := do
  let line := s.lineAddr .c
  chk s.core.c.seq.loop.isNone .seqBody
  let (s, buf) ← s.loadBody (line + 32) len
  let body := bodyLanes buf
  let q := s.core.c.seq
  chk (!body.any fun x => x.2.illInBody) .seqBody
  chk (match q.ovw with | some n => decide (n < lv) | none => true) .seqOvw
  let stages : Nat := body.foldl (fun m x => max m (x.2.mods.stage.toNat + 1)) 1
  chk (q.ovw.isNone || !body.any fun x => x.2.isFoot && (x.2.mods.first || x.2.mods.last)) .seqOvw
  chk (q.ovw.isNone || !body.any fun x => x.2.illInOver) .ovwStore
  chk (q.ovw.isNone || !s.streamBound) .seqOvw
  chk (q.ovw.isNone || decide (stages < 2)) .seqOvw
  s.walkerRuns q.ovw.isSome
  let trips := (List.range lv).map fun n => Sparse.get 0 q.trip n
  let start := List.replicate lv 0
  let l : Loop := ⟨line, len, buf, lv, trips, start, stages, q.ovw, q.stridesOf lv, false⟩
  let u := s.u
  let t := s.setU { u with text := u.text.take (u.eC.serial + 1 - u.base), front := .boundary }
  let t := t.modSeq fun q => { q with ovw := none, loop := some l }
  let t := if l.ovr.isSome then t.modW fun _ => { SegW.reset with walk := { Walk.reset with pos := start } } else t
  pure (if l.noTrips && l.ovr.isNone then t.endLoop l else t)

/-- The operands of LOOPB and LOOPC that their formats limit (06 R220, which names no cause: DESIGN CHOICE, log 113). -/
def loopOperands (lv len : Nat) : M PUnit := chk (decide (1 ≤ lv ∧ lv ≤ 6 ∧ 1 ≤ len ∧ len ≤ 64)) .immediateRange

/-- LOOPB L, len (06 R222). -/
def execLoopb (lv : BitVec 3) (len : BitVec 7) (s : State) : Outcome State Fault Refusal :=
  lane .c s do
    loopOperands lv.toNat len.toNat
    s.beginLoop lv.toNat len.toNat

/-- The trip counts of a loop-count block (06 R223, 14 R411). -/
def State.loadTrips (s : State) (a : Word) : Nat → Nat → M State
  | 0, _ => .ok s
  | n + 1, i => do
    let (t, v) ← s.loadG (a + BitVec.ofNat 64 (8 + 8 * i)) 8
    chk (decide (v < 2 ^ 32)) .seqCount
    State.loadTrips (t.modSeq fun q => { q with trip := Sparse.set 0 q.trip i v }) a n (i + 1)

/-- The 64 bytes of a loop-count block as the unit in focus reads them. -/
def State.blockBytes (s : State) (a : Nat) : Bytes :=
  match s.translate s.u.world a .read with
  | .ok (t, e, pa) =>
    if e.target = 1 then Memory.reads t.dev.m.host pa 64
    else if e.target = 2 then Memory.reads t.dev.m.peer pa 64
    else t.dev.m.readKey t.overlay (t.memKey t.u.world) pa 64
  | .error _ => []

/-- How many logged blocks the unit has taken, or put on the log, at a LOOPC lane. -/
def Seq.takes (q : Seq) (a : Nat) : Nat := (q.taken.filter fun x => x == a).length

/-- One more of them. -/
def Seq.take (q : Seq) (a : Nat) : Seq := { q with taken := q.taken ++ [a] }

/-- A recorded launch logs the block that a LOOPC loaded, once for the two runs of a duplicated unit; the unit keeps count, so that an
execution after a restart takes the place of the one that it repeats (20 R512, log 39). -/
def State.logLoop (s : State) (a : Nat) : State :=
  match s.u.lid.bind s.launch? with
  | some l =>
    if l.recorded && s.u.run == 0 then
      let at' := s.laneAddr .c
      (s.relog 3 l.lid (s.core.c.seq.takes at') (fun b => fieldOf b 0 4 == s.u.idx && fieldOf b 4 8 == at')
        (natLe 4 s.u.idx ++ natLe 8 at' ++ s.blockBytes a)).modSeq fun q => q.take at'
    else s
  | none => s

/-- The logged block that a LOOPC of a replayed launch takes: of those of its unit and lane the first that the unit has not taken yet;
the unit keeps count, which a restart takes back (20 R513). -/
def State.takeLoop (s : State) : Option (State × Bytes) :=
  (s.u.lid.bind s.launch?).bind fun l =>
    let a := s.laneAddr .c
    let mine := l.loops.filter fun x => x.1 == s.u.idx && x.2.1 == a
    (mine[s.core.c.seq.takes a]?).map fun x => (s.modSeq fun q => q.take a, x.2.2)

/-- The trip counts of a logged block. -/
def State.logTrips (s : State) (bs : Bytes) (n : Nat) : M State :=
  (List.range n).foldlM (fun t i => do
    let v := leNat ((bs.drop (8 + 8 * i)).take 8)
    chk (decide (v < 2 ^ 32)) .seqCount
    pure (t.modSeq fun q => { q with trip := Sparse.set 0 q.trip i v })) s

/-- LOOPC L, len, s1, s2: waits for the block's sequence word, loads the counts, then acts as LOOPB (06 R223); in a replayed
launch the counts come from the log (20 R513). -/
def execLoopc (lv : BitVec 3) (len : BitVec 7) (s1 s2 : CSrc) (s : State) : Outcome State Fault Refusal :=
  lane .c s do
    loopOperands lv.toNat len.toNat
    s.useC [s1, s2] []
    scalarAddr (s.valC s1) 64
    match s.takeLoop with
    | some (t, bs) => do
      let t ← t.logTrips bs lv.toNat
      t.beginLoop lv.toNat len.toNat
    | none => do
      let (t, v) ← s.loadG (s.valC s1) 8
      holdUntil (decide ((s.valC s2).toNat ≤ v))
      let t ← t.loadTrips (s.valC s1) lv.toNat 0
      (t.logLoop (s.valC s1).toNat).beginLoop lv.toNat len.toNat

/-! ### Iteration boundaries (14 R405, R409, R413-R416) -/

/-- The sequencer of the core in focus can act. -/
def State.sequencerRuns (s : State) : Bool :=
  s.segRuns 0 && s.core.c.pend.isNone && decide (s.u.front = .boundary)

/-- The walker of the core in focus can act (17 R470). -/
def State.walkerActs (s : State) : Bool := s.sequencerRuns && (s.core.sys.stopped ||| s.core.sys.shifting) / 16 % 2 == 0

/-- Some engine has come to the last line that is known. -/
def State.wantsText (s : State) : Bool :=
  [Engine.c, .a, .v, .m, .x].any fun e => !(s.u.eng e).ended && decide (s.u.base + s.u.text.length ≤ (s.u.eng e).serial + 1)

/-- Every engine has executed all its lanes of the known text, and no vector skip is on its way (14 R413). -/
def State.allAtBoundary (s : State) : Bool :=
  ([Engine.c, .a, .v, .m, .x].all fun e => (s.u.eng e).ended || (s.pending e ((s.u.base + s.u.text.length) * 8)).isEmpty) &&
  (s.u.eV.ended || s.u.eV.skip.isNone)

/-- Every matrix command issued from the body has made its scratchpad writes (14 R413). -/
def State.bodyWritesDone (s : State) : Bool := !s.core.c.mat.mq.any fun c => c.lane.ovr

/-- The body's lines enter the text, out of the loop buffer, for the iteration at the loop's position (14 R404, R405); the walker has
checked the lines `ok`. -/
def State.appendBody (s : State) (l : Loop) (skip : Bool) (ok : List Nat) : State :=
  let it := l.iter skip
  let ls := l.buf.zipIdx.map fun x =>
    (⟨l.line + 32 * (x.2 + 1), 8, x.2 == 0, s.core.v.rb, some it, ok.contains x.2, some x.1⟩ : LineInst)
  let t := s.setU { s.u with text := s.u.text ++ ls }
  t.setLoop { l with started := true }

/-- The rotation at the end of a kernel iteration (14 R409). -/
def State.rotateEnd (s : State) (l : Loop) : State :=
  if 2 ≤ l.stages then s.modV fun v => { v with rb := (v.rb + 31) % 32 } else s

/-- The marks of an iteration enter the cover map at its end; a level above the overwriting one clears the map as it takes
its next value (14 R415). -/
def State.moveMarks (s : State) (l : Loop) (changed : Option Nat) : State :=
  let clear := match l.ovr, changed with
    | some n, some m => decide (n < m)
    | _, _ => false
  s.modW fun w =>
    if clear then { w with cover := [], marks := [] }
    else { w with cover := w.marks.foldl (fun m c => if c.2 then Sparse.set false m c.1 true else m) w.cover, marks := [] }

/-- LOOP_ITERATION_BOUNDARY: the sequencer ends the iteration, advances the indices and lays down the next one; an overwriting
loop waits for every engine and leaves the next iteration to the walker (14 R405, R413, R415). The base RB, which a pipelined iteration
lowers, stands in segment V: while that is stopped or still shifting in, the iteration does not end (02 R74, 14 R409). -/
def execLoopIterationBoundary (core : Nat) (s : State) : Outcome State Fault Refusal :=
  let t := s.focus core
  event s do
    match t.runningLoop with
    | none => pure t
    | some l =>
      if !t.sequencerRuns then pure t
      else if l.ovr.isNone then
        if !t.wantsText then pure t
        else if !l.started then pure (t.appendBody l false [])
        else if 2 ≤ l.stages ∧ (t.core.sys.stopped ||| t.core.sys.shifting) / 4 % 2 = 1 then pure t
        else
          let t := t.rotateEnd l
          match l.next with
          | none => pure (t.endLoop l)
          | some (pos, _) => pure (t.appendBody { l with pos := pos } false [])
      else if t.walkerActs && t.allAtBoundary && t.bodyWritesDone && l.noTrips then pure (t.endLoop l)
      else if l.started && t.walkerActs && t.allAtBoundary && t.bodyWritesDone then
        let nx := l.next
        let t := t.moveMarks l (nx.map Prod.snd)
        match nx with
        | none => pure (t.endLoop l)
        | some (pos, m) =>
          let outer := match l.ovr with | some n => decide (n < m) | none => false
          let t := if outer then t.modW fun w => { w with walk := { w.walk with lowran := 0xFFFFFFFF } } else t
          pure (t.setLoop { l with pos := pos, started := false })
      else pure t

/-! ### Footprints (06 R225, 14 R414) -/

/-- The checks of control sources that the walker reads, in the order of 05 R183: every latch is empty; then the frame's bounds. -/
def State.walkUse (s : State) (fs : List CSrc) : M PUnit := do
  chk (!fs.any isLatch) .latchEmpty
  chk (fs.all fun f => s.u.latest.inFrame f.toNat) .frameBounds

/-- A control source as the walker reads it: the registers after every lane before the iteration (14 R414). -/
def State.walkX (s : State) (f : CSrc) : Nat := (s.u.latest.x f.toNat).toNat

/-- An access register in an iteration (06 R221). -/
def State.walkA (s : State) (it : Iter) (k : Nat) : Nat :=
  let sum := (it.strides.filter fun b => b.1 == k).foldl (fun n b => n + ((it.idx.getD b.2.1 0 : Nat) : Int) * b.2.2) 0
  (Sparse.get 0 s.core.a.a k + BitVec.ofInt 32 sum).toNat

/-- The cell of an address; addresses outside scratchpad have a cell that is never covered. -/
def cellOf (a : Int) : Nat := if 0 ≤ a ∧ a < 0x200000 then a.toNat / 8 else 0x40000

/-- The cells of a box (06 R225; log 126). -/
def boxCells (a rowBytes rows pitch : Nat) : List Nat :=
  (List.range rows).flatMap fun r => (cells (a + r * pitch) rowBytes).map fun c => min c 0x40000

/-- What one FOOT or FOOTV lane adds to a footprint: a box under its number, or cells; an entry of FOOTV is not
wrapped, and one outside scratchpad names a cell that is never covered (DEDUCED, logs 46 and 126). -/
def State.footOf (s : State) (it : Iter) (i : Instr) : M (Option Nat × List Nat) :=
  match i with
  | .foot j ak s1 s2 s3 => do
    s.walkUse [s1, s2, s3]
    let rb := s.walkX s1
    let rows := s.walkX s2
    let pitch := s.walkX s3
    let a := s.walkA it ak.toNat
    chk (decide (8 ≤ rb ∧ rb ≤ 65536 ∧ 1 ≤ rows ∧ rows ≤ 256 ∧ a % 8 = 0 ∧ pitch % 8 = 0)) .footprintAlign
    pure (some j.toNat, boxCells a rb rows pitch)
  | .footv ak vs => do
    chk (decide (vs.toNat < 64)) .footprintFormat
    let e := s.readV (physV s.core.v.rb vs.toNat)
    chk (e.code == 4) .footprintFormat
    let a := s.walkA it ak.toNat
    chk (decide (a % 8 = 0)) .footprintAlign
    let n := min (s.u.latest.shape s.core.v.curSh.toNat).gvl.toNat (s.lanes 4)
    pure (none, (List.range n).map fun k => cellOf ((a : Int) + 8 * signed 32 (e.lane 32 k)))
  | _ => .ok (none, [])

/-- Add what a lane declares; a box declared again replaces the earlier one (log 24), the cells of a second FOOTV
are united with the first's (DESIGN CHOICE, log 114). -/
def Foot.add (f : Foot) : Option Nat × List Nat → Foot
  | (some j, cs) => { f with boxes := (j, cs) :: f.boxes.filter fun b => b.1 != j }
  | (none, cs) => { f with cells := f.cells ++ cs }

/-- Every cell of a footprint. -/
def Foot.all (f : Foot) : List Nat := f.boxes.flatMap Prod.snd ++ f.cells

/-- One FOOT or FOOTV lane of the body `buf`, whose lines `ok` have passed their check: what it adds to the footprint, or the lane
that a report names, 0 for its line, and why the walker stops there. The line's check comes first (05 R154). -/
def State.footStep (s : State) (it : Iter) (buf : List (List Nat)) (ok : List Nat) (x : Nat × LaneText) :
    Except (Nat × Stop) (Option Nat × List Nat) :=
  let l := x.2
  let at' {α : Type} (m : M α) : Except (Nat × Stop) α := m.mapError fun e => (l.n, e)
  if !(List.range 8).all fun k => !l.mods.wait.getLsbD k || s.token k == 0 then .error (l.n, .stall)
  else match (if ok.contains x.1 then none else lineCheck ((buf.getD x.1 []).headD 0)) with
    | some c => .error (0, .trap c 0 0)
    | none => match decodeInstr .c l.exts l.word with
      | .error c => at' (trap (levelCause l.exts (some it) c))
      | .ok (i, m) => if modsLevelBad m (some it) then at' (trap .extMisuse) else at' (s.footOf it i)

/-- What the walker has gathered: the footprint, how many lanes of the body it has passed, the lines that have passed their check. -/
abbrev Gathered := Foot × Nat × List Nat

/-- Execute the FOOT and FOOTV lanes of a body from where the walker stands: how far it comes, and why it stops there (log 133). -/
def State.gatherFoot (s : State) (it : Iter) (buf : List (List Nat)) : List (Nat × LaneText) → Gathered → Gathered × Option (Nat × Stop)
  | [], g => (g, none)
  | x :: xs, (f, n, ok) =>
    if !x.2.isFoot then s.gatherFoot it buf xs (f, n + 1, ok)
    else match s.footStep it buf ok x with
      | .ok d => s.gatherFoot it buf xs (f.add d, n + 1, if ok.contains x.1 then ok else x.1 :: ok)
      | .error e => ((f, n, ok), some e)

/-- Lane `n` of line `i` of the iteration that the walker is to lay down, as a report names it. -/
def State.footLane (s : State) (l : Loop) (it : Iter) (i n : Nat) : LaneAt :=
  ⟨l.line + 32 * (i + 1) + 4 * n, (it.idx ++ List.replicate 6 0).take 6, n != 0, (s.u.base + s.u.text.length + i) * 8 + n⟩

/-- A segment whose registers the walker reads for the body is still shifting in: A for its boxes and cells, V for its cells (02 R74). -/
def State.footHeld (s : State) (body : List (Nat × LaneText)) : Bool :=
  let shifting (b : Nat) : Bool := s.core.sys.shifting / 2 ^ b % 2 == 1
  (shifting 1 && body.any fun x => x.2.isFoot) || (shifting 2 && body.any fun x => x.2.isFoot && x.2.op == 0x46)

/-- The walker has the footprint of the iteration, and lays the iteration down, to be skipped when the footprint is not empty and wholly
covered (14 R416). -/
def State.startIter (s : State) (l : Loop) (f : Foot) : State :=
  let cs := f.all
  let skip := !cs.isEmpty && cs.all s.covered
  let i := match l.ovr with | some n => l.index n | none => 0
  let ok := s.core.w.walk.checked
  let t := s.modW fun w => { w with walk := { w.walk with
    foot := ⟨[], []⟩, seen := 0, checked := [], skipped := if skip then w.walk.skipped + 1 else w.walk.skipped,
    lowran := if skip then w.walk.lowran else min w.walk.lowran i } }
  t.appendBody l skip ok

/-- OVERWRITING_ITERATION_START: with every engine at the boundary, the walker evaluates the footprint, from the lane on at which it
stopped before, and lays down the iteration (14 R413-R416). -/
def execOverwritingIterationStart (core : Nat) (s : State) : Outcome State Fault Refusal :=
  let t := s.focus core
  event s do
    match t.runningLoop with
    | none => pure t
    | some l =>
      let body := bodyLanes l.buf
      if l.ovr.isNone || l.started || l.noTrips || !t.walkerActs || !t.allAtBoundary || !t.bodyWritesDone || t.footHeld body then pure t
      else
        let it := l.iter false
        let w := t.core.w.walk
        let ((f, n, ok), e) := t.gatherFoot it l.buf (if t.u.eC.ended then [] else body.drop w.seen) (w.foot, w.seen, w.checked)
        let t := t.modW fun w => { w with walk := { w.walk with foot := f, seen := n, checked := ok } }
        match e with
        | none => pure (t.startIter l f)
        | some (k, e) => match e, body[n]? with
          | .trap c v _, some x =>
            pure ((t.modW fun w => { w with walk := { w.walk with trapped := true } }).takeTrap .c c v 0 (t.footLane l it x.1 k))
          | _, _ => pure t

/-- FOOT at its own place: nothing in an overwriting iteration, where the walker has evaluated it; a trap elsewhere (06 R225,
14 R414). -/
def execFoot (_j : BitVec 2) (_ak : AReg) (s1 s2 s3 : CSrc) (s : State) : Outcome State Fault Refusal :=
  lane .c s do
    if (s.laneAt .c).ovr then pure s
    else do
      s.useC [s1, s2, s3] []
      trap .footprintPlacement

/-- FOOTV at its own place (06 R225, 14 R414). -/
def execFootv (_ak : AReg) (_vs : BitVec 7) (s : State) : Outcome State Fault Refusal :=
  lane .c s do
    if (s.laneAt .c).ovr then pure s else trap .footprintPlacement

end Sys2Proof.Machine
end

