-- ==== Sys2Proof/Machine/Service.lean ====
section
/-! DEFINITION. The package in service (16 R453; 21 R520-R522; 19 R493, R494; 20 R507-R517; 02 R72, R73): snuffers, the rotation's tests, health
and clocks, banks, and what the fabric delivers. -/

namespace Sys2Proof.Machine

open Sys2Proof Host

/-! ### The snuffer (16 R453, 20 R514) -/

/-- The first control lane in the lines from an address on; the address itself where no line can be fetched. -/
def State.firstControl (s : State) : Nat → Nat → Nat
  | 0, a => a
  | n + 1, a =>
    match s.fetch a with
    | .ok (_, bs) => match (lineLanes (lineWords bs)).find? fun l => l.isFor .c with
      | some l => a + 4 * l.n
      | none => s.firstControl n (a + 32)
    | .error _ => a

/-- Every line of the address space. -/
def allLines : Nat := 2 ^ 51

/-- The first control lane that issues in the iteration at a loop's position or in one after it, among the lanes of its body (14 R407,
R408). -/
def Loop.nextControl (l : Loop) (body : List (Nat × LaneText)) : Nat → Option Nat
  | 0 => none
  | n + 1 => match body.find? fun x => (x.2.issue (some (l.iter false))).isSome with
    | some x => some (l.line + 32 * (x.1 + 1) + 4 * x.2.n)
    | none => match l.next with
      | some (pos, _) => Loop.nextControl { l with pos := pos } body n
      | none => none

/-- The same from the coming iteration of a running loop on: none when no control lane of it is left. -/
def Loop.comingControl (l : Loop) : Option Nat :=
  let body := (bodyLanes l.buf).filter fun x => x.2.isFor .c
  if l.noTrips || body.isEmpty then none
  else match if l.started then l.next.map Prod.fst else some l.pos with
    | some pos => Loop.nextControl { l with pos := pos } body (2 ^ 192)
    | none => none

/-- The address of the next control lane of the unit in focus that issues, or of the one it waits in; 0 when control has ended
(21 R521, log 88). -/
def State.nextControl (s : State) : Nat :=
  if s.u.eC.ended then 0
  else
    let p := s.u.eC
    let known := (s.u.text.drop (p.serial - s.u.base)).zipIdx.findSome? fun x =>
      ((s.lanesIn x.1 .c).find? fun l => (x.2 != 0 || decide (p.lane ≤ l.n)) && (l.issue x.1.iter).isSome).map fun l => x.1.addr + 4 * l.n
    match known with
    | some a => a
    | none => match s.u.front with
      | .line a _ _ => s.firstControl allLines a
      | .boundary => match s.runningLoop with
        | none => s.laneAddr .c
        | some l => l.comingControl.getD (s.firstControl allLines l.after)

/-- The image of a run that a frame edge has saved. -/
def State.savedRun (s : State) (lid : Nat) (p : Placed) : Option Image :=
  s.dev.saves.findSome? fun x => x.2.bind fun i =>
    if i.core = p.core ∧ i.c.u.lid = some lid ∧ i.c.u.idx = p.idx ∧ i.c.u.run = p.run then some i else none

/-- The state with a run's own context in focus: the unit's while its handler runs, the saved one while a frame of another world does. -/
def State.atRun (s : State) (lid : Nat) (p : Placed) : State :=
  let t := s.focus p.core
  match s.savedRun lid p with
  | some i => (t.setCore { t.core with c := i.c, a := i.a, v := i.v, x := i.x, w := i.w }).modSys fun y => { y with saved := none }
  | none => (t.modSys fun y => { y with saved := none }).setU t.core.unit

/-- What the event of a snuffed launch reports: the lowest unit still running, and its next control lane (21 R521). -/
def State.snuffReport (s : State) (l : Launch) : Nat × Nat :=
  let first := (l.placed.filter fun p => !p.ended).foldl (fun (m : Option Placed) p => match m with
    | some q => if p.idx < q.idx ∨ (p.idx = q.idx ∧ p.run < q.run) then some p else m
    | none => some p) none
  match first with
  | some p => (p.idx, (s.atRun l.lid p).nextControl)
  | none => (0xFFFFFFFF, 0)

/-- The snuffers that have run out: the outcome of their launches is fixed, with what their events will report (21 R520, R521). -/
def State.noteExpired (s : State) : State :=
  s.dev.launches.foldl (fun t l =>
    if l.state != .failed && l.expired.isNone && s.snuffed l then t.setLaunch { l with expired := some (s.snuffReport l) } else t) s

/-- Stop every running unit of a launch and discard its staged writes; the units that have ended still count (16 R443). -/
def State.haltLaunch (s : State) (lid : Nat) : State :=
  match s.launch? lid with
  | none => s
  | some l => (s.stopUnits l).setLaunch { l with placed := l.placed.filter Placed.ended, stage0 := Stage.empty, stage1 := Stage.empty, freed := [] }

/-- SNUFFER_EXPIRY: every unit of the partition stops, staged writes are discarded, and the partition's reset begins. -/
def execSnufferExpiry (lid : Nat) (s : State) : Outcome State Fault Refusal :=
  event s (.ok (match s.launch? lid with
    | none => s
    | some l =>
      if s.inService && l.expired.isSome && !(s.dev.resetting.any fun r => r.part == l.part) then
        let ls := s.dev.launches.filter fun x => x.part == l.part && x.state == .running
        let t := ls.foldl (fun t x => t.haltLaunch x.lid) s
        t.modDev fun d => { d with resetting := d.resetting ++ [⟨l.part, lid⟩] }
      else s))

/-- A core reset with its partition: no unit, no scratchpad, no descriptors, its frame table kept. -/
def Core.partReset (c : Core) : Core := { c.clear with spad := [], tag := [] }

/-- A lantern reset with its partition: quadrants clear and free, nothing parked, nothing saved. -/
def Lantern.partReset (l : Lantern) : Lantern :=
  let l := l.mapQuads fun _ d =>
    { d with acc := [], sw := [], ww := [], cells := [], rcd := Rcd.zero, parked := [], holder := none, stopped := false, armed := none, bad := [] }
  { l with ptr := 0, waiting := [], saves := [] }

/-- The cores and lanterns of a partition are reset. -/
def State.resetPart (s : State) (x : Part) : State :=
  let t := s.lanterns.foldl (fun (t : State) e =>
    if x.has e.1 then t.setLanternAt e.1 (t.lanternAt e.1).partReset else t) s
  t.cores.foldl (fun (t : State) e =>
    if e.1 < 512 ∧ x.has (e.1 / 4) = true then t.setCoreAt e.1 (t.coreAt e.1).partReset else t) t

/-- The launches that the reset stopped, expired ones aside: re-queued at the heads of their queues, or failed when unstaged. -/
def State.afterReset (s : State) (p : Nat) : State :=
  let ls := (s.dev.launches.filter fun l => l.part == p && l.state == .running && l.expired.isNone).reverse
  ls.foldl (fun t l => if l.unstaged then t.failLaunch l 7 0 0xFFFFFFFF 0 else t.requeue l) s

/-- The expired launch ends with STATUS 6, and its phase is cancelled. -/
def State.endSnuffed (s : State) (x : Snuffed) : State :=
  match s.launch? x.lid with
  | none => s
  | some l =>
    let (unit, addr) := l.expired.getD (0xFFFFFFFF, 0)
    (((s.launchEvent l 6 0 unit addr).dropLaunch x.lid).endLevel 1 x.lid l.gid false).cancelPhaseOf l 2

/-- PARTITION_RESET_COMPLETE. -/
def execPartitionResetComplete (p : Nat) (s : State) : Outcome State Fault Refusal :=
  event s (.ok (match s.dev.resetting.find? fun r => r.part == p with
    | none => s
    | some x =>
      if s.dev.stateWord = 2 then s
      else
        let t := match s.part? p with | some y => s.resetPart y | none => s
        let t := t.modDev fun d => { d with resetting := d.resetting.filter fun r => r.part != p }
        (t.endSnuffed x).afterReset p))

/-! ### The rotation (20 R507-R510) -/

/-- The rotation period in which a time falls: periods count from device time 0 (DESIGN CHOICE, log 116). -/
def State.periodOf (s : State) (t : Nat) : Nat := t / (max s.dev.rot.period 1 * 1000000000)

/-- A test at an earlier time falls in an earlier period: the one of this period is still to come (20 R508). -/
def State.periodDue (s : State) (t : Nat) : Bool := decide (s.periodOf t < s.periodOf s.dev.now)

/-- Another core of the die is being drained: one core is tested at a time. -/
def State.dieBusy (s : State) (n : Nat) : Bool := s.cores.any fun x => x.1 != n && x.1 / 64 == n / 64 && x.1 < 512 && x.2.sys.draining

/-- The test of a drained core ends, which began at `start`. -/
def State.coreTested (s : State) (n start : Nat) (pass : Bool) : State :=
  let t := s.clearCore n
  let c := t.coreAt n
  let y := { c.sys with draining := false, testAt := none }
  if pass then ((t.setCoreAt n { c with sys := { y with passed := start, used := [] } }).addHealth (n / 64) 1 1).noteConf
  else
    let u := (t.setCoreAt n { c with sys := { y with fenced := true } }).addHealth (n / 64) 2 1
    ((u.report c.sys.passed (faultReport 1 n c.sys.used c.sys.passed s.dev.now)).writeInventory).noteConf

/-- ROTATION_CORE_TEST: the core is drained, its unit pre-empted at the first point that lets it leave; a unit of a gang or of world 15
ends first, and the core is drained then; once it is idle the test of its
segments begins, once in each period, and the next event ends it. A test that has begun ends even when the rotation is disabled
meanwhile. -/
def execRotationCoreTest (core : Nat) (pass : Bool) (s : State) : Outcome State Fault Refusal :=
  event s (.ok (
    let c := s.coreAt core
    if !s.inService || (!c.sys.draining && !(s.dev.rot.enabled && s.periodDue c.sys.passed)) || decide (512 ≤ core) || !c.sys.enabled ||
        c.sys.fenced || s.dieDown core || s.dieBusy core || (c.c.busy && !c.sys.draining && s.testWaits core) then s
    else match c.sys.testAt with
      | some start => s.coreTested core start pass
      | none =>
        let start := if c.c.busy then none else some s.dev.now
        let t := s.setCoreAt core { c with sys := { c.sys with draining := true, testAt := start } }
        if c.mayLeave && !s.testWaits core then t.preempt core else t))

/-- The test of a held quadrant ends; it began with the hold. -/
def State.quadTested (s : State) (ltn q : Nat) (pass : Bool) : State :=
  let l := s.lanternAt ltn
  let d := l.quad q
  let free (d : Quad) : State := (s.setLanternAt ltn { (l.setQuad q d) with rotWant := none }).arbiterPass ltn
  if pass then ((free d.passes).addHealth (ltn / 16) 1 1).noteConf
  else
    let u := (free { d.tested with fenced := true }).addHealth (ltn / 16) 2 1
    ((u.report d.passed (faultReport 2 (4 * ltn + q) d.used d.passed s.dev.now)).writeInventory).noteConf

/-- Rows that the last test of a quadrant left out are free now, and nobody holds it: they are tested (20 R508). -/
def Quad.restFree (d : Quad) : Bool := d.holder.isNone && !d.held && d.rest.any fun r => !d.rowParked r

/-- The test of such rows (log 139). -/
def State.restTested (s : State) (ltn q : Nat) (pass : Bool) : State :=
  let l := s.lanternAt ltn
  let d := l.quad q
  if pass then (s.setLanternAt ltn (l.setQuad q { d with rest := d.rest.filter d.rowParked })).addHealth (ltn / 16) 1 1
  else
    let u := (s.setLanternAt ltn (l.setQuad q { d with fenced := true })).addHealth (ltn / 16) 2 1
    ((u.report d.passed (faultReport 2 (4 * ltn + q) d.used d.passed s.dev.now)).writeInventory).noteConf

/-- ROTATION_QUADRANT_TEST: the quadrant is asked of the arbiter, once in each period (08 R290); once the rotation holds it, its test ends
and it is released. Parked rows are tested once they are free. -/
def execRotationQuadrantTest (ltn q : Nat) (pass : Bool) (s : State) : Outcome State Fault Refusal :=
  event s (.ok (
    let l := s.lanternAt ltn
    if !s.inService || (!s.dev.rot.enabled && l.rotWant.isNone) || decide (128 ≤ ltn) || !hasQuad l.live q || s.dieDown (4 * ltn) then s
    else match l.rotWant with
      | none =>
        if match (l.quad q).lastHold with | some t => s.periodDue t | none => true then
          (s.setLanternAt ltn { l with rotWant := some q }).arbiterPass ltn
        else if (l.quad q).restFree then s.restTested ltn q pass
        else s
      | some r =>
        if r ≠ q then s
        else if (l.quad q).held then s.quadTested ltn q pass
        else s.arbiterPass ltn))

/-! ### Errors of on-chip memories (17 R466) -/

/-- The lane that engine `e` of the core in focus comes to in its line, with the indices for which it acts: lanes that do not issue are
passed as empty ones (14 R406, R407). -/
def State.nextLane (s : State) (e : Engine) : Option LaneAt :=
  let p := s.u.eng e
  (s.u.line? p.serial).bind fun ln =>
    ((s.lanesIn ln e).filter fun l => decide (p.lane ≤ l.n)).findSome? fun l => (l.issue ln.iter).map fun idx =>
      { s.laneAt e with addr := ln.addr + 4 * l.n, iter := (idx ++ List.replicate 6 0).take 6, place := p.serial * 8 + l.n }

/-- A staged line's granule is poisoned for the run of the unit in focus; committed memory's where no launch stages it (10 R361). -/
def State.poisonStaged (s : State) (a : Nat) : State :=
  let g := a / 32 * 32
  match s.core.unit.lid.bind s.launch? with
  | some l =>
    let run := s.core.unit.run
    s.setLaunch (l.setStage run { l.stage run with bad := Sparse.set false (l.stage run).bad g true })
  | none => s.modMem fun m => { m with poison := Sparse.set false m.poison g true }

/-- The matrix command of the core in focus that reads its operands next: the product in progress, or the head of the queue. -/
def State.failMatrix (s : State) : State :=
  match s.product, s.core.c.mat.cur, s.core.c.mat.mq with
  | some _, some c, _ =>
    ((s.setRcd fun x => { x with active := false }).trapM .sramUncorrectable 0 c.lane).modMat fun m => { m with cur := none }
  | none, _, c :: _ => if s.trapOpen then s else s.trapM .sramUncorrectable 0 c.lane
  | _, _, _ => s

/-- The copy command of the core in focus that acts next. -/
def State.failCopy (s : State) : State :=
  match s.pickCopy s.trapOpen 0 [] s.core.x.xq with
  | some (i, c) => s.trapX i .sramUncorrectable 0 c.lane
  | none => s

/-- The stream of a queue of the core in focus. -/
def State.failStream (s : State) (q : Nat) : State :=
  match s.qbind q with
  | some (.stream p) => if s.accessRuns then (s.setQbind q none).pendTrap .a .sramUncorrectable 0 p.lane else s
  | _ => s

/-- The lane that engine `e` of the core in focus comes to reads what has an error: it traps, precisely on the control engine (06 R186,
17 R458; log 115). -/
def State.failLane (s : State) (e : Engine) : State :=
  if !s.canMove e then s
  else match s.nextLane e with
    | none => s
    | some l => if e = .c then s.takeTrap .c .sramUncorrectable 0 0 l else s.pendTrap e .sramUncorrectable 0 l

/-- An error beyond correction in what a unit reads: a device-level fault where world 15 owns it. -/
def State.sramError (s : State) (n : Nat) (f : State → State) : State :=
  let t := s.focus n
  if t.privileged then t.noteUncorr.deviceFault else f t

/-- Of a command that a unit has issued, whether or not its handler runs. -/
def State.commandError (s : State) (n : Nat) (seg : Nat) (f : State → State) : State :=
  let t := s.focus n
  if t.core.unit.world = 15 then t.noteUncorr.deviceFault
  else if !t.segRuns seg then t
  else match t.asUnit fun u => .ok (f u) with
    | .ok u => u
    | .error _ => t

/-- An error of an on-chip memory takes its effect: corrected with a freeze; a clean line fetched again, which CORR counts; a granule
poisoned; what reads it traps; an instruction fetched again, which UNCORR counts; a device-level fault for what world 15 owns (17 R466;
log 115). An error that nothing reads has no effect. -/
def State.upset (s : State) : Upset → State
  | .corrected n => s.noteCorrection n
  | .cleanLine n =>
    let c := s.coreAt n
    s.setCoreAt n { c with sys := { c.sys with tr := { c.sys.tr with errcnt := countCorr c.sys.tr.errcnt } } }
  | .dirtyLine _ a => s.modMem fun m => { m with poison := Sparse.set false m.poison (a / 32 * 32) true }
  | .stagedLine n a => (s.focus n).poisonStaged a
  | .sram n e => s.sramError n fun t => t.failLane e
  | .matrix n => s.commandError n 0 State.failMatrix
  | .copy n => s.commandError n 3 State.failCopy
  | .stream n q => s.sramError n fun t => t.failStream q.toNat
  | .icache n => (s.focus n).noteUncorr
  | .world15 n => ((s.focus n).noteUncorr).deviceFault

/-- What is noted after a turn: the launches that it has made ready, with the time (16 R440; log 100), and snuffers that have run out (21
R520). -/
def State.noteTurn (s : State) : State := s.noteExpired.stampReady

/-- A turn is over. -/
def State.afterTurn (o : Outcome State Fault Refusal) : Outcome State Fault Refusal :=
  match o with
  | .next t => .next t.noteTurn
  | .fault f => .fault f
  | .refused r => .refused r

/-! ### Health and clocks (20 R515-R517) -/

/-- The counters of a die: corrected and uncorrectable errors of its cores. -/
def State.dieErrors (s : State) (die : Nat) : Nat × Nat :=
  s.cores.foldl (fun n x =>
    if dieOf x.1 = die then
      (n.1 + x.2.sys.tr.errcnt.toNat % 2 ^ 32, n.2 + x.2.sys.tr.errcnt.toNat / 2 ^ 32)
    else n) (0, 0)

/-- A health record's bytes 8 to 63. -/
def State.healthBytes (s : State) (k temp power : Nat) : Bytes :=
  let h (i : Nat) : Nat := Sparse.get 0 s.dev.health (16 * k + i)
  let (corr, uncorr) := s.dieErrors k
  natLe 2 temp ++ natLe 2 (s.clockOf k) ++ natLe 4 power ++ natLe 8 corr ++ natLe 8 uncorr ++
  natLe 4 (Sparse.get 0 s.dev.throttle k) ++ natLe 4 (h 1) ++ natLe 2 (h 2) ++
  natLe 1 (if s.dev.m.offline / 2 ^ k % 2 = 1 then 2 else if (s.dev.evac.map Prod.fst) = some k then 1 else 0) ++ natLe 21 0

/-- The sensors of a die. -/
def State.senseOf (s : State) (die : Nat) : Sense := Sparse.get Sense.reset s.dev.sense die

/-- Replace them. -/
def State.setSense (s : State) (die : Nat) (x : Sense) : State :=
  s.modDev fun d => { d with sense := Sparse.set Sense.reset d.sense die x }

/-- The sensors of a compute die show `power` mW over the last millisecond and a hottest junction of `temp` sixteenths of 1 °C (20 R515,
R516): `low` keeps the time since when both have stood below 95 % of 480 W and 100 °C. -/
def State.sensed (s : State) (die power temp : Nat) : State :=
  if die < 8 then
    let x := s.senseOf die
    s.setSense die { x with power := power, temp := temp,
                            low := if power < 456000 ∧ temp < 1600 then some (x.low.getD s.dev.now) else none }
  else s

/-- HEALTH_UPDATE: the record of a socket, what its sensors show, and CONFTIME. -/
def execHealthUpdate (socket : Nat) (temp : BitVec 16) (power : BitVec 32) (s : State) : Outcome State Fault Refusal :=
  event s (.ok (
    if s.inService && decide (socket < 16) then
      let t := s.addHealth socket 0 1
      let n := Sparse.get 0 t.dev.health (16 * socket)
      ((t.anchorWrite (0x6000 + 64 * socket) (natLe 8 n ++ t.healthBytes socket temp.toNat power.toNat)).sensed socket power.toNat
        temp.toNat).noteConf
    else s))

/-- A die's clock changes. -/
def State.setClock (s : State) (die mhz : Nat) : State := s.modDev fun d => { d with clock := Sparse.set 1800 d.clock die mhz }

/-- A die is over its power limit of 480 W or over 105 °C, and 100 µs have passed since it last stepped down (20 R516). -/
def State.tooHot (s : State) (die : Nat) : Bool :=
  let x := s.senseOf die
  (decide (480000 < x.power) || decide (1680 < x.temp)) && x.step.all fun t => decide (t + 100000000 ≤ s.dev.now)

/-- A die has stood below 95 % of its limit and 100 °C for 10 ms (20 R516). -/
def State.coolFor (s : State) (die : Nat) : Bool := (s.senseOf die).low.any fun t => decide (t + 10000000000 ≤ s.dev.now)

/-- CLOCK_STEP_DOWN: a die over a limit steps down by 50 MHz, to no lower than 1,000 MHz, and counts the step (log 137). -/
def execClockStepDown (die : Nat) (s : State) : Outcome State Fault Refusal :=
  event s (.ok (
    if s.dev.powered ∧ die < 8 ∧ 1000 < s.clockOf die ∧ s.tooHot die = true then
      ((s.setClock die (max 1000 (s.clockOf die - 50))).setSense die { s.senseOf die with step := some s.dev.now }).modDev fun d =>
        { d with throttle := Sparse.set 0 d.throttle die (Sparse.get 0 d.throttle die + 1) }
    else s))

/-- CLOCK_STEP_UP: a die that has been cool for 10 ms steps up by 50 MHz, to no higher than 1,800 MHz; the next step up takes as long
again (log 137). -/
def execClockStepUp (die : Nat) (s : State) : Outcome State Fault Refusal :=
  event s (.ok (
    if s.dev.powered ∧ die < 8 ∧ s.coolFor die = true then
      (s.setClock die (min 1800 (s.clockOf die + 50))).setSense die { s.senseOf die with low := some s.dev.now }
    else s))

/-! ### Banks (02 R72, R73): visible only as time -/

/-- BANK_DROWSY: contents are kept, and the next access takes 12 cycles longer, which is time only (log 40). -/
def execBankDrowsy (_core _bank : Nat) (s : State) : Outcome State Fault Refusal := event s (.ok s)

/-- BANK_POWER_GATED: the bank's registers are dead and read as dead registers do; a later write stalls for 40 cycles, which is
time only (log 40). -/
def execBankPowerGated (_core _bank : Nat) (s : State) : Outcome State Fault Refusal := event s (.ok s)

/-! ### The fabric (19 R493, R494) -/

/-- FABRIC_LINK_UP: the peer's DEVID is authenticated. -/
def execFabricLinkUp (devid : Bytes) (s : State) : Outcome State Fault Refusal :=
  event s (.ok (if s.dev.sec.peers.contains devid then s
    else s.modDev fun d => { d with sec := { d.sec with peers := d.sec.peers ++ [devid] } }))

/-- The keys of a group's handle: the key that opens it, and the memory key of the world that owns the handle. The null key has
no owner in the spec, so what it writes stands under a key that nothing names (log 41). -/
def State.groupKeys (s : State) (h : Nat) : Option (KeyId × KeyId) :=
  if h = 0xFFF then some (.null, .lost s.dev.fresh)
  else (s.dev.sec.keys.find? fun k => k.handle == h).map fun k => (k.id, s.memKey k.world)

/-- A group as its sender laid it out (09 R344): KEY, KIND, LEN, IV, the request block, the payload with its tag. -/
def groupFields (bs : Bytes) : Nat × Nat × Nat × Nat × Bytes × Bytes :=
  let rb := bs.take 64
  (fieldOf rb 0 2, fieldOf rb 3 1, fieldOf rb 4 4, fieldOf rb 8 12, rb, (bs.drop 64).take (fieldOf rb 4 4 + 16))

/-- Write an opened group: payload, or the descriptors of the blocks from the address up. -/
def State.writeGroup (s : State) (k : KeyId) (kind a : Nat) (p : Bytes) : State :=
  if kind = 0 then s.modMem fun m => (m.put k a p).repair a p.length
  else
    let ds : List Desc := (List.range (p.length / 2)).map fun i => ⟨p.getD (2 * i) 0, p.getD (2 * i + 1) 0⟩
    s.modMem fun m => { m with desc := Sparse.setMany Desc.zero m.desc (a / 64) ds }

/-- FABRIC_GROUP_ARRIVAL: a group that verifies is written, any other is not. -/
def execFabricGroupArrival (addr : Nat) (data : Bytes) (s : State) : Outcome State Fault Refusal :=
  event s (
    if s.dev.powered = false ∨ s.dev.stateWord ≠ 1 then .ok s
    else
      let (h, kind, len, iv, rb, body) := groupFields data
      match s.groupKeys h with
      | none => .ok s
      | some (k, mk) =>
        if fieldOf rb 2 1 ≠ 2 ∨ 2 ≤ kind ∨ len = 0 ∨ 4096 < len then .ok s
        else match gcmOpen k iv rb body with
          | none => .ok s
          | some p =>
            if memTop + 1 < addr + len then .error (.fault (.absentMemory addr))
            else .ok ((s.freshen).writeGroup mk kind addr (fit len p)))

end Sys2Proof.Machine
end

