-- ==== Sys2Proof/Machine/Dispatch.lean ====
section
/-! DEFINITION. One arm for each constructor of Instr. -/

namespace Sys2Proof.Machine

open Sys2Proof Host

def exec (i : Instr) (s : State) : Host.Outcome State Fault Refusal :=
  match i with
  | .nop e => Sys2Proof.Machine.execNop e s
  | .endE e => Sys2Proof.Machine.execEndE e s
  | .finc e f n => Sys2Proof.Machine.execFinc e f n s
  | .fwait e f sub n => Sys2Proof.Machine.execFwait e f sub n s
  | .fwaitComplete core => Sys2Proof.Machine.execFwaitComplete core s
  | .fset e f n => Sys2Proof.Machine.execFset e f n s
  | .kwait e k n => Sys2Proof.Machine.execKwait e k n s
  | .add rd s1 s2 => Sys2Proof.Machine.execAdd rd s1 s2 s
  | .addImm rd s1 imm => Sys2Proof.Machine.execAddImm rd s1 imm s
  | .sub rd s1 s2 => Sys2Proof.Machine.execSub rd s1 s2 s
  | .subImm rd s1 imm => Sys2Proof.Machine.execSubImm rd s1 imm s
  | .mul rd s1 s2 => Sys2Proof.Machine.execMul rd s1 s2 s
  | .mulImm rd s1 imm => Sys2Proof.Machine.execMulImm rd s1 imm s
  | .mulhu rd s1 s2 => Sys2Proof.Machine.execMulhu rd s1 s2 s
  | .mulhuImm rd s1 imm => Sys2Proof.Machine.execMulhuImm rd s1 imm s
  | .mulhs rd s1 s2 => Sys2Proof.Machine.execMulhs rd s1 s2 s
  | .mulhsImm rd s1 imm => Sys2Proof.Machine.execMulhsImm rd s1 imm s
  | .divu rd s1 s2 => Sys2Proof.Machine.execDivu rd s1 s2 s
  | .divuImm rd s1 imm => Sys2Proof.Machine.execDivuImm rd s1 imm s
  | .divs rd s1 s2 => Sys2Proof.Machine.execDivs rd s1 s2 s
  | .divsImm rd s1 imm => Sys2Proof.Machine.execDivsImm rd s1 imm s
  | .remu rd s1 s2 => Sys2Proof.Machine.execRemu rd s1 s2 s
  | .remuImm rd s1 imm => Sys2Proof.Machine.execRemuImm rd s1 imm s
  | .rems rd s1 s2 => Sys2Proof.Machine.execRems rd s1 s2 s
  | .remsImm rd s1 imm => Sys2Proof.Machine.execRemsImm rd s1 imm s
  | .and rd s1 s2 => Sys2Proof.Machine.execAnd rd s1 s2 s
  | .andImm rd s1 imm => Sys2Proof.Machine.execAndImm rd s1 imm s
  | .or rd s1 s2 => Sys2Proof.Machine.execOr rd s1 s2 s
  | .orImm rd s1 imm => Sys2Proof.Machine.execOrImm rd s1 imm s
  | .xor rd s1 s2 => Sys2Proof.Machine.execXor rd s1 s2 s
  | .xorImm rd s1 imm => Sys2Proof.Machine.execXorImm rd s1 imm s
  | .andn rd s1 s2 => Sys2Proof.Machine.execAndn rd s1 s2 s
  | .andnImm rd s1 imm => Sys2Proof.Machine.execAndnImm rd s1 imm s
  | .shl rd s1 s2 => Sys2Proof.Machine.execShl rd s1 s2 s
  | .shlImm rd s1 imm => Sys2Proof.Machine.execShlImm rd s1 imm s
  | .shr rd s1 s2 => Sys2Proof.Machine.execShr rd s1 s2 s
  | .shrImm rd s1 imm => Sys2Proof.Machine.execShrImm rd s1 imm s
  | .sar rd s1 s2 => Sys2Proof.Machine.execSar rd s1 s2 s
  | .sarImm rd s1 imm => Sys2Proof.Machine.execSarImm rd s1 imm s
  | .rotl rd s1 s2 => Sys2Proof.Machine.execRotl rd s1 s2 s
  | .rotlImm rd s1 imm => Sys2Proof.Machine.execRotlImm rd s1 imm s
  | .min rd s1 s2 => Sys2Proof.Machine.execMin rd s1 s2 s
  | .minImm rd s1 imm => Sys2Proof.Machine.execMinImm rd s1 imm s
  | .max rd s1 s2 => Sys2Proof.Machine.execMax rd s1 s2 s
  | .maxImm rd s1 imm => Sys2Proof.Machine.execMaxImm rd s1 imm s
  | .minu rd s1 s2 => Sys2Proof.Machine.execMinu rd s1 s2 s
  | .minuImm rd s1 imm => Sys2Proof.Machine.execMinuImm rd s1 imm s
  | .maxu rd s1 s2 => Sys2Proof.Machine.execMaxu rd s1 s2 s
  | .maxuImm rd s1 imm => Sys2Proof.Machine.execMaxuImm rd s1 imm s
  | .clz rd s1 => Sys2Proof.Machine.execClz rd s1 s
  | .ctz rd s1 => Sys2Proof.Machine.execCtz rd s1 s
  | .popc rd s1 => Sys2Proof.Machine.execPopc rd s1 s
  | .sext rd s1 s2 => Sys2Proof.Machine.execSext rd s1 s2 s
  | .sextImm rd s1 imm => Sys2Proof.Machine.execSextImm rd s1 imm s
  | .zext rd s1 s2 => Sys2Proof.Machine.execZext rd s1 s2 s
  | .zextImm rd s1 imm => Sys2Proof.Machine.execZextImm rd s1 imm s
  | .sel rd s1 s2 s3 => Sys2Proof.Machine.execSel rd s1 s2 s3 s
  | .cmp rd s1 s2 cond => Sys2Proof.Machine.execCmp rd s1 s2 cond s
  | .li rd imm => Sys2Proof.Machine.execLi rd imm s
  | .b off => Sys2Proof.Machine.execB off s
  | .bc cond s1 s2 off => Sys2Proof.Machine.execBc cond s1 s2 off s
  | .br s1 => Sys2Proof.Machine.execBr s1 s
  | .call off => Sys2Proof.Machine.execCall off s
  | .callr s1 => Sys2Proof.Machine.execCallr s1 s
  | .ret => Sys2Proof.Machine.execRet s
  | .frame f => Sys2Proof.Machine.execFrame f s
  | .ld rt s1 sz sg off => Sys2Proof.Machine.execLd rt s1 sz sg off s
  | .st rt s1 sz off => Sys2Proof.Machine.execSt rt s1 sz off s
  | .amoAdd rd s1 s2 scope wide => Sys2Proof.Machine.execAmoAdd rd s1 s2 scope wide s
  | .amoAnd rd s1 s2 scope wide => Sys2Proof.Machine.execAmoAnd rd s1 s2 scope wide s
  | .amoOr rd s1 s2 scope wide => Sys2Proof.Machine.execAmoOr rd s1 s2 scope wide s
  | .amoXor rd s1 s2 scope wide => Sys2Proof.Machine.execAmoXor rd s1 s2 scope wide s
  | .amoMin rd s1 s2 scope wide => Sys2Proof.Machine.execAmoMin rd s1 s2 scope wide s
  | .amoMax rd s1 s2 scope wide => Sys2Proof.Machine.execAmoMax rd s1 s2 scope wide s
  | .amoXch rd s1 s2 scope wide => Sys2Proof.Machine.execAmoXch rd s1 s2 scope wide s
  | .amoCas rd s1 s2 s3 scope wide => Sys2Proof.Machine.execAmoCas rd s1 s2 s3 scope wide s
  | .acq rd s1 s2 scope => Sys2Proof.Machine.execAcq rd s1 s2 scope s
  | .rel rd s1 s2 scope => Sys2Proof.Machine.execRel rd s1 s2 scope s
  | .bind s1 s2 s3 scope => Sys2Proof.Machine.execBind s1 s2 s3 scope s
  | .unbind s1 s2 scope => Sys2Proof.Machine.execUnbind s1 s2 scope s
  | .fence scope => Sys2Proof.Machine.execFence scope s
  | .setShape h s1 s2 s3 fmt => Sys2Proof.Machine.execSetShape h s1 s2 s3 fmt s
  | .getShape rd h sl => Sys2Proof.Machine.execGetShape rd h sl s
  | .thld h s1 off => Sys2Proof.Machine.execThld h s1 off s
  | .thst h s1 off => Sys2Proof.Machine.execThst h s1 off s
  | .thset h fs s1 => Sys2Proof.Machine.execThset h fs s1 s
  | .thget rd h fs => Sys2Proof.Machine.execThget rd h fs s
  | .seql n s1 => Sys2Proof.Machine.execSeql n s1 s
  | .seqs n j ak s1 => Sys2Proof.Machine.execSeqs n j ak s1 s
  | .loopb lv len => Sys2Proof.Machine.execLoopb lv len s
  | .loopc lv len s1 s2 => Sys2Proof.Machine.execLoopc lv len s1 s2 s
  | .loopIterationBoundary core => Sys2Proof.Machine.execLoopIterationBoundary core s
  | .overwritingIterationStart core => Sys2Proof.Machine.execOverwritingIterationStart core s
  | .ovw n => Sys2Proof.Machine.execOvw n s
  | .foot j ak s1 s2 s3 => Sys2Proof.Machine.execFoot j ak s1 s2 s3 s
  | .footv ak vs => Sys2Proof.Machine.execFootv ak vs s
  | .region s1 s2 s3 s4 => Sys2Proof.Machine.execRegion s1 s2 s3 s4 s
  | .regionEnd => Sys2Proof.Machine.execRegionEnd s
  | .exitI => Sys2Proof.Machine.execExitI s
  | .yieldI => Sys2Proof.Machine.execYieldI s
  | .locq rd s1 => Sys2Proof.Machine.execLocq rd s1 s
  | .csrr rd csr => Sys2Proof.Machine.execCsrr rd csr s
  | .csrw csr s1 => Sys2Proof.Machine.execCsrw csr s1 s
  | .winstWrite core val => Sys2Proof.Machine.execWinstWrite core val s
  | .trap s1 code => Sys2Proof.Machine.execTrap s1 code s
  | .eret => Sys2Proof.Machine.execEret s
  | .waitmem rd s1 s2 scope => Sys2Proof.Machine.execWaitmem rd s1 s2 scope s
  | .scstopCyc s1 s2 s3 => Sys2Proof.Machine.execScstopCyc s1 s2 s3 s
  | .scstopBeat s1 s2 s3 => Sys2Proof.Machine.execScstopBeat s1 s2 s3 s
  | .scstopCountElapsed ltn => Sys2Proof.Machine.execScstopCountElapsed ltn s
  | .scout rd s1 s2 s3 s4 spad => Sys2Proof.Machine.execScout rd s1 s2 s3 s4 spad s
  | .scin rd s1 s2 s3 spad => Sys2Proof.Machine.execScin rd s1 s2 s3 spad s
  | .scgo s1 s2 => Sys2Proof.Machine.execScgo s1 s2 s
  | .scown s1 s2 s3 => Sys2Proof.Machine.execScown s1 s2 s3 s
  | .diaginjProd s1 s2 s3 => Sys2Proof.Machine.execDiaginjProd s1 s2 s3 s
  | .diaginjAcc s1 s2 s3 => Sys2Proof.Machine.execDiaginjAcc s1 s2 s3 s
  | .diaginjVreg s1 s2 s3 => Sys2Proof.Machine.execDiaginjVreg s1 s2 s3 s
  | .diaginjSpad s1 s2 s3 => Sys2Proof.Machine.execDiaginjSpad s1 s2 s3 s
  | .tlbinv kind s1 s2 => Sys2Proof.Machine.execTlbinv kind s1 s2 s
  | .kissue rd s1 s2 => Sys2Proof.Machine.execKissue rd s1 s2 s
  | .sxfer rd s1 => Sys2Proof.Machine.execSxfer rd s1 s
  | .cancel rd s1 lvl => Sys2Proof.Machine.execCancel rd s1 lvl s
  | .frameset s1 s2 slot => Sys2Proof.Machine.execFrameset s1 s2 slot s
  | .aadd ad s1 s2 => Sys2Proof.Machine.execAadd ad s1 s2 s
  | .aaddImm ad s1 imm => Sys2Proof.Machine.execAaddImm ad s1 imm s
  | .amov ad s1 => Sys2Proof.Machine.execAmov ad s1 s
  | .amovCtrl ad e1 => Sys2Proof.Machine.execAmovCtrl ad e1 s
  | .ali ad imm => Sys2Proof.Machine.execAli ad imm s
  | .amul ad s1 s2 => Sys2Proof.Machine.execAmul ad s1 s2 s
  | .amulImm ad s1 imm => Sys2Proof.Machine.execAmulImm ad s1 imm s
  | .ashl ad s1 s2 => Sys2Proof.Machine.execAshl ad s1 s2 s
  | .ashlImm ad s1 imm => Sys2Proof.Machine.execAshlImm ad s1 imm s
  | .aand ad s1 s2 => Sys2Proof.Machine.execAand ad s1 s2 s
  | .aandImm ad s1 imm => Sys2Proof.Machine.execAandImm ad s1 imm s
  | .ard q s1 off => Sys2Proof.Machine.execArd q s1 off s
  | .awr q s1 off => Sys2Proof.Machine.execAwr q s1 off s
  | .ardg q s1 qi ew => Sys2Proof.Machine.execArdg q s1 qi ew s
  | .awrs s1 qd qi => Sys2Proof.Machine.execAwrs s1 qd qi s
  | .astream q n lv => Sys2Proof.Machine.execAstream q n lv s
  | .streamLoadElement core q => Sys2Proof.Machine.execStreamLoadElement core q s
  | .streamStoreElement core q => Sys2Proof.Machine.execStreamStoreElement core q s
  | .aunbind q => Sys2Proof.Machine.execAunbind q s
  | .atile t s1 s2 fmt => Sys2Proof.Machine.execAtile t s1 s2 fmt s
  | .apln td ts => Sys2Proof.Machine.execApln td ts s
  | .aunpln td ts rm => Sys2Proof.Machine.execAunpln td ts rm s
  | .acb c s1 s2 size => Sys2Proof.Machine.execAcb c s1 s2 size s
  | .acbGet ad c => Sys2Proof.Machine.execAcbGet ad c s
  | .acbRel c => Sys2Proof.Machine.execAcbRel c s
  | .vadd vd vs1 vs2 rm => Sys2Proof.Machine.execVadd vd vs1 vs2 rm s
  | .vsub vd vs1 vs2 rm => Sys2Proof.Machine.execVsub vd vs1 vs2 rm s
  | .vmul vd vs1 vs2 rm => Sys2Proof.Machine.execVmul vd vs1 vs2 rm s
  | .vmulh vd vs1 vs2 => Sys2Proof.Machine.execVmulh vd vs1 vs2 s
  | .vma vd vs1 vs2 rm c => Sys2Proof.Machine.execVma vd vs1 vs2 rm c s
  | .vdiv vd vs1 vs2 rm => Sys2Proof.Machine.execVdiv vd vs1 vs2 rm s
  | .vsqrt vd vs1 rm => Sys2Proof.Machine.execVsqrt vd vs1 rm s
  | .vmin vd vs1 vs2 => Sys2Proof.Machine.execVmin vd vs1 vs2 s
  | .vmax vd vs1 vs2 => Sys2Proof.Machine.execVmax vd vs1 vs2 s
  | .vabs vd vs1 => Sys2Proof.Machine.execVabs vd vs1 s
  | .vneg vd vs1 => Sys2Proof.Machine.execVneg vd vs1 s
  | .vshl vd vs1 vs2 => Sys2Proof.Machine.execVshl vd vs1 vs2 s
  | .vshr vd vs1 vs2 => Sys2Proof.Machine.execVshr vd vs1 vs2 s
  | .vsar vd vs1 vs2 => Sys2Proof.Machine.execVsar vd vs1 vs2 s
  | .vand vd vs1 vs2 => Sys2Proof.Machine.execVand vd vs1 vs2 s
  | .vor vd vs1 vs2 => Sys2Proof.Machine.execVor vd vs1 vs2 s
  | .vxor vd vs1 vs2 => Sys2Proof.Machine.execVxor vd vs1 vs2 s
  | .vnot vd vs1 => Sys2Proof.Machine.execVnot vd vs1 s
  | .vpopc vd vs1 => Sys2Proof.Machine.execVpopc vd vs1 s
  | .vclz vd vs1 => Sys2Proof.Machine.execVclz vd vs1 s
  | .vexp vd vs1 rm => Sys2Proof.Machine.execVexp vd vs1 rm s
  | .vexp2 vd vs1 rm => Sys2Proof.Machine.execVexp2 vd vs1 rm s
  | .vlog vd vs1 rm => Sys2Proof.Machine.execVlog vd vs1 rm s
  | .vlog2 vd vs1 rm => Sys2Proof.Machine.execVlog2 vd vs1 rm s
  | .vsin vd vs1 rm => Sys2Proof.Machine.execVsin vd vs1 rm s
  | .vcos vd vs1 rm => Sys2Proof.Machine.execVcos vd vs1 rm s
  | .vtanh vd vs1 rm => Sys2Proof.Machine.execVtanh vd vs1 rm s
  | .verf vd vs1 rm => Sys2Proof.Machine.execVerf vd vs1 rm s
  | .vrcp vd vs1 rm => Sys2Proof.Machine.execVrcp vd vs1 rm s
  | .vrsqrt vd vs1 rm => Sys2Proof.Machine.execVrsqrt vd vs1 rm s
  | .vcvt vd vs1 part t rm => Sys2Proof.Machine.execVcvt vd vs1 part t rm s
  | .vscale vd vs1 val => Sys2Proof.Machine.execVscale vd vs1 val s
  | .vscaleAdd vd vs1 val => Sys2Proof.Machine.execVscaleAdd vd vs1 val s
  | .vtag vd vs1 fmt => Sys2Proof.Machine.execVtag vd vs1 fmt s
  | .vseed xs => Sys2Proof.Machine.execVseed xs s
  | .vunt5 vd vs1 chk part => Sys2Proof.Machine.execVunt5 vd vs1 chk part s
  | .vun4o vd vs1 part t rm => Sys2Proof.Machine.execVun4o vd vs1 part t rm s
  | .vpk vd vs1 part t rm => Sys2Proof.Machine.execVpk vd vs1 part t rm s
  | .vtadd vd vs1 vs2 rm => Sys2Proof.Machine.execVtadd vd vs1 vs2 rm s
  | .vrsum vd vs1 rm => Sys2Proof.Machine.execVrsum vd vs1 rm s
  | .vrmax vd vs1 => Sys2Proof.Machine.execVrmax vd vs1 s
  | .vrmin vd vs1 => Sys2Proof.Machine.execVrmin vd vs1 s
  | .vshuf vd vs1 vs2 => Sys2Proof.Machine.execVshuf vd vs1 vs2 s
  | .vslide vd vs1 sh => Sys2Proof.Machine.execVslide vd vs1 sh s
  | .vbcast vd vs1 ix => Sys2Proof.Machine.execVbcast vd vs1 ix s
  | .vsplat vd xs fmt => Sys2Proof.Machine.execVsplat vd xs fmt s
  | .vextr xd vs1 ix => Sys2Proof.Machine.execVextr xd vs1 ix s
  | .vmov vd vs1 => Sys2Proof.Machine.execVmov vd vs1 s
  | .vli vd imm => Sys2Proof.Machine.execVli vd imm s
  | .vcmp vs1 vs2 cond => Sys2Proof.Machine.execVcmp vs1 vs2 cond s
  | .vminv => Sys2Proof.Machine.execVminv s
  | .vmpop n => Sys2Proof.Machine.execVmpop n s
  | .vskip off => Sys2Proof.Machine.execVskip off s
  | .vmget vd d => Sys2Proof.Machine.execVmget vd d s
  | .vpark vr => Sys2Proof.Machine.execVpark vr s
  | .vunpark vr => Sys2Proof.Machine.execVunpark vr s
  | .vpushm vf vl => Sys2Proof.Machine.execVpushm vf vl s
  | .vpopm vf vl => Sys2Proof.Machine.execVpopm vf vl s
  | .vsetsh h => Sys2Proof.Machine.execVsetsh h s
  | .mlease q tok => Sys2Proof.Machine.execMlease q tok s
  | .mfree q tok => Sys2Proof.Machine.execMfree q tok s
  | .mma ta tb h rm tok => Sys2Proof.Machine.execMma ta tb h rm tok s
  | .mmah ta tb h rm tok which ts e1 e2 => Sys2Proof.Machine.execMmah ta tb h rm tok which ts e1 e2 s
  | .mmack ta tb h rm tok => Sys2Proof.Machine.execMmack ta tb h rm tok s
  | .mmabx ta tb h tok => Sys2Proof.Machine.execMmabx ta tb h tok s
  | .mmaba ta tb h tok => Sys2Proof.Machine.execMmaba ta tb h tok s
  | .mclr h tok => Sys2Proof.Machine.execMclr h tok s
  | .mclrAll h tok => Sys2Proof.Machine.execMclrAll h tok s
  | .mldacc ta h tok => Sys2Proof.Machine.execMldacc ta h tok s
  | .mstacc ta h rm tok => Sys2Proof.Machine.execMstacc ta h rm tok s
  | .mchk ta h rm tok => Sys2Proof.Machine.execMchk ta h rm tok s
  | .mseed q xs tok => Sys2Proof.Machine.execMseed q xs tok s
  | .matrixCommandComplete core => Sys2Proof.Machine.execMatrixCommandComplete core s
  | .xcopyLd t h tok fl e1 e2 e3 e4 => Sys2Proof.Machine.execXcopyLd t h tok fl e1 e2 e3 e4 s
  | .xcopySt t h tok fl e1 e2 e3 e4 => Sys2Proof.Machine.execXcopySt t h tok fl e1 e2 e3 e4 s
  | .xcopySs td ts tok fl => Sys2Proof.Machine.execXcopySs td ts tok fl s
  | .xcopys t h tok fl e1 e2 => Sys2Proof.Machine.execXcopys t h tok fl e1 e2 s
  | .xcb c h tok fl e1 e2 e3 e4 => Sys2Proof.Machine.execXcb c h tok fl e1 e2 e3 e4 s
  | .xcbSlotTake core => Sys2Proof.Machine.execXcbSlotTake core s
  | .xhost t dir tok fl e1 e2 e3 => Sys2Proof.Machine.execXhost t dir tok fl e1 e2 e3 s
  | .xpeer t dir tok fl e1 => Sys2Proof.Machine.execXpeer t dir tok fl e1 s
  | .xcoll t rm op tok fl e1 e2 => Sys2Proof.Machine.execXcoll t rm op tok fl e1 e2 s
  | .xgath q h t tok fl e1 e2 => Sys2Proof.Machine.execXgath q h t tok fl e1 e2 s
  | .xgathElementPush core => Sys2Proof.Machine.execXgathElementPush core s
  | .xpf h e1 e2 e3 e4 => Sys2Proof.Machine.execXpf h e1 e2 e3 e4 s
  | .xfence scope tok fl => Sys2Proof.Machine.execXfence scope tok fl s
  | .copyCommandComplete core => Sys2Proof.Machine.execCopyCommandComplete core s
  | .trapDelivery core => Sys2Proof.Machine.execTrapDelivery core s
  | .correctionFreezeEnd core => Sys2Proof.Machine.execCorrectionFreezeEnd core s
  | .arbiterPass ltn => Sys2Proof.Machine.execArbiterPass ltn s
  | .leaseLimitReached core => Sys2Proof.Machine.execLeaseLimitReached core s
  | .launchRecord p q => Sys2Proof.Machine.execLaunchRecord p q s
  | .cancelRecord p q => Sys2Proof.Machine.execCancelRecord p q s
  | .streamResidencyComplete die => Sys2Proof.Machine.execStreamResidencyComplete die s
  | .unitStart p => Sys2Proof.Machine.execUnitStart p s
  | .unitEnd core => Sys2Proof.Machine.execUnitEnd core s
  | .eventRecordWrite p q => Sys2Proof.Machine.execEventRecordWrite p q s
  | .snufferExpiry lid => Sys2Proof.Machine.execSnufferExpiry lid s
  | .frameEdge core => Sys2Proof.Machine.execFrameEdge core s
  | .regionPreemption core => Sys2Proof.Machine.execRegionPreemption core s
  | .regionRestart core => Sys2Proof.Machine.execRegionRestart core s
  | .hostWriteDataSlice slice off data => Sys2Proof.Machine.execHostWriteDataSlice slice off data s
  | .hostWriteDescriptor slice off data => Sys2Proof.Machine.execHostWriteDescriptor slice off data s
  | .hostReadDataSlice slice off len => Sys2Proof.Machine.execHostReadDataSlice slice off len s
  | .bootLengthWrite val => Sys2Proof.Machine.execBootLengthWrite val s
  | .bar0Write off data => Sys2Proof.Machine.execBar0Write off data s
  | .powerOn => Sys2Proof.Machine.execPowerOn s
  | .firmwareStart anchor tvec => Sys2Proof.Machine.execFirmwareStart anchor tvec s
  | .hostLinkLoss => Sys2Proof.Machine.execHostLinkLoss s
  | .setPartition => Sys2Proof.Machine.execSetPartition s
  | .setQueue => Sys2Proof.Machine.execSetQueue s
  | .resizePartition => Sys2Proof.Machine.execResizePartition s
  | .mapDataSlice slice base handle => Sys2Proof.Machine.execMapDataSlice slice base handle s
  | .createWorld => Sys2Proof.Machine.execCreateWorld s
  | .installKey => Sys2Proof.Machine.execInstallKey s
  | .removeKey => Sys2Proof.Machine.execRemoveKey s
  | .destroyWorld => Sys2Proof.Machine.execDestroyWorld s
  | .setRoster => Sys2Proof.Machine.execSetRoster s
  | .attest => Sys2Proof.Machine.execAttest s
  | .debugUnlock => Sys2Proof.Machine.execDebugUnlock s
  | .cacheEntrySeal => Sys2Proof.Machine.execCacheEntrySeal s
  | .cacheEntryOpen => Sys2Proof.Machine.execCacheEntryOpen s
  | .dieOffline => Sys2Proof.Machine.execDieOffline s
  | .rotation => Sys2Proof.Machine.execRotation s
  | .recordMode => Sys2Proof.Machine.execRecordMode s
  | .replay => Sys2Proof.Machine.execReplay s
  | .unknownRequest => Sys2Proof.Machine.execUnknownRequest s
  | .rotationCoreTest core pass => Sys2Proof.Machine.execRotationCoreTest core pass s
  | .rotationQuadrantTest ltn q pass => Sys2Proof.Machine.execRotationQuadrantTest ltn q pass s
  | .healthUpdate socket temp power => Sys2Proof.Machine.execHealthUpdate socket temp power s
  | .clockStepDown die => Sys2Proof.Machine.execClockStepDown die s
  | .clockStepUp die => Sys2Proof.Machine.execClockStepUp die s
  | .junctionOvertemp => Sys2Proof.Machine.execJunctionOvertemp s
  | .bankDrowsy core bank => Sys2Proof.Machine.execBankDrowsy core bank s
  | .bankPowerGated core bank => Sys2Proof.Machine.execBankPowerGated core bank s
  | .scanInShiftComplete core => Sys2Proof.Machine.execScanInShiftComplete core s
  | .uncorrectableError => Sys2Proof.Machine.execUncorrectableError s
  | .deviceReset => Sys2Proof.Machine.execDeviceReset s
  | .partitionResetComplete p => Sys2Proof.Machine.execPartitionResetComplete p s
  | .fabricLinkUp devid => Sys2Proof.Machine.execFabricLinkUp devid s
  | .fabricGroupArrival addr data => Sys2Proof.Machine.execFabricGroupArrival addr data s

end Sys2Proof.Machine
end

