-- ==== Sys2Proof/Machine/Turns.lean ====
section
/-! DEFINITION. The default schedule of turns, which the agenda precedes (log 6; 01 R33, R45; 19 R487, R488). -/

namespace Sys2Proof.Machine

open Sys2Proof

/-- The turns of one core in the default schedule: its engines, then what goes on beside them, then the start of units in each
partition and the transfers of each die (01 R45). -/
def coreTurn (c : Nat) : Nat → Turn
  | 0 => .lane c .c
  | 1 => .lane c .a
  | 2 => .lane c .v
  | 3 => .lane c .m
  | 4 => .lane c .x
  | 5 => .event (.matrixCommandComplete c)
  | 6 => .event (.xcbSlotTake c)
  | 7 => .event (.copyCommandComplete c)
  | 8 => .event (.xgathElementPush c)
  | 9 => .event (.streamLoadElement c 0)
  | 10 => .event (.streamLoadElement c 1)
  | 11 => .event (.streamLoadElement c 2)
  | 12 => .event (.streamLoadElement c 3)
  | 13 => .event (.streamStoreElement c 4)
  | 14 => .event (.streamStoreElement c 5)
  | 15 => .event (.streamStoreElement c 6)
  | 16 => .event (.streamStoreElement c 7)
  | 17 => .event (.loopIterationBoundary c)
  | 18 => .event (.overwritingIterationStart c)
  | 19 => .event (.fwaitComplete c)
  | 20 => .event (.trapDelivery c)
  | 21 => .event (.arbiterPass (c / 4))
  | 22 => .event (.leaseLimitReached c)
  | 23 => .event (.correctionFreezeEnd c)
  | 24 => .event (.scanInShiftComplete c)
  | 25 => .event (.scstopCountElapsed (c / 4))
  | 26 => .event (.unitEnd c)
  | 27 => .event (.frameEdge c)
  | 28 => .event (.regionRestart c)
  | k => if k < 45 then .event (.unitStart (k - 29)) else .event (.streamResidencyComplete (k - 45))

/-- The turns of a core in the default schedule. -/
def coreTurns : Nat := 53

/-- A core with something of its own to do: a unit, or frames of several worlds in which one could start. -/
def Core.active (c : Core) : Bool := c.c.busy || decide (1 < c.sys.slots.length)

/-- The next core after `c` that takes its turns, in ascending number and round again: an active one; any, while a pre-empted unit waits
for a core. -/
def State.nextBusy (s : State) (c : Nat) : Nat :=
  if !s.dev.waiting.isEmpty then (c + 1) % 520
  else
    let busy := (s.cores.filter fun x => x.2.active).map Prod.fst
    match busy.find? fun n => decide (c < n) with
    | some n => n
    | none => busy.headD c

/-- A free core with frames of several worlds is in the first cycle of a frame, the only one in which a unit may start there (19 R488). -/
def State.frameOpens (s : State) : Bool :=
  s.cores.any fun x => decide (1 < x.2.sys.worlds.length) && x.2.sys.opened == s.cycOf x.1 && s.coreIdle x.1

/-- A turn that belongs to the present cycle: an edge that has come (19 R487), then a pre-empted unit that may return, and a unit that may
start, only now (01 R45, 19 R488). -/
def State.urgent (s : State) : Option Turn :=
  match (List.range 512).find? s.edgeReady with
  | some n => some (.event (.frameEdge n))
  | none =>
    if !s.frameOpens then none
    else match (List.range 512).find? fun n => s.inService && (s.tryRestart n s.dev.waiting).isSome with
      | some n => some (.event (.regionRestart n))
      | none => ((List.range 16).find? fun p => !(s.startable p).isEmpty).map fun p => .event (.unitStart p)

/-- An engine's turn of a core, one cycle long; a snuffer that runs out in it does so before the lane begins (21 R520). -/
def State.laneTurn (s : State) (c : Nat) (e : Engine) : Todo :=
  let t := ((s.focus c).elapse 1).noteExpired
  (t.setU t.u.settle).engineTurn e

/-- The next turn: the head of the agenda, or the default schedule's. -/
def State.pickTurn (s : State) : Turn × State :=
  match s.agenda with
  | t :: rest => (t, { s with agenda := rest })
  | [] => match s.urgent with
    | some t => (t, s)
    | none =>
      let k := s.core.turn
      let t := s.setCore { s.core with turn := (k + 1) % coreTurns }
      (coreTurn s.cur k, if k + 1 = coreTurns then t.focus (t.nextBusy t.cur) else t)

end Sys2Proof.Machine
end

