-- ==== Sys2Proof/Machine/Step.lean ====
section
/-! DEFINITION. One step of the device: the turn that comes next, which is one lane of an engine, one step of another agent,
or the passing of time. -/

namespace Sys2Proof.Machine

open Sys2Proof Host

/-- Take a turn. A lane's turn lasts a cycle; steps of other agents take no time of their own (log 6). Launches that the turn makes ready
are stamped with its time (16 R440). -/
def State.take (s : State) : Turn → Outcome State Fault Refusal
  | .lane c e => match s.laneTurn c e with
    | .run i t => State.afterTurn (exec i t)
    | .done o => State.afterTurn o
  | .event i => State.afterTurn (exec i s)
  | .upset u => .next (s.upset u).noteTurn
  | .tick n => .next (s.elapse n).noteTurn

/-- One step. -/
def step (s : State) : Outcome State Fault Refusal := s.pickTurn.2.take s.pickTurn.1

/-- The state in which the next step fetches and runs one instruction, given as spec/opcode_table.json numbers its bits. -/
def State.withFetchWord (s : State) (nbits w : Nat) : State := s.placeWord nbits w

end Sys2Proof.Machine
end

