-- ==== Sys2Proof/Safety.lean ====
section
/-! DEFINITION. The terms in which claims are made: what holds of a well-kept state (every memory in its canonical form, 10
R357, so that equal memories are equal data; the text order's log sorted by place, 01 R32), and when a lane's operands are
ready. -/

namespace Sys2Proof.Machine

open Sys2Proof

/-- The log of a unit stands in text order. -/
def UnitCtx.logSorted (u : UnitCtx) : Prop := u.log.Pairwise fun a b => a.1 ≤ b.1

/-- Device memory, host memory and peer memory are in canonical form. -/
def Mem.Canonical (m : Mem) : Prop :=
  Memory.wf m.mem = true ∧ Memory.wf m.host = true ∧ Memory.wf m.peer = true

/-- Every core's scratchpad is in canonical form. -/
def State.SpadsCanonical (s : State) : Prop := ∀ c ∈ s.cores, Memory.wf c.2.spad = true

/-- Every memory of the machine is in canonical form. -/
def State.Canonical (s : State) : Prop := s.dev.m.Canonical ∧ s.SpadsCanonical

/-- What every step keeps: the state word is one of 0 to 2 (16 R424), the host error counter has not passed its top (16 R424),
and every die's clock stands from 1,000 to 1,800 MHz (20 R516). -/
def State.Inv (s : State) : Prop :=
  s.dev.stateWord ≤ 2 ∧ s.dev.port.hostErr ≤ 2 ^ 64 - 1 ∧ ∀ die, 1000 ≤ s.clockOf die ∧ s.clockOf die ≤ 1800

/-! ### Operands that are ready -/

/-- Every latch that a control lane's sources name is filled, and every other name lies in the reserved frame (05 R183, 02
R48). -/
def State.ReadyC (s : State) (srcs : List CSrc) (dsts : List CReg) : Prop :=
  (∀ f ∈ srcs, if 32 ≤ f.toNat then f.toNat - 32 < s.u.latC.length else f.toNat < 8 + (s.view .c).frame) ∧
  ∀ d ∈ dsts, d.toNat < 8 + (s.view .c).frame

/-- Control registers that a lane of another engine reads lie in the reserved frame (02 R48). -/
def State.ReadyX (s : State) (e : Engine) (srcs : List CSrc) : Prop := ∀ f ∈ srcs, f.toNat < 8 + (s.view e).frame

/-- Every latch that an access lane's sources name is filled (05 R183). -/
def State.ReadyA (s : State) (srcs : List ASrc) : Prop :=
  ∀ f ∈ srcs, f.toNat < 32 ∨ f.toNat - 32 < s.core.a.lat.length

/-- Every latch that a vector lane's sources name is filled, and every queue they name holds an element (05 R183, 02 R62). -/
def State.ReadyV (s : State) (srcs : List VSrc) : Prop :=
  ∀ f ∈ srcs, f.toNat < 64 ∨ (f.toNat < 68 ∧ f.toNat - 64 < s.core.v.lat.length) ∨
    (68 ≤ f.toNat ∧ (72 ≤ f.toNat ∨ s.queueOf (f.toNat - 68) ≠ []))

/-- A vector destination that names a store queue finds room in it (02 R62). -/
def State.Room (s : State) (d : VDst) : Prop :=
  ∀ q, dstQueue? d = some q → (s.queueOf q).length < 16

/-! ### What a vector lane leaves -/

/-- The lanes of a result: `f` on an active lane, the destination's previous bits on every other (07 R243). -/
def State.resultLanes (s : State) (vd : VDst) (c : Nat) (f : Nat → Nat × Nat) : List Nat :=
  (List.range (s.vlanes * 32 / fmtWidth c)).map fun k => if s.active c k then (f k).1 else (s.oldV vd).lane (fmtWidth c) k

/-- The flags that the active lanes raise (03 R114). -/
def State.resultFlags (s : State) (c : Nat) (f : Nat → Nat × Nat) : Nat :=
  ((List.range (s.vlanes * 32 / fmtWidth c)).filter (s.active c)).foldl (fun n k => n ||| (f k).2) 0

/-- A vector lane that has taken its sources, raised its flags and written its result, the engine after it. -/
def State.wrote (s : State) (srcs : List VSrc) (vd : VDst) (e : Elem) (fl : Nat) : State :=
  (((s.takeV srcs).raiseFv fl).putV vd e).advance .v

/-- The converter after a lane that rounds with mode `rm` (03 R109). -/
def State.drew (s : State) (rm : Nat) (rounds : Bool) : State :=
  if rm = 6 ∧ rounds = true then s.modV fun v => { v with gen := nextGen v.gen } else s

/-! ### Accesses that are performed -/

/-- An aligned address below 2^56 of `n` bytes, with the page, the physical address and the state its translation gives (06
R201, 17 R463). -/
def State.Maps (s : State) (a : Word) (n : Nat) (acc : Access) (t : State) (e : TlbEntry) (pa : Nat) : Prop :=
  a.toNat < 2 ^ 56 ∧ a.toNat % n = 0 ∧ s.translate s.u.world a.toNat acc = .ok (t, e, pa)

/-- `n` bytes of device memory that exist and hold no error, in memory or where the unit's run has staged them (10 R360, R361; 17
R466). -/
def State.Intact (s : State) (pa n : Nat) : Prop :=
  pa + n ≤ memTop + 1 ∧
  ∀ x ∈ granules pa n, Sparse.get false s.dev.m.poison x = false ∧ Sparse.get false s.dev.m.weak x = false ∧
    Sparse.get false s.overlay.bad x = false

end Sys2Proof.Machine
end

