-- ==== Sys2Proof/Certificates/Slice0/Obligations.lean ====
section
/-! DEFINITION. The statements for the provers. -/

open Sys2Proof Sys2Proof.Machine Host

/-- Register forms of the arithmetic and logic lanes: result, completion, next lane -/
def Obligations.AluRegisterForms : Prop :=
  ∀ (s : State) (rd : CReg) (s1 s2 : CSrc), s.ReadyC [s1, s2] [rd] →
    let a := s.valC s1
    let b := s.valC s2
    let done (v : Word) : Outcome State Fault Refusal := .next ((s.setRd rd v).advance .c)
    exec (.add rd s1 s2) s = done (a + b) ∧
    exec (.sub rd s1 s2) s = done (a - b) ∧
    exec (.mul rd s1 s2) s = done (a * b) ∧
    exec (.mulhu rd s1 s2) s = done (BitVec.ofNat 64 (a.toNat * b.toNat / 2 ^ 64)) ∧
    exec (.mulhs rd s1 s2) s = done (BitVec.ofInt 64 (a.toInt * b.toInt / 2 ^ 64)) ∧
    exec (.divu rd s1 s2) s = done (if b = 0 then BitVec.allOnes 64 else BitVec.ofNat 64 (a.toNat / b.toNat)) ∧
    exec (.divs rd s1 s2) s = done (if b = 0 then BitVec.allOnes 64 else BitVec.ofInt 64 (a.toInt.tdiv b.toInt)) ∧
    exec (.remu rd s1 s2) s = done (if b = 0 then a else BitVec.ofNat 64 (a.toNat % b.toNat)) ∧
    exec (.rems rd s1 s2) s = done (if b = 0 then a else BitVec.ofInt 64 (a.toInt.tmod b.toInt)) ∧
    exec (.and rd s1 s2) s = done (a &&& b) ∧
    exec (.or rd s1 s2) s = done (a ||| b) ∧
    exec (.xor rd s1 s2) s = done (a ^^^ b) ∧
    exec (.andn rd s1 s2) s = done (a &&& ~~~b) ∧
    exec (.min rd s1 s2) s = done (if a.toInt ≤ b.toInt then a else b) ∧
    exec (.max rd s1 s2) s = done (if b.toInt ≤ a.toInt then a else b) ∧
    exec (.minu rd s1 s2) s = done (if a.toNat ≤ b.toNat then a else b) ∧
    exec (.maxu rd s1 s2) s = done (if b.toNat ≤ a.toNat then a else b)

/-- Immediate forms of the arithmetic and logic lanes: result, completion, next lane -/
def Obligations.AluImmediateForms : Prop :=
  ∀ (s : State) (rd : CReg) (s1 : CSrc) (imm : Imm 12), s.ReadyC [s1] [rd] →
    let a := s.valC s1
    let b : Word := BitVec.ofInt 64 (immS imm)
    let done (v : Word) : Outcome State Fault Refusal := .next ((s.setRd rd v).advance .c)
    exec (.addImm rd s1 imm) s = done (a + b) ∧
    exec (.subImm rd s1 imm) s = done (a - b) ∧
    exec (.mulImm rd s1 imm) s = done (a * b) ∧
    exec (.mulhuImm rd s1 imm) s = done (BitVec.ofNat 64 (a.toNat * b.toNat / 2 ^ 64)) ∧
    exec (.mulhsImm rd s1 imm) s = done (BitVec.ofInt 64 (a.toInt * b.toInt / 2 ^ 64)) ∧
    exec (.divuImm rd s1 imm) s = done (if b = 0 then BitVec.allOnes 64 else BitVec.ofNat 64 (a.toNat / b.toNat)) ∧
    exec (.divsImm rd s1 imm) s = done (if b = 0 then BitVec.allOnes 64 else BitVec.ofInt 64 (a.toInt.tdiv b.toInt)) ∧
    exec (.remuImm rd s1 imm) s = done (if b = 0 then a else BitVec.ofNat 64 (a.toNat % b.toNat)) ∧
    exec (.remsImm rd s1 imm) s = done (if b = 0 then a else BitVec.ofInt 64 (a.toInt.tmod b.toInt)) ∧
    exec (.andImm rd s1 imm) s = done (a &&& b) ∧
    exec (.orImm rd s1 imm) s = done (a ||| b) ∧
    exec (.xorImm rd s1 imm) s = done (a ^^^ b) ∧
    exec (.andnImm rd s1 imm) s = done (a &&& ~~~b) ∧
    exec (.minImm rd s1 imm) s = done (if a.toInt ≤ b.toInt then a else b) ∧
    exec (.maxImm rd s1 imm) s = done (if b.toInt ≤ a.toInt then a else b) ∧
    exec (.minuImm rd s1 imm) s = done (if a.toNat ≤ b.toNat then a else b) ∧
    exec (.maxuImm rd s1 imm) s = done (if b.toNat ≤ a.toNat then a else b)

/-- Shifts, rotates and extensions: results, counts and the limits of their immediates -/
def Obligations.ShiftAndExtendForms : Prop :=
  ∀ (s : State) (rd : CReg) (s1 s2 : CSrc) (imm : Imm 12),
    let a := s.valC s1
    let n := (s.valC s2).toNat % 64
    let w := if n = 0 then 64 else n
    let i := immS imm
    let k := i.toNat
    let done (v : Word) : Outcome State Fault Refusal := .next ((s.setRd rd v).advance .c)
    let refuse : Outcome State Fault Refusal := .next (s.takeTrap .c .immediateRange 0 0 (s.laneAt .c))
    (s.ReadyC [s1, s2] [rd] →
      exec (.shl rd s1 s2) s = done (a <<< n) ∧
      exec (.shr rd s1 s2) s = done (a >>> n) ∧
      exec (.sar rd s1 s2) s = done (BitVec.ofInt 64 (a.toInt / 2 ^ n)) ∧
      exec (.rotl rd s1 s2) s = done (a <<< n ||| a >>> (64 - n)) ∧
      exec (.sext rd s1 s2) s = done ((a.setWidth w).signExtend 64) ∧
      exec (.zext rd s1 s2) s = done ((a.setWidth w).setWidth 64)) ∧
    (s.ReadyC [s1] [rd] → 0 ≤ i → i ≤ 63 →
      exec (.shlImm rd s1 imm) s = done (a <<< k) ∧
      exec (.shrImm rd s1 imm) s = done (a >>> k) ∧
      exec (.sarImm rd s1 imm) s = done (BitVec.ofInt 64 (a.toInt / 2 ^ k)) ∧
      exec (.rotlImm rd s1 imm) s = done (a <<< k ||| a >>> (64 - k))) ∧
    (s.ReadyC [s1] [rd] → 1 ≤ i → i ≤ 64 →
      exec (.sextImm rd s1 imm) s = done ((a.setWidth k).signExtend 64) ∧
      exec (.zextImm rd s1 imm) s = done ((a.setWidth k).setWidth 64)) ∧
    (i < 0 ∨ 63 < i →
      exec (.shlImm rd s1 imm) s = refuse ∧ exec (.shrImm rd s1 imm) s = refuse ∧
      exec (.sarImm rd s1 imm) s = refuse ∧ exec (.rotlImm rd s1 imm) s = refuse) ∧
    (i < 1 ∨ 64 < i → exec (.sextImm rd s1 imm) s = refuse ∧ exec (.zextImm rd s1 imm) s = refuse)

/-- CLZ, CTZ, POPC, SEL, CMP and LI: results and completion -/
def Obligations.CountSelectCompare : Prop :=
  ∀ (s : State) (rd : CReg) (s1 s2 s3 : CSrc) (imm : Imm 19) (cond : Cond),
    let a := s.valC s1
    let b := s.valC s2
    let done (v : Word) : Outcome State Fault Refusal := .next ((s.setRd rd v).advance .c)
    (s.ReadyC [s1] [rd] →
      (∃ n, n ≤ 64 ∧ a.toNat < 2 ^ (64 - n) ∧ (n < 64 → 2 ^ (63 - n) ≤ a.toNat) ∧
        exec (.clz rd s1) s = done (BitVec.ofNat 64 n)) ∧
      (∃ n, n ≤ 64 ∧ (∀ i, i < n → a.getLsbD i = false) ∧ (n < 64 → a.getLsbD n = true) ∧
        exec (.ctz rd s1) s = done (BitVec.ofNat 64 n)) ∧
      exec (.popc rd s1) s = done (BitVec.ofNat 64 ((List.range 64).filter a.getLsbD).length)) ∧
    (s.ReadyC [s1, s2, s3] [rd] → exec (.sel rd s1 s2 s3) s = done (if a = 0 then s.valC s3 else b)) ∧
    (s.ReadyC [s1, s2] [rd] → exec (.cmp rd s1 s2 cond) s = done
      (if (match cond with
        | .eq => decide (a = b) | .ne => decide (a ≠ b) | .lt => decide (a.toInt < b.toInt) | .ge => decide (b.toInt ≤ a.toInt)
        | .ltu => decide (a.toNat < b.toNat) | .geu => decide (b.toNat ≤ a.toNat)) then 1 else 0)) ∧
    (s.ReadyC [] [rd] → exec (.li rd imm) s = done (BitVec.ofInt 64 (immS imm)))

/-- A control lane checks its latches first, then that every name lies in the frame -/
def Obligations.ControlOperandTraps : Prop :=
  ∀ (s : State) (rd : CReg) (s1 s2 : CSrc),
    let empty (f : CSrc) : Prop := 32 ≤ f.toNat ∧ s.u.latC.length ≤ f.toNat - 32
    let outside (f : CSrc) : Prop := f.toNat < 32 ∧ 8 + (s.view .c).frame ≤ f.toNat
    (empty s1 ∨ empty s2 → exec (.add rd s1 s2) s = .next (s.takeTrap .c .latchEmpty 0 0 (s.laneAt .c))) ∧
    (¬empty s1 → ¬empty s2 → (outside s1 ∨ outside s2 ∨ 8 + (s.view .c).frame ≤ rd.toNat) →
      exec (.add rd s1 s2) s = .next (s.takeTrap .c .frameBounds 0 0 (s.laneAt .c)))

/-- Scalar register names: x0 is zero and discards, x1-x7 are global, xi names a window entry -/
def Obligations.ResultWrite : Prop :=
  (∀ v : Shared, v.x 0 = 0 ∧
    (∀ i, 1 ≤ i → i ≤ 7 → v.x i = Sparse.get 0 v.xg i ∧ ∀ b : BitVec 8, Shared.x { v with wb := b } i = v.x i) ∧
    (∀ i, 8 ≤ i → i ≤ 31 → v.x i = Sparse.get 0 v.xf ((v.wb.toNat + (i - 8)) % 256))) ∧
  (∀ (s : State) (rd : CReg) (v : Word), (∀ e ∈ s.u.log, e.1 < (s.u.eng .c).pos) →
    let t := (s.setRd rd v).advance .c
    (∀ i, i < 32 → (t.view .c).x i = if i = rd.toNat ∧ i ≠ 0 then v else (s.view .c).x i) ∧
    (rd = 0 → t.u.log = s.u.log) ∧
    (1 ≤ rd.toNat → rd.toNat ≤ 7 → (t.view .c).xf = (s.view .c).xf) ∧
    (8 ≤ rd.toNat → (t.view .c).xg = (s.view .c).xg ∧
      ∀ k, Sparse.get 0 (t.view .c).xf k = if k = ((s.view .c).wb.toNat + (rd.toNat - 8)) % 256 then v
        else Sparse.get 0 (s.view .c).xf k) ∧
    (∀ p, p ≤ (s.u.eng .c).pos → t.u.view p = s.u.view p) ∧
    (t.u.eng .c).pos = (s.u.eng .c).pos + 1 ∧
    t.u = { s.u with log := t.u.log, latC := (v :: s.u.latC).take 4, eC := t.u.eC } ∧
    t.core = { s.core with c := { s.core.c with u := t.u } } ∧
    (∀ k, k ≠ s.cur → t.coreAt k = s.coreAt k) ∧
    t.dev = s.dev ∧ t.lanterns = s.lanterns ∧ t.cur = s.cur ∧ t.agenda = s.agenda)

/-- The universal lanes, when they complete and when their condition does not hold -/
def Obligations.UniversalLanes : Prop :=
  (∀ (s : State) (e : Engine) (f : FReg) (k : KReg) (n : Imm 18) (m : Imm 6) (sub : Bool),
    exec (.nop e) s = .next (s.advance e) ∧
    (∃ t : State, exec (.endE e) s = .next t ∧ (t.u.eng e).ended = true ∧ t.dev = s.dev) ∧
    (immU n ≤ 0xFFFFFFFF → s.commandsDone e = true →
      (∃ t : State, exec (.finc e f n) s = .next (t.advance e) ∧ t.flag f.toNat = min (s.flag f.toNat + immU n) 0xFFFFFFFF ∧
        (∀ g, g ≠ f.toNat → t.flag g = s.flag g) ∧ t.dev = s.dev ∧ t.core.c.csr = s.core.c.csr ∧
        (s.flag f.toNat + immU n ≤ 0xFFFFFFFF → t.u = s.u) ∧
        (0xFFFFFFFF < s.flag f.toNat + immU n → t.u = { s.u with log := t.u.log } ∧
          (∀ p, p ≤ (s.u.eng e).pos → t.u.view p = s.u.view p) ∧
          ((∀ x ∈ s.u.log, x.1 ≤ (s.u.eng e).pos) → ∀ p, (s.u.eng e).pos < p →
            t.u.view p = { s.u.view p with status := (s.u.view p).status ||| 2 }))) ∧
      (∃ t : State, exec (.fset e f n) s = .next (t.advance e) ∧ t.flag f.toNat = immU n ∧
        (∀ g, g ≠ f.toNat → t.flag g = s.flag g) ∧ t.dev = s.dev ∧ t.u = s.u ∧ t.core.c.csr = s.core.c.csr)) ∧
    (immU n ≤ 0xFFFFFFFF → immU n ≤ s.flag f.toNat → (immU n = 0 ∨ ∀ w ∈ s.core.c.waits, w.flag ≠ f.toNat) →
      ∃ t : State, exec (.fwait e f sub n) s = .next (t.advance e) ∧
        t.flag f.toNat = (if sub then s.flag f.toNat - immU n else s.flag f.toNat) ∧
        (∀ g, g ≠ f.toNat → t.flag g = s.flag g) ∧ t.dev = s.dev ∧ t.u = s.u) ∧
    (immU m ≤ 63 → s.token k.toNat ≤ immU m → exec (.kwait e k m) s = .next (s.advance e))) ∧
  (∀ (s : State) (e : Engine) (f : FReg) (k : KReg) (n : Imm 18) (m : Imm 6) (sub : Bool),
    let refuse : Outcome State Fault Refusal := .next (s.takeTrap e .immediateRange 0 0 (s.laneAt e))
    (immU n ≤ 0xFFFFFFFF → s.flag f.toNat < immU n → ∃ t : State, exec (.fwait e f sub n) s = .next t ∧
      t.core.c.waits = ⟨e, f.toNat, sub, immU n⟩ :: s.core.c.waits.filter (fun w => w.engine != e) ∧
      t.u = s.u ∧ t.core.c.f = s.core.c.f ∧ t.dev = s.dev) ∧
    (immU m ≤ 63 → immU m < s.token k.toNat → exec (.kwait e k m) s = .next s) ∧
    (0xFFFFFFFF < immU n →
      exec (.finc e f n) s = refuse ∧ exec (.fset e f n) s = refuse ∧ exec (.fwait e f sub n) s = refuse) ∧
    (63 < immU m → exec (.kwait e k m) s = refuse)) ∧
  (∀ (s : State) (core : Nat) (w : FlagWait), (s.focus core).readyWaiter (fun _ => true) = some w →
    ∃ t : State, exec (.fwaitComplete core) s = .next (State.advance t w.engine) ∧
      t.flag w.flag = (if w.sub then (s.focus core).flag w.flag - w.n else (s.focus core).flag w.flag) ∧
      (∀ g, g ≠ w.flag → t.flag g = (s.focus core).flag g) ∧
      t.core.c.waits = (s.coreAt core).c.waits.filter (fun x => x.engine != w.engine) ∧
      t.u = (s.coreAt core).c.u ∧ t.dev = s.dev) ∧
  (∀ (s : State) (core : Nat), (s.focus core).readyWaiter (fun _ => true) = none → exec (.fwaitComplete core) s = .next (s.focus core))

/-- B, BC and BR: where control goes, and when a target is refused -/
def Obligations.Branches : Prop :=
  ∀ (s : State) (cond : Cond) (s1 s2 : CSrc) (far : Imm 24) (near : Imm 8) (ln : LineInst),
    s.u.line? (s.u.eng .c).serial = some ln →
    let there (off : Int) : Word := BitVec.ofNat 64 ln.addr + BitVec.ofInt 64 (32 * off)
    let good (a : Word) : Prop := a.toNat % 32 = 0 ∧ a.toNat < 2 ^ 56
    let goes (o : Outcome State Fault Refusal) (a : Word) : Prop :=
      (∀ f ws, s.fetchLine a.toNat = .ok (f, ws) →
        ∃ t : State, o = .next (t.advance .c) ∧ t.u.front = .line a.toNat true (some ws) ∧
          t.u.line? (s.u.eng .c).serial = some { ln with lim := (s.u.eng .c).lane + 1 } ∧
          t.u.eC = s.u.eC ∧ t.u.log = s.u.log ∧ t.dev = s.dev ∧ t.lanterns = s.lanterns ∧
          (∀ k, k ≠ s.cur → t.coreAt k = s.coreAt k)) ∧
      (∀ c v k, s.fetchLine a.toNat = .error (.trap c v k) → o = .next (s.takeTrap .c c v k (s.laneAt .c)))
    let refused (o : Outcome State Fault Refusal) : Prop := o = .next (s.takeTrap .c .branchTarget 0 0 (s.laneAt .c))
    (good (there (immS far)) → goes (exec (.b far) s) (there (immS far))) ∧
    (¬good (there (immS far)) → refused (exec (.b far) s)) ∧
    (s.ReadyC [s1, s2] [] →
      (condHolds cond (s.valC s1) (s.valC s2) = true →
        (good (there (immS near)) → goes (exec (.bc cond s1 s2 near) s) (there (immS near))) ∧
        (¬good (there (immS near)) → refused (exec (.bc cond s1 s2 near) s))) ∧
      (condHolds cond (s.valC s1) (s.valC s2) = false → exec (.bc cond s1 s2 near) s = .next (s.advance .c))) ∧
    (s.ReadyC [s1] [] →
      (good (s.valC s1) → goes (exec (.br s1) s) (s.valC s1)) ∧ (¬good (s.valC s1) → refused (exec (.br s1) s)))

/-- CALL, CALLR, FRAME and RET: return store, window and target -/
def Obligations.CallsAndReturns : Prop :=
  (∀ (s : State) (s1 : CSrc) (off : Imm 24) (f : BitVec 7) (ln : LineInst) (r : Word),
    s.u.line? (s.u.eng .c).serial = some ln → (∀ e ∈ s.u.log, e.1 < (s.u.eng .c).pos) →
    let good (a : Word) : Prop := a.toNat % 32 = 0 ∧ a.toNat < 2 ^ 56
    let v := s.view .c
    let called (o : Outcome State Fault Refusal) (a : Word) : Prop := ∀ f ws, s.fetchLine a.toNat = .ok (f, ws) →
      ∃ t : State, o = .next t ∧ (t.view .c).wb = v.wb + 16 ∧ (t.view .c).frame = v.frame ∧ t.u.callPending = true ∧
        t.u.rs = s.u.rs.set s.u.rdepth (BitVec.ofNat 64 ((ln.addr + 32) % 2 ^ 56 + v.frame)) ∧
        t.u.rdepth = s.u.rdepth + 1 ∧ t.u.line? (s.u.eng .c).serial = some { ln with lim := (s.u.eng .c).lane + 1 } ∧
        t.u.front = .line a.toNat true (some ws) ∧ t.dev = s.dev
    (s.u.rdepth < 16 →
      (good (s.lineTarget (immS off)) → called (exec (.call off) s) (s.lineTarget (immS off))) ∧
      (s.ReadyC [s1] [] → good (s.valC s1) → called (exec (.callr s1) s) (s.valC s1))) ∧
    (f.toNat ∈ [4, 8, 12, 16, 20, 24] → s.u.callPending = true →
      16 * s.u.depth - s.u.wspill + f.toNat ≤ 256 → s.u.wspill ≤ 2048 →
      ∃ t : State, exec (.frame f) s = .next t ∧ (t.view .c).frame = f.toNat ∧ (t.view .c).wb = v.wb ∧
        t.u.callPending = false ∧ (t.view .c).xf = v.xf ∧ t.dev = s.dev) ∧
    (f.toNat ∉ [4, 8, 12, 16, 20, 24] → exec (.frame f) s = .next (s.takeTrap .c .immediateRange 0 0 (s.laneAt .c))) ∧
    (f.toNat ∈ [4, 8, 12, 16, 20, 24] → s.u.callPending = false →
      exec (.frame f) s = .next (s.takeTrap .c .framePlacement 0 0 (s.laneAt .c))) ∧
    (0 < s.u.rdepth → s.u.rspill = 0 → s.u.wspill ≤ 16 * (s.u.rdepth - 1) → s.u.rs[s.u.rdepth - 1]? = some r →
      r.toNat < 2 ^ 56 → ∀ x ws, s.fetchLine (r.toNat / 32 * 32) = .ok (x, ws) →
      ∃ t : State, exec .ret s = .next t ∧ (t.view .c).wb = v.wb - 16 ∧ (t.view .c).frame = r.toNat % 32 ∧
        t.u.rdepth = s.u.rdepth - 1 ∧ (t.view .c).xf = v.xf ∧ t.dev = s.dev ∧
        t.u.front = .line (r.toNat / 32 * 32) true (some ws))) ∧
  (∀ (s : State), s.u.rdepth = 0 → s.u.rspill = 0 →
    exec .ret s = .next (s.takeTrap .c .returnUnderflow 0 0 (s.laneAt .c)))

/-- What taking a trap saves, what it reports and where it goes -/
def Obligations.TakingATrap : Prop :=
  ∀ (s : State) (e : Engine) (c : Cause) (addr : Word) (code : Nat), code < 128 →
    let l := s.laneAt e
    let t := s.takeTrap e c addr code l
    let error := [Cause.uncorrectableStore, .poisonConsumed, .accumulatorUncorrectable, .sramUncorrectable].contains c
    (s.u.world ≠ 15 →
      let r := t.core.sys.tr
      r.trep.toNat % 2 ^ 10 = c.code ∧ r.trep.toNat / 2 ^ 10 % 2 ^ 7 = code ∧
      r.trep.toNat / 2 ^ 17 % 2 ^ 3 = (match e with | .c => 1 | .a => 2 | .v => 3 | .m => 4 | .x => 5) ∧
      r.trep.getLsbD 20 = decide (e = .c ∧ c ≠ .uncorrectableStore) ∧ r.trep.getLsbD 21 = false ∧
      r.tlane.toNat = l.addr % 2 ^ 56 ∧ r.taddr = addr ∧
      r.titer0.toNat = (l.iter.getD 0 0 + l.iter.getD 1 0 * 2 ^ 32) % 2 ^ 64 ∧
      r.titer1.toNat = (l.iter.getD 2 0 + l.iter.getD 3 0 * 2 ^ 32) % 2 ^ 64 ∧
      r.titer2.toNat = (l.iter.getD 4 0 + l.iter.getD 5 0 * 2 ^ 32) % 2 ^ 64 ∧
      r.tvec = s.core.sys.tr.tvec ∧ r.errcnt = (if error then countUncorr s.core.sys.tr.errcnt else s.core.sys.tr.errcnt) ∧
      t.core.sys.saved = some { s.u with latC := [] } ∧
      t.u.world = 15 ∧ t.u.front = .line (r.tvec.toNat / 32 % 2 ^ 51 * 32) false none ∧ t.u.eC = EngPos.start ∧
      t.u.eA.ended = true ∧ t.u.eV.ended = true ∧ t.u.eM.ended = true ∧ t.u.eX.ended = true ∧
      t.dev = s.dev ∧ t.lanterns = s.lanterns ∧ ∀ k, k ≠ s.cur → t.coreAt k = s.coreAt k) ∧
    (s.u.world = 15 → t.dev.stateWord = 2 ∧ t.dev.launches = [] ∧ (error = false → t.cores = s.cores) ∧ t.dev.m = s.dev.m)

/-- TRAP: its encoding, its cause and its report -/
def Obligations.SoftwareTrap : Prop :=
  ∀ (s1 : CSrc) (code : BitVec 7) (rd : CReg) (s2 : CSrc),
    let w := 0x4D000000 + rd.toNat * 2 ^ 19 + s1.toNat * 2 ^ 13 + s2.toNat * 2 ^ 7 + code.toNat
    (s1.toNat < 36 → rd = 0 → s2 = 0 → decodeLane .c w Ext.none = .ok (.trap s1 code)) ∧
    (rd ≠ 0 ∨ s2 ≠ 0 → decodeLane .c w Ext.none = .error .reservedField) ∧
    ∀ s : State, s.ReadyC [s1] [] →
      ∃ t : State, exec (.trap s1 code) s = .next t ∧ t = s.takeTrap .c .softwareTrap (s.valC s1) code.toNat (s.laneAt .c) ∧
        (s.u.world ≠ 15 →
          t.core.sys.tr.trep.toNat % 2 ^ 10 = 0x087 ∧ t.core.sys.tr.trep.toNat / 2 ^ 10 % 2 ^ 7 = code.toNat ∧
          t.core.sys.tr.taddr = s.valC s1)

/-- ERET, EXIT and YIELD -/
def Obligations.HandlerReturnAndEnd : Prop :=
  ∀ (s : State) (u : UnitCtx),
    (s.u.world = 15 → s.core.sys.saved = some u → s.core.sys.tr.trep.getLsbD 20 = true →
      ∃ t : State, exec .eret s = .next t ∧ t.core.sys.saved = none ∧ t.core.sys.fw = s.u ∧ t.u.world = u.world ∧ t.u.latC = [] ∧
        (let walker := s.core.w.walk.trapped
         let resNext := s.core.sys.tr.trep.getLsbD 21
         let line := s.core.sys.tr.tlane.toNat % 32 = 0
         let at' := s.core.sys.tr.tlane.toNat
         let body := match s.core.c.seq.loop with | some l => l.line / 32 + 1 | none => 0
         t.u.eC = { u.eC with lane := if resNext ∧ ¬walker ∧ ¬line then u.eC.lane + 1 else u.eC.lane } ∧
         (resNext ∧ ¬walker ∧ line ∧ (u.curLine .c).addr = at' →
           t.u.text = u.text.modify (u.eC.serial - u.base) fun x => { x with checked := true }) ∧
         (¬(resNext ∧ ¬walker ∧ line ∧ (u.curLine .c).addr = at') → t.u.text = u.text) ∧
         t.core.w = { s.core.w with walk := { s.core.w.walk with
           seen := if resNext ∧ walker ∧ ¬line then s.core.w.walk.seen + 1 else s.core.w.walk.seen,
           checked := if resNext ∧ walker ∧ line then (at' / 32 - body) :: s.core.w.walk.checked else s.core.w.walk.checked,
           trapped := false } }) ∧
        t.u.front = u.front ∧ t.u.log = u.log ∧ t.u.sh = u.sh ∧ t.dev = s.dev) ∧
    (s.u.world ≠ 15 → exec .eret s = .next (s.takeTrap .c .privilegedInstruction 0 0 (s.laneAt .c))) ∧
    (∃ t : State, exec .exitI s = .next t ∧ (t.u.eng .c).ended = true ∧ t.u.eA = s.u.eA ∧ t.dev = s.dev) ∧
    exec .yieldI s = .next (s.advance .c)

/-- A translation fills the TLB and changes nothing else; the page it answers grants the access -/
def Obligations.TranslationFrame : Prop :=
  ∀ (s : State) (w va : Nat) (acc : Access) (t : State) (e : TlbEntry) (pa : Nat), s.translate w va acc = .ok (t, e, pa) →
    (acc = .write → e.w = true) ∧ (acc = .fetch → e.x = true) ∧ pa = e.pa + (va - e.va) ∧
    t.core = { s.core with sys := { s.core.sys with tlb := t.core.sys.tlb } } ∧
    t.dev = s.dev ∧ t.lanterns = s.lanterns ∧ t.cur = s.cur ∧ t.agenda = s.agenda ∧
    ∀ k, k ≠ s.cur → t.coreAt k = s.coreAt k

/-- A read of a written location gives the bytes written; every other byte reads as before -/
def Obligations.MemoryReadAfterWrite : Prop :=
  ∀ (m : Mem) (g : Stage) (k : KeyId) (a : Nat) (bs : Bytes),
    let m' := (m.put k a bs).repair a bs.length
    m'.readKey Stage.empty k a bs.length = bs ∧
    let g' := g.put m k a bs
    m.readKey g' k a bs.length = bs ∧
    (∀ x, x < a ∨ a + bs.length ≤ x →
      m'.plain Stage.empty k x = m.plain Stage.empty k x ∧ m.plain g' k x = m.plain g k x ∧
      ((x < a / 16 * 16 ∨ (a + bs.length + 15) / 16 * 16 ≤ x) →
        m'.raw Stage.empty x = m.raw Stage.empty x ∧ m.raw g' x = m.raw g x) ∧
      ((m.raw Stage.empty x).2 = none ∨ (m.raw Stage.empty x).2 = some k → m'.raw Stage.empty x = m.raw Stage.empty x) ∧
      ((m.raw g x).2 = none ∨ (m.raw g x).2 = some k → m.raw g' x = m.raw g x)) ∧
    m'.host = m.host ∧ m'.peer = m.peer ∧ m'.desc = m.desc ∧ g'.desc = g.desc

/-- Every memory operation keeps the canonical form, and reset has it -/
def Obligations.MemoryStaysCanonical : Prop :=
  (∀ (m : Mem) (k : KeyId) (a : Nat) (bs : Bytes) (g : Stage), m.Canonical →
    (m.put k a bs).Canonical ∧ (m.repair a bs.length).Canonical ∧ (m.commit g).Canonical ∧
    { m with host := Memory.writes m.host a bs }.Canonical ∧ { m with peer := Memory.writes m.peer a bs }.Canonical) ∧
  (∀ (x y : List Cell), Memory.wf x = true → Memory.wf y = true → (∀ a, Memory.read x a = Memory.read y a) → x = y) ∧
  State.reset.Canonical

/-- LD reads the addressed bytes and extends them -/
def Obligations.Loads : Prop :=
  ∀ (s : State) (rt : CReg) (s1 : CSrc) (sz : BitVec 2) (sg : Bool) (off : Imm 9) (t : State) (e : TlbEntry) (pa : Nat),
    let n := 2 ^ sz.toNat
    s.ReadyC [s1] [rt] → s.Maps (s.valC s1 + BitVec.ofInt 64 (immS off)) n .read t e pa →
    let done (v : Nat) : Outcome State Fault Refusal :=
      .next ((t.setRd rt (if sg = true ∧ 2 ^ (8 * n - 1) ≤ v then BitVec.ofInt 64 ((v : Int) - 2 ^ (8 * n))
        else BitVec.ofNat 64 v)).advance .c)
    (e.target = 1 → exec (.ld rt s1 sz sg off) s = done (leNat (Memory.reads t.dev.m.host pa n))) ∧
    (e.target = 2 → exec (.ld rt s1 sz sg off) s = done (leNat (Memory.reads t.dev.m.peer pa n))) ∧
    (e.target ≠ 1 → e.target ≠ 2 → t.Intact pa n →
      exec (.ld rt s1 sz sg off) s = done (leNat (t.dev.m.readKey t.overlay (t.memKey t.u.world) pa n)))

/-- ST and THST store exactly the addressed bytes -/
def Obligations.Stores : Prop :=
  ∀ (s : State) (rt s1 : CSrc) (sz : BitVec 2) (off : Imm 9) (h : ThReg) (o7 : BitVec 7) (handle : Bool)
    (t : State) (e : TlbEntry) (pa : Nat),
    let i : Instr := if handle then .thst h s1 o7 else .st rt s1 sz off
    let n := if handle then 32 else 2 ^ sz.toNat
    let a : Word := if handle then s.valC s1 + BitVec.ofNat 64 (32 * o7.toNat) else s.valC s1 + BitVec.ofInt 64 (immS off)
    let bs := natLe n (if handle then ((s.view .c).handle h.toNat).toNat else (s.valC rt).toNat)
    (if handle then s.ReadyC [s1] [] else s.ReadyC [rt, s1] []) → s.Maps a n .write t e pa →
    (t.protWorld t.u.world = false ∨ (e.unprot = false ∧ e.target = 0)) →
    (e.target = 1 → exec i s = .next ((t.guardRegion.modMem fun m => { m with host := Memory.writes m.host pa bs }).advance .c)) ∧
    (e.target = 2 → exec i s = .next ((t.guardRegion.modMem fun m => { m with peer := Memory.writes m.peer pa bs }).advance .c)) ∧
    (e.target ≠ 1 → e.target ≠ 2 → t.Intact pa n →
      (t.staging = none → exec i s =
        .next ((t.modMem fun m => (m.put (t.memKey t.u.world) pa bs).repair pa n).advance .c)) ∧
      (∀ l r, t.staging = some (l, r) → (t.markGrans (granules pa n)).u.grans.length ≤ quota →
        exec i s = .next (((t.markGrans (granules pa n)).modDev fun d =>
          { d with launches := d.launches.map (fun x =>
              if x.lid == l.lid then l.setStage r ((l.stage r).put t.dev.m (t.memKey t.u.world) pa bs) else x) }).advance .c)))

/-- The atomics: memory takes the new value in place, rd the old one -/
def Obligations.Atomics : Prop :=
  ∀ (s : State) (rd : CReg) (s1 s2 s3 : CSrc) (scope : Scope) (wide : Bool) (t : State) (e : TlbEntry) (pa : Nat),
    let n := if wide then 8 else 4
    let v := (s.valC s2).toNat % 2 ^ (8 * n)
    let k := t.memKey t.u.world
    let old := leNat (t.dev.m.readKey t.overlay k pa n)
    s.ReadyC [s1, s2, s3] [rd] → s.Maps (s.valC s1) n .write t e pa →
    (t.protWorld t.u.world = false ∨ (e.unprot = false ∧ e.target = 0)) →
    let makes (i : Instr) (new : Nat) : Prop :=
      ∃ u : State, exec i s = .next ((u.setRd rd (BitVec.ofInt 64 (signed (8 * n) old))).advance .c) ∧
        u.dev.m = (t.dev.m.put k pa (natLe n new)).repair pa n ∧ u.core = t.guardRegion.core ∧ u.lanterns = t.lanterns ∧
        u.dev.launches = (match t.staging with
          | none => t.dev.launches
          | some (l, r) => t.dev.launches.map fun x =>
              if x.lid == l.lid then l.setStage r ((l.stage r).drop pa n) else x)
    (e.target = 0 → t.Intact pa n →
      makes (.amoAdd rd s1 s2 scope wide) ((old + v) % 2 ^ (8 * n)) ∧
      makes (.amoAnd rd s1 s2 scope wide) (old &&& v) ∧
      makes (.amoOr rd s1 s2 scope wide) (old ||| v) ∧
      makes (.amoXor rd s1 s2 scope wide) (old ^^^ v) ∧
      makes (.amoMin rd s1 s2 scope wide) (if signed (8 * n) old ≤ signed (8 * n) v then old else v) ∧
      makes (.amoMax rd s1 s2 scope wide) (if signed (8 * n) v ≤ signed (8 * n) old then old else v) ∧
      makes (.amoXch rd s1 s2 scope wide) v ∧
      makes (.amoCas rd s1 s2 s3 scope wide) (if old = (s.valC s3).toNat % 2 ^ (8 * n) then v else old)) ∧
    (e.target ≠ 0 → scope ≠ .sys →
      exec (.amoAdd rd s1 s2 scope wide) s = .next (s.takeTrap .c .atomicScope (s.valC s1) 0 (s.laneAt .c)))

/-- Scalar accesses refuse addresses above 2^56 first, then misaligned ones -/
def Obligations.ScalarAddressTraps : Prop :=
  ∀ (s : State) (rd : CReg) (s1 s2 s3 : CSrc) (sz : BitVec 2) (sg wide : Bool) (off : Imm 9) (scope : Scope) (h : ThReg)
    (o7 : BitVec 7), s.ReadyC [s1, s2, s3] [rd] →
    let refused (i : Instr) (a : Word) (n : Nat) : Prop :=
      (2 ^ 56 ≤ a.toNat → exec i s = .next (s.takeTrap .c .addressRange a 0 (s.laneAt .c))) ∧
      (a.toNat < 2 ^ 56 → a.toNat % n ≠ 0 → exec i s = .next (s.takeTrap .c .misaligned a 0 (s.laneAt .c)))
    refused (.ld rd s1 sz sg off) (s.valC s1 + BitVec.ofInt 64 (immS off)) (2 ^ sz.toNat) ∧
    refused (.st s2 s1 sz off) (s.valC s1 + BitVec.ofInt 64 (immS off)) (2 ^ sz.toNat) ∧
    refused (.amoAdd rd s1 s2 scope wide) (s.valC s1) (if wide then 8 else 4) ∧
    refused (.acq rd s1 s2 scope) (s.valC s1) 64 ∧
    refused (.waitmem rd s1 s2 scope) (s.valC s1) 8 ∧
    refused (.bind s1 s2 s3 scope) (s.valC s1) 64 ∧
    refused (.thld h s1 o7) (s.valC s1 + BitVec.ofNat 64 (32 * o7.toNat)) 32

/-- ACQ, REL, WAITMEM and FENCE: when they complete and what they leave -/
def Obligations.AcquireAndRelease : Prop :=
  (∀ (s : State) (scope : Scope), exec (.fence scope) s = if s.globalQueued then .next s else .next (s.advance .c)) ∧
  ∀ (s : State) (rd : CReg) (s1 s2 : CSrc) (scope : Scope) (t : State) (e : TlbEntry) (pa : Nat),
    s.ReadyC [s1, s2] [rd] → e.target = 0 → t.Intact pa 8 →
    let k := t.memKey t.u.world
    let w := leNat (t.dev.m.readKey t.overlay k pa 8)
    (s.Maps (s.valC s1) 64 .read t e pa →
      exec (.acq rd s1 s2 scope) s =
        if (s.valC s2).toNat ≤ w then .next ((t.setRd rd (BitVec.ofNat 64 w)).advance .c) else .next s) ∧
    (s.Maps (s.valC s1) 8 .read t e pa →
      exec (.waitmem rd s1 s2 scope) s =
        if BitVec.ofNat 64 w = s.valC s2 then .next s else .next ((t.setRd rd (BitVec.ofNat 64 w)).advance .c)) ∧
    (s.Maps (s.valC s1) 64 .write t e pa → (t.protWorld t.u.world = false ∨ e.unprot = false) →
      (s.storesTo (s.valC s1).toNat = false → s.laneStoresTo (s.valC s1).toNat = false →
        ∃ u : State, exec (.rel rd s1 s2 scope) s = .next ((u.setRd rd (BitVec.ofNat 64 w)).advance .c) ∧
          u.dev.m = (t.dev.m.put k pa (natLe 8 ((w + (s.valC s2).toNat) % 2 ^ 64))).repair pa 8 ∧
          u.core = t.guardRegion.core) ∧
      (s.storesTo (s.valC s1).toNat = true ∨ s.laneStoresTo (s.valC s1).toNat = true → exec (.rel rd s1 s2 scope) s = .next s))

/-- BIND, UNBIND and LOCQ -/
def Obligations.Bindings : Prop :=
  ∀ (s : State) (rd : CReg) (s1 s2 s3 : CSrc) (scope : Scope),
    let obj := (s.valC s1).toNat
    let base := (s.valC s2).toNat
    let len := (s.valC s3).toNat
    let bs := s.core.c.seq.binds
    let same (b : Binding) : Bool := b.obj == obj && b.base == base
    let leaves (i : Instr) (l : List Binding) : Prop := exec i s = .next ((s.modSeq fun q => { q with binds := l }).advance .c)
    (s.ReadyC [s1, s2, s3] [] → obj < 2 ^ 56 → obj % 64 = 0 → base % 64 = 0 → len % 64 = 0 → 64 ≤ len → len ≤ 2 ^ 40 →
      ((∃ b ∈ bs, same b = true) →
        leaves (.bind s1 s2 s3 scope) (bs.map fun b => if same b then ⟨obj, base, len, scope⟩ else b)) ∧
      ((∀ b ∈ bs, same b = false) → bs.length < 16 → leaves (.bind s1 s2 s3 scope) (bs ++ [⟨obj, base, len, scope⟩])) ∧
      ((∀ b ∈ bs, same b = false) → 16 ≤ bs.length →
        exec (.bind s1 s2 s3 scope) s = .next (s.takeTrap .c .bindFull 0 0 (s.laneAt .c)))) ∧
    (s.ReadyC [s1, s2] [] → obj < 2 ^ 56 → obj % 64 = 0 →
      ((∀ b ∈ bs, same b = false) → exec (.unbind s1 s2 scope) s = .next (s.advance .c)) ∧
      ((∃ b ∈ bs, same b = true) → (∀ b ∈ bs, same b = true → b.scope = scope) →
        leaves (.unbind s1 s2 scope) (bs.filter fun b => !same b))) ∧
    (s.ReadyC [s1] [rd] → ∃ (t : State) (v : Word), exec (.locq rd s1) s = .next ((t.setRd rd v).advance .c) ∧
      t.dev = s.dev ∧ t.u = s.u ∧
      ((∀ u, s.translate s.u.world (s.valC s1).toNat .read ≠ .ok u) → v = 0x8000000000000000))

/-- SETSHAPE, GETSHAPE, THSET, THGET and THLD -/
def Obligations.ShapesAndHandles : Prop :=
  ∀ (s : State) (rd : CReg) (h : ShReg) (th : ThReg) (s1 s2 s3 : CSrc) (fmt fs o7 : BitVec 7) (sl : BitVec 3)
    (t : State) (e : TlbEntry) (pa : Nat),
    let g := (s.view .c).shape h.toNat
    let x := (s.view .c).handle th.toNat
    let cap := if s.core.c.mat.lease = 0 then 0 else
      (geoH s.core.c.mat.lease - s.lantern.parkedRows s.core.c.mat.lease) / 8 * 8
    let capN := if s.core.c.mat.lease = 0 then 0 else geoW s.core.c.mat.lease
    (s.ReadyC [s1, s2, s3] [] → (s.valC s1).toNat ≤ 65535 → (s.valC s2).toNat ≤ 65535 → (s.valC s3).toNat ≤ 65535 →
      fmtOk fmt.toNat = true → fmt ≠ 0 →
      exec (.setShape h s1 s2 s3 fmt) s = .next ((s.write .c (.sh h.toNat
        { rm := (s.valC s1).setWidth 16, rn := (s.valC s2).setWidth 16, rk := (s.valC s3).setWidth 16,
          afmt := fmt.setWidth 8,
          gm := BitVec.ofNat 16 (min (((s.valC s1).toNat + 7) / 8 * 8) cap),
          gn := BitVec.ofNat 16 (min (((s.valC s2).toNat + 7) / 8 * 8) capN),
          gk := BitVec.ofNat 16 (min (s.valC s3).toNat 4096),
          gvl := BitVec.ofNat 9 (min (s.valC s1).toNat (s.vlanes * 32 / max 8 (fmtWidth fmt.toNat))) })).advance .c)) ∧
    (s.ReadyC [] [rd] →
      exec (.getShape rd h sl) s = .next ((s.setRd rd (match sl.toNat with
        | 0 => g.gm.setWidth 64 | 1 => g.gn.setWidth 64 | 2 => g.gk.setWidth 64 | 3 => g.gvl.setWidth 64
        | _ => BitVec.ofNat 64 (g.gm.toNat + g.gn.toNat * 2 ^ 16 + g.gk.toNat * 2 ^ 32 + g.gvl.toNat * 2 ^ 48))).advance .c) ∧
      exec (.thget rd th fs) s = .next ((s.setRd rd (BitVec.ofNat 64
        (x.toNat / 2 ^ (handleField fs.toNat).1 % 2 ^ (handleField fs.toNat).2))).advance .c)) ∧
    (s.ReadyC [s1] [] → (s.valC s1).toNat < 2 ^ (handleField fs.toNat).2 → ∀ y : BitVec 256,
      thField y fs.toNat = (s.valC s1).toNat →
      (∀ i, i < 256 → i < (handleField fs.toNat).1 ∨ (handleField fs.toNat).1 + (handleField fs.toNat).2 ≤ i →
        y.getLsbD i = x.getLsbD i) → thOk y = true →
      exec (.thset th fs s1) s = .next ((s.write .c (.th th.toNat y)).advance .c)) ∧
    (s.ReadyC [s1] [] → s.Maps (s.valC s1 + BitVec.ofNat 64 (32 * o7.toNat)) 32 .read t e pa → e.target = 0 →
      t.Intact pa 32 →
      let y := BitVec.ofNat 256 (leNat (t.dev.m.readKey t.overlay (t.memKey t.u.world) pa 32))
      (thOk y = true → exec (.thld th s1 o7) s = .next ((t.write .c (.th th.toNat y)).advance .c)) ∧
      (thOk y = false → exec (.thld th s1 o7) s = .next (s.takeTrap .c .handleFormat 0 0 (s.laneAt .c))))

/-- CSRR, CSRW and the write of WINST: rights, values and effects -/
def Obligations.ControlRegisters : Prop :=
  ∀ (s : State) (rd : CReg) (s1 : CSrc) (csr : BitVec 12) (n : Nat) (val : Word),
    let c := csr.toNat
    let v := s.valC s1
    let raises (i : Instr) (x : Cause) : Prop := exec i s = .next (s.takeTrap .c x 0 0 (s.laneAt .c))
    -- the control context x after a write of w to WINST is that of t, and nothing else of the core changes
    let winst (x : UnitCtx) (k : Machine.Core) (t : State) (w : Word) : Prop :=
      t.u = { x with log := t.u.log, wspill := w.toNat / 2 ^ 13 % 2 ^ 12, rdepth := w.toNat / 2 ^ 25 % 2 ^ 5,
                     rspill := w.toNat / 2 ^ 30 % 2 ^ 11 } ∧
      t.core = { k with c := { k.c with u := t.u } } ∧
      ((∀ y ∈ x.log, y.1 ≤ (x.eng .c).pos) → ∀ p, (p ≤ (x.eng .c).pos → t.u.view p = x.view p) ∧
        ((x.eng .c).pos < p → t.u.view p = { x.view p with wb := w.setWidth 8, frame := w.toNat / 2 ^ 8 % 2 ^ 5 }))
    (s.ReadyC [] [rd] →
      (csrRead c = none → raises (.csrr rd csr) .unassignedRegister) ∧
      (csrRead c = some false → s.u.world ≠ 15 → raises (.csrr rd csr) .csrAccess) ∧
      ((csrRead c = some true ∨ (csrRead c = some false ∧ s.u.world = 15)) →
        exec (.csrr rd csr) s = .next ((s.setRd rd (s.csr c)).advance .c))) ∧
    (s.ReadyC [s1] [] →
      (csrRead c = none → raises (.csrw csr s1) .unassignedRegister) ∧
      (csrRead c ≠ none → csrWritable (s.u.world == 15) c = false → raises (.csrw csr s1) .csrAccess) ∧
      (csrRead c ≠ none → csrWritable (s.u.world == 15) c = true → v &&& ~~~csrLegal c ≠ 0 →
        raises (.csrw csr s1) .csrReserved) ∧
      (csrRead c ≠ none → csrWritable (s.u.world == 15) c = true → v &&& ~~~csrLegal c = 0 → csrValueOk c v = false →
        raises (.csrw csr s1) .csrValue) ∧
      (csrRead c ≠ none → csrWritable (s.u.world == 15) c = true → v &&& ~~~csrLegal c = 0 → csrValueOk c v = true →
        ∃ t : State, exec (.csrw csr s1) s = .next (t.advance .c) ∧ t.dev = s.dev ∧ t.lanterns = s.lanterns ∧
          (c ∈ [0x001, 0x011, 0x014, 0x015] → t.core.c.csr = s.core.c.csr ∧ t.core.sys = s.core.sys ∧
            ((∀ x ∈ s.u.log, x.1 ≤ (s.u.eng .c).pos) → ∀ p,
              (p ≤ (s.u.eng .c).pos → t.u.view p = s.u.view p) ∧
              ((s.u.eng .c).pos < p →
                (c = 0x001 → t.u.view p = { s.u.view p with status := v }) ∧
                (c = 0x011 → t.u.view p = { s.u.view p with slip := v.toNat }) ∧
                (c = 0x014 → t.u.view p = { s.u.view p with vsp := v.toNat }) ∧
                (c = 0x015 → t.u.view p = { s.u.view p with ovwran := v })))) ∧
          (c = 0x012 → winst s.u s.core t v) ∧
          (c ∈ [0x002, 0x003, 0x020, 0x021, 0x022, 0x100, 0x106, 0x107] → t.u = s.u) ∧
          (c = 0x002 → t.core.c.csr = { s.core.c.csr with fv := v }) ∧
          (c = 0x003 → t.core.c.csr = { s.core.c.csr with fm := v }) ∧
          (c = 0x020 → t.core.c.csr = { s.core.c.csr with diagen := v.getLsbD 0 }) ∧
          (c = 0x021 → t.core.c.csr = { s.core.c.csr with leaseLen := v.toNat }) ∧
          (c = 0x022 → t.core.c.csr = { s.core.c.csr with leaseCyc := v.toNat }) ∧
          (c = 0x100 → ∀ b, b < 64 → t.core.sys.tr.trep.getLsbD b = if b = 21 then v.getLsbD 21 else s.core.sys.tr.trep.getLsbD b) ∧
          (c = 0x106 → t.core.sys.tr = { s.core.sys.tr with tvec := v }) ∧
          (c = 0x107 → t.core.sys.tr = { s.core.sys.tr with errcnt := v }))) ∧
    ((s.coreAt n).c.u.world = 15 → val &&& ~~~csrLegal 0x012 = 0 → csrValueOk 0x012 val = true →
      ∃ t : State, exec (.winstWrite n val) s = .next t ∧ t.cur = n ∧ t.dev = s.dev ∧ t.lanterns = s.lanterns ∧
        (∀ k, k ≠ n → t.coreAt k = s.coreAt k) ∧ winst (s.coreAt n).c.u (s.coreAt n) t val)

/-- SEQL, SEQS and OVW set the next loop up -/
def Obligations.LoopSetup : Prop :=
  ∀ (s : State) (n : BitVec 3) (j : BitVec 2) (ak : AReg) (s1 : CSrc),
    let q := s.core.c.seq
    let leaves (i : Instr) (r : Seq) : Prop :=
      exec i s = .next ((s.setCore { s.core with c := { s.core.c with seq := r } }).advance .c)
    (s.ReadyC [s1] [] →
      ((s.valC s1).toNat < 2 ^ 32 → leaves (.seql n s1) { q with trip := Sparse.set 0 q.trip n.toNat (s.valC s1).toNat }) ∧
      (2 ^ 32 ≤ (s.valC s1).toNat → exec (.seql n s1) s = .next (s.takeTrap .c .seqCount 0 0 (s.laneAt .c))) ∧
      let bound := Sparse.set none q.stride (4 * n.toNat + j.toNat) (some (ak.toNat, ((s.valC s1).setWidth 32).toInt))
      leaves (.seqs n j ak s1) { q with stride := bound }) ∧
    (q.ovw = none → leaves (.ovw n) { q with ovw := some n.toNat }) ∧
    (q.ovw ≠ none → exec (.ovw n) s = .next (s.takeTrap .c .seqOvw 0 0 (s.laneAt .c)))

/-- LOOPB and LOOPC begin a loop, or pass it by when a trip count is zero -/
def Obligations.LoopStarts : Prop :=
  ∀ (s : State) (lv : BitVec 3) (len : BitVec 7) (s1 s2 : CSrc) (f : State) (buf : List (List Nat)),
    1 ≤ lv.toNat → lv.toNat ≤ 6 → 1 ≤ len.toNat → len.toNat ≤ 64 →
    let starts (s0 : State) (o : Outcome State Fault Refusal) : Prop :=
      let q := s0.core.c.seq
      let trips := (List.range lv.toNat).map fun n => Sparse.get 0 q.trip n
      let body := bodyLanes buf
      q.loop = none → s0.loadBody (s0.lineAddr .c + 32) len.toNat = .ok (f, buf) →
      (∀ x ∈ body, x.2.illInBody = false) →
      (∀ n, q.ovw = some n → n < lv.toNat ∧ s0.streamBound = false ∧ ∀ x ∈ body, x.2.illInOver = false ∧ x.2.mods.stage = 0 ∧
        (x.2.isFoot = true → x.2.mods.first = false ∧ x.2.mods.last = false)) →
      let walks : Prop := q.ovw = none ∨ (f.core.sys.stopped ||| f.core.sys.shifting) / 16 % 2 = 0
      (¬walks → o = .next s) ∧ (walks → ∃ t : State, o = .next (t.advance .c) ∧ t.core.c.seq.ovw = none ∧ t.dev = s0.dev ∧
        ((∀ n ∈ trips, n ≠ 0) ∨ q.ovw ≠ none → t.u.front = .boundary ∧ ∃ l, t.runningLoop = some l ∧ l.line = s0.lineAddr .c ∧
          l.len = len.toNat ∧ l.buf = buf ∧ l.levels = lv.toNat ∧ l.trips = trips ∧ l.pos = List.replicate lv.toNat 0 ∧
          l.ovr = q.ovw ∧ l.strides = q.stridesOf lv.toNat ∧ l.started = false) ∧
        (0 ∈ trips → q.ovw = none → t.core.c.seq.loop = none ∧ t.u.front = .line (s0.lineAddr .c + 32 * (len.toNat + 1)) true none) ∧
        (q.ovw ≠ none → t.core.w.cover = [] ∧ t.core.w.marks = [] ∧ t.core.w.walk.skipped = 0 ∧
          t.core.w.walk.lowran = 0xFFFFFFFF) ∧
        (q.ovw = none → t.core.w = s0.core.w) ∧ t.core.a = s0.core.a ∧ t.core.v = s0.core.v ∧ t.lanterns = s0.lanterns)
    starts s (exec (.loopb lv len) s) ∧
    (∀ (t t' : State) (v : Nat), s.ReadyC [s1, s2] [] → s.takeLoop = none → (s.valC s1).toNat < 2 ^ 56 →
      (s.valC s1).toNat % 64 = 0 → s.loadG (s.valC s1) 8 = .ok (t, v) →
      (v < (s.valC s2).toNat → exec (.loopc lv len s1 s2) s = .next s) ∧
      ((s.valC s2).toNat ≤ v → t.loadTrips (s.valC s1) lv.toNat 0 = .ok t' →
        starts (t'.logLoop (s.valC s1).toNat) (exec (.loopc lv len s1 s2) s))) ∧
    (∀ (t t' : State) (bs : Bytes), s.ReadyC [s1, s2] [] → s.takeLoop = some (t, bs) → (s.valC s1).toNat < 2 ^ 56 →
      (s.valC s1).toNat % 64 = 0 → t.logTrips bs lv.toNat = .ok t' → starts t' (exec (.loopc lv len s1 s2) s))

/-- Iteration boundaries: the body is laid down again, the indices advance, the loop ends -/
def Obligations.LoopBoundaries : Prop :=
  ∀ (s : State) (n : Nat) (l : Loop),
    let t := s.focus n
    t.runningLoop = some l → t.sequencerRuns = true →
    let lays (u : State) (pos : List Nat) : Prop :=
      u.runningLoop = some { l with pos := pos, started := true } ∧
      u.u.text = t.u.text ++ l.buf.zipIdx.map fun x =>
        ⟨l.line + 32 * (x.2 + 1), 8, x.2 == 0, u.core.v.rb, some (Loop.iter { l with pos := pos } false), false, some x.1⟩
    let ends (u : State) : Prop := u.core.c.seq.loop = none ∧ u.u.front = .line l.after true none
    (l.ovr = none → t.wantsText = true →
      (2 ≤ l.stages → l.started = true → (t.core.sys.stopped ||| t.core.sys.shifting) / 4 % 2 = 0) → ∃ u : State, exec (.loopIterationBoundary n) s = .next u ∧ u.dev = s.dev ∧
      (l.started = false → lays u l.pos ∧ u.core.v = t.core.v) ∧
      (l.started = true →
        (∀ pos m, l.next = some (pos, m) → lays u pos) ∧ (l.next = none → ends u) ∧
        u.core.v = { t.core.v with rb := if 2 ≤ l.stages then (t.core.v.rb + 31) % 32 else t.core.v.rb })) ∧
    (l.ovr = none → 2 ≤ l.stages → l.started = true → (t.core.sys.stopped ||| t.core.sys.shifting) / 4 % 2 = 1 →
      exec (.loopIterationBoundary n) s = .next t) ∧
    (∀ o, l.ovr = some o → t.walkerActs = true → t.allAtBoundary = true → t.bodyWritesDone = true → l.noTrips = true →
      ∃ u : State, exec (.loopIterationBoundary n) s = .next u ∧ u.dev = s.dev ∧ ends u) ∧
    (∀ o, l.ovr = some o → l.started = true → t.walkerActs = true → t.allAtBoundary = true → t.bodyWritesDone = true →
      l.noTrips = false → ∃ u : State, exec (.loopIterationBoundary n) s = .next u ∧ u.dev = s.dev ∧ u.core.w.marks = [] ∧
        (∀ pos m, l.next = some (pos, m) → u.runningLoop = some { l with pos := pos, started := false } ∧
          (o < m → u.core.w.cover = [])) ∧
        ((∀ pos m, l.next = some (pos, m) → m ≤ o) → ∀ c, u.covered c = (t.covered c || t.core.w.marks.any fun x => x.1 == c && x.2)) ∧
        (l.next = none → ends u))

/-- The walker evaluates the footprint and skips an iteration that is wholly covered -/
def Obligations.OverwritingIterations : Prop :=
  (∀ (s : State) (n o : Nat) (l : Loop) (f : Foot) (k : Nat) (ok : List Nat) (e : Option (Nat × Stop)),
    let t := s.focus n
    let w := t.core.w.walk
    t.runningLoop = some l → l.ovr = some o → l.started = false → t.walkerActs = true → t.allAtBoundary = true →
    t.bodyWritesDone = true → l.noTrips = false → t.footHeld (bodyLanes l.buf) = false →
    t.gatherFoot (l.iter false) l.buf (if t.u.eC.ended then [] else (bodyLanes l.buf).drop w.seen) (w.foot, w.seen, w.checked) =
      ((f, k, ok), e) →
    let skip := decide (f.all ≠ []) && f.all.all t.covered
    (e = none → ∃ u : State, exec (.overwritingIterationStart n) s = .next u ∧ u.dev = s.dev ∧
      u.core.w.cover = t.core.w.cover ∧ u.core.w.marks = t.core.w.marks ∧
      u.u.text = t.u.text ++ l.buf.zipIdx.map (fun x =>
        ⟨l.line + 32 * (x.2 + 1), 8, x.2 == 0, t.core.v.rb, some (l.iter skip), ok.contains x.2, some x.1⟩) ∧
      u.core.w.walk = { w with started := true, foot := ⟨[], []⟩, seen := 0, checked := [], skipped := if skip then w.skipped + 1 else w.skipped,
                               lowran := if skip then w.lowran else min w.lowran (l.index o) }) ∧
    (∀ j c v d x, e = some (j, .trap c v d) → (bodyLanes l.buf)[k]? = some x → t.u.world ≠ 15 →
      ∃ u : State, exec (.overwritingIterationStart n) s = .next u ∧ u.dev = s.dev ∧ u.u.world = 15 ∧
        u.core.sys.tr.trep.toNat % 2 ^ 10 = c.code ∧ u.core.sys.tr.taddr = v ∧
        u.core.sys.tr.tlane.toNat = (l.line + 32 * (x.1 + 1) + 4 * j) % 2 ^ 56 ∧ u.core.w.walk.seen = k ∧ u.core.w.walk.trapped = true)) ∧
  (∀ (s : State) (j : BitVec 2) (ak : AReg) (s1 s2 s3 : CSrc) (vs : BitVec 7),
    ((s.laneAt .c).ovr = true →
      exec (.foot j ak s1 s2 s3) s = .next (s.advance .c) ∧ exec (.footv ak vs) s = .next (s.advance .c)) ∧
    ((s.laneAt .c).ovr = false →
      (s.ReadyC [s1, s2, s3] [] →
        exec (.foot j ak s1 s2 s3) s = .next (s.takeTrap .c .footprintPlacement 0 0 (s.laneAt .c))) ∧
      exec (.footv ak vs) s = .next (s.takeTrap .c .footprintPlacement 0 0 (s.laneAt .c))))

/-- REGION completes and opens a region with its record; REGION.end completes and closes it -/
def Obligations.Regions : Prop :=
  ∀ (s : State) (s1 s2 s3 s4 : CSrc),
    let base := (s.valC s1).toNat
    let len := (s.valC s2).toNat
    let idle := s.matIdle && s.core.x.xq.isEmpty && (List.range 8).all fun k => s.token k == 0
    (s.ReadyC [s1, s2, s3, s4] [] → base % 64 = 0 → len % 64 = 0 → base + len ≤ 0x1F0000 →
      (maskNames (s.valC s4)).length ≤ s.regionMax → s.u.depth = 0 →
      (idle = true → ∃ t : State, exec (.region s1 s2 s3 s4) s = .next (if t.leavesHere then t.preempt t.cur else t.advance .c) ∧
        (s.departs s.cur = false → t.leavesHere = false) ∧
        t.spad 0x1FE000 8192 = s.record (s.lineAddr .c) base len ((s.valC s3).toNat % 2 ^ 32) (s.valC s4) ∧
        (∀ a, a < 0x1FE000 → Memory.read t.core.spad a = Memory.read s.core.spad a) ∧
        t.core.c.seq = { s.core.c.seq with
          region := some (s.lineAddr .c), guarded := false, takenAt := s.core.c.seq.taken, regionRb := (s.u.curLine .c).rb,
          shadow := ⟨(s.view .c).ts, (s.view .c).cb, s.core.a.cbc, s.core.c.seq.binds⟩ } ∧
        t.u = { s.u with latC := [], log := t.u.log } ∧
        ((∀ n ∈ maskNames (s.valC s4), s.regionGated n = false) → t.u.log = s.u.log) ∧
        ((∀ x ∈ s.u.log, x.1 ≤ (s.u.eng .c).pos) → ∀ p, ∃ st : Word,
          t.u.view p = { s.u.view p with status := (s.u.view p).status ||| st } ∧ (st = 0 ∨ st = stGATED)) ∧
        t.core = { s.core with c := { s.core.c with seq := t.core.c.seq, u := t.u }, spad := t.core.spad } ∧
        t.dev = s.dev ∧ t.lanterns = s.lanterns ∧ ∀ k, k ≠ s.cur → t.coreAt k = s.coreAt k) ∧
      (idle = false → exec (.region s1 s2 s3 s4) s = .next s)) ∧
    (s.ReadyC [s1, s2, s3, s4] [] →
      (base % 64 ≠ 0 ∨ len % 64 ≠ 0 ∨ 0x1F0000 < base + len ∨ s.regionMax < (maskNames (s.valC s4)).length ∨ s.u.depth ≠ 0) →
      exec (.region s1 s2 s3 s4) s = .next (s.takeTrap .c .regionRange 0 0 (s.laneAt .c))) ∧
    (∃ t : State, exec .regionEnd s = .next (t.advance .c) ∧
      t.core.c.seq = { s.core.c.seq with region := none, guarded := false } ∧ t.u = { s.u with latC := [] } ∧
      t.core = { s.core with c := { s.core.c with seq := t.core.c.seq, u := t.u } } ∧
      t.dev = s.dev ∧ t.lanterns = s.lanterns ∧ ∀ k, k ≠ s.cur → t.coreAt k = s.coreAt k)

/-- SCSTOP stops the named clocks at once, by count or by beat; SCGO starts them -/
def Obligations.ScanClocks : Prop :=
  (∀ (s : State) (s1 s2 s3 : CSrc),
    let m := (s.valC s1).toNat
    let c := (s.valC s2).toNat
    let n := (s.valC s3).toNat
    let quads := leaseQuads (m / 256 % 16)
    let l := s.lanternAt (c / 4)
    let stands (t : State) : Prop :=
      t.coreAt c = { s.coreAt c with sys := { (s.coreAt c).sys with stopped := (s.coreAt c).sys.stopped ||| m % 32 } } ∧
      (∀ k, k ≠ c → t.coreAt k = s.coreAt k) ∧ t.dev = s.dev ∧ (∀ k, k ≠ c / 4 → t.lanternAt k = s.lanternAt k) ∧
      (t.lanternAt (c / 4)).lcStopped = (l.lcStopped || decide (m / 4096 % 2 = 1)) ∧
      ∀ q, (t.lanternAt (c / 4)).quad q = if q ∈ quads then { l.quad q with stopped := true, armed := none } else l.quad q
    let waits (t : State) (o : ScanOp) : Prop :=
      t.u = s.u ∧ t.cores = s.cores ∧ t.dev = s.dev ∧ (t.lanternAt (c / 4)).stops = l.stops ++ [o]
    let passed (q : Nat) : Bool := (l.quad q).stopped || !s.quadBusy (c / 4) q || ((l.quad q).rcd.active && decide (n < (l.quad q).rcd.done))
    s.scanOp (c % 512 / 4) = none →
    (s.u.world = 15 → s.ReadyC [s1, s2, s3] [] → c < 512 → s.scanMask (s.valC s1) c true = .ok ⟨⟩ →
      (n = 0 → ∃ t : State, exec (.scstopCyc s1 s2 s3) s = .next (t.advance .c) ∧ stands t) ∧
      (0 < n → ∃ t : State, exec (.scstopCyc s1 s2 s3) s = .next t ∧ waits t ⟨s.cur, 0, s.cycOf c + n, c, m, false⟩) ∧
      ((∀ q ∈ quads, s.quadBusy (c / 4) q = false) → ∃ t : State, exec (.scstopBeat s1 s2 s3) s = .next (t.advance .c) ∧ stands t) ∧
      ((∃ q ∈ quads, passed q = false) → ∃ t : State, exec (.scstopBeat s1 s2 s3) s = .next t ∧
        waits t ⟨s.cur, 1, 0, c, m, false⟩ ∧
        ∀ q ∈ quads, passed q = false → ((t.lanternAt (c / 4)).quad q) = { l.quad q with armed := some n }) ∧
      ((∀ q ∈ quads, (l.quad q).rcd.active = false ∧ (l.quad q).armed = none) → m / 4096 % 2 = 0 →
        (∀ q ∈ quads, ∀ h, (l.quad q).holder = some h → hasQuad (s.coreAt (4 * (c / 4) + h)).c.mat.lease q = true) →
        ∃ t : State, exec (.scgo s1 s2) s = .next (t.advance .c) ∧ t.dev = s.dev ∧
          (∀ k, k ≠ c → (t.coreAt k).sys = (s.coreAt k).sys) ∧
          (∀ k, t.coreAt k = { s.coreAt k with
            sys := { (s.coreAt k).sys with stopped := (t.coreAt k).sys.stopped }
            c := { (s.coreAt k).c with mat := { (s.coreAt k).c.mat with owed := (t.coreAt k).c.mat.owed } } }) ∧
          (∀ k, (∃ q ∈ quads, (l.quad q).stopped = true ∧ ∃ h, (l.quad q).holder = some h ∧ k = 4 * (c / 4) + h) →
            (t.coreAt k).c.mat.owed = (s.coreAt k).c.mat.upToProduct) ∧
          (∀ k, (∀ q ∈ quads, (l.quad q).stopped = true → ∀ h, (l.quad q).holder = some h → k ≠ 4 * (c / 4) + h) →
            (t.coreAt k).c.mat.owed = (s.coreAt k).c.mat.owed) ∧
          (∀ q, (t.lanternAt (c / 4)).quad q = if q ∈ quads then { l.quad q with stopped := false } else l.quad q) ∧
          ∀ b, b < 5 → (t.coreAt c).sys.stopped / 2 ^ b % 2 =
            if m / 2 ^ b % 2 = 1 then 0 else (s.coreAt c).sys.stopped / 2 ^ b % 2) ∧
      ((∀ q ∈ quads, (l.quad q).rcd.active = true → (l.quad q).holder ≠ none) → (∀ q ∈ quads, (l.quad q).armed = none) →
        ∃ t : State, exec (.scgo s1 s2) s = .next (t.advance .c)) ∧
      ((∃ q ∈ quads, (l.quad q).rcd.active = true ∧ (l.quad q).holder = none) →
        exec (.scgo s1 s2) s = .next (s.takeTrap .c .scanMask 0 0 (s.laneAt .c)))) ∧
    (s.u.world = 15 → s.ReadyC [s1, s2, s3] [] → 512 ≤ c →
      let refused : Outcome State Fault Refusal := .next (s.takeTrap .c .reservedField 0 0 (s.laneAt .c))
      exec (.scstopCyc s1 s2 s3) s = refused ∧ exec (.scstopBeat s1 s2 s3) s = refused ∧ exec (.scgo s1 s2) s = refused) ∧
    (s.u.world ≠ 15 →
      let refused : Outcome State Fault Refusal := .next (s.takeTrap .c .privilegedInstruction 0 0 (s.laneAt .c))
      exec (.scstopCyc s1 s2 s3) s = refused ∧ exec (.scstopBeat s1 s2 s3) s = refused ∧ exec (.scgo s1 s2) s = refused)) ∧
  (∀ (s : State) (n : Nat), ∃ t : State, exec (.scstopCountElapsed n) s = .next t ∧ t.dev = s.dev ∧ t.cur = s.cur ∧
    (t.lanternAt n).stops.map (fun o => { o with fired := false }) = (s.lanternAt n).stops.map (fun o => { o with fired := false }) ∧
    ∀ (i : Nat) (o : ScanOp), (s.lanternAt n).stops[i]? = some o → o.kind = 0 →
      (∃ o' : ScanOp, (t.lanternAt n).stops[i]? = some o' ∧ o'.fired = (o.fired || decide (o.due ≤ s.cycOf o.target))) ∧
      (o.fired = false → o.due ≤ s.cycOf o.target →
        (∀ b, b < 5 → o.mask / 2 ^ b % 2 = 1 → (t.coreAt o.target).sys.stopped / 2 ^ b % 2 = 1) ∧
        ∀ q ∈ leaseQuads (o.mask / 256 % 16), ((t.lanternAt n).quad q).stopped = true)) ∧
  (∀ (s : State) (s1 s2 s3 : CSrc) (o : ScanOp),
    let n := (s.valC s2).toNat % 512 / 4
    s.scanOp n = some o → o.fired = true →
    ∃ t : State, State.dev t = s.dev ∧ t.scanOp n = none ∧ exec (.scstopCyc s1 s2 s3) s = .next (t.advance .c) ∧
      exec (.scstopBeat s1 s2 s3) s = .next (t.advance .c) ∧ exec (.scgo s1 s2) s = .next (t.advance .c)) ∧
  (∀ (s : State) (n : Nat),
    let shifts (b : Nat) : Prop := (s.coreAt n).sys.shifting / 2 ^ b % 2 = 1 ∧ (s.coreAt n).sys.stopped / 2 ^ b % 2 = 0
    (∀ b, b < 5 → shifts b → (∀ k, k < b → ¬shifts k) →
      ∃ t : State, exec (.scanInShiftComplete n) s = .next t ∧ t.dev = s.dev ∧ t.lanterns = s.lanterns ∧ t.coreAt n =
        { s.coreAt n with sys := { (s.coreAt n).sys with shifting := (s.coreAt n).sys.shifting - 2 ^ b } }) ∧
    ((∀ b, b < 5 → ¬shifts b) → exec (.scanInShiftComplete n) s = .next s))

/-- SCOUT, SCIN and SCOWN: capture, restore and ownership of stopped segments -/
def Obligations.ScanImages : Prop :=
  (∀ (s : State) (rd : CReg) (s1 s2 s3 s4 : CSrc),
    let m := (s.valC s1).toNat
    let c := (s.valC s2).toNat
    let a := (s.valC s3).toNat
    s.u.world = 15 → c < 512 →
    (∀ base len, s.ReadyC [s1, s2, s3, s4] [rd] → liveRange (s.valC s4) = .ok (base, len) →
      s.scanMask (s.valC s1) c true = .ok ⟨⟩ →
      (∀ b ∈ maskBits m, s.segOwner c b = s.segOwner c ((maskBits m).headD 0)) → s.scanStill c m = .ok ⟨⟩ →
      let i := (s.capture c m base len).2
      let u := (s.capture c m base len).1.modDev fun d => { d with sec := { d.sec with images := d.sec.images ++ [i] } }
      let done (o : Outcome State Fault Refusal) (t : State) : Prop :=
        o = .next ((t.setRd rd (BitVec.ofNat 64 i.len)).advance .c) ∧
        u.dev.sec.images = s.dev.sec.images ++ [i] ∧ u.dev.sec.iv = s.dev.sec.iv + 1
      (a + i.len ≤ 0x200000 → ∃ t : State, done (exec (.scout rd s1 s2 s3 s4 true) s) t ∧ t.spad a i.bytes.length = i.bytes ∧ t.dev = u.dev) ∧
      (∀ t, u.storeRange a i.bytes = .ok t → done (exec (.scout rd s1 s2 s3 s4 false) s) t)) ∧
    (s.ReadyC [s1, s2, s3] [rd] → s.scanMask (s.valC s1) c true = .ok ⟨⟩ → s.scanStill c m = .ok ⟨⟩ →
      (a + 256 ≤ 0x200000 →
        a + imageLen (s.coreAt c).sys.full (fieldOf (s.spad a 256) 8 2) (fieldOf (s.spad a 256) 36 4) ≤ 0x200000 →
        ∃ t : State, exec (.scin rd s1 s2 s3 true) s = .next (t.advance .c)) ∧
      ∀ spad u st i, s.scinStatus spad a c m = .ok (u, st, i) →
        u.core = { s.core with sys := { s.core.sys with tlb := u.core.sys.tlb } } ∧ u.dev = s.dev ∧ u.lanterns = s.lanterns ∧
        u.cur = s.cur ∧ (∀ k, k ≠ s.cur → u.coreAt k = s.coreAt k) ∧
        (i = none → st ≠ 0 ∧ exec (.scin rd s1 s2 s3 spad) s = .next ((u.setRd rd (BitVec.ofNat 64 st)).advance .c)) ∧
        ∀ j, i = some j → st = 0 ∧ j ∈ s.dev.sec.images ∧ j.key = s.memKey j.world ∧
          (∀ b ∈ maskBits m, s.segOwner c b = j.world) ∧
          exec (.scin rd s1 s2 s3 spad) s = .next ((((u.restore c j).modDev fun d =>
            { d with sec := { d.sec with floor := Sparse.set 0 d.sec.floor j.world j.savecnt } }).setRd rd 0).advance .c)) ∧
    (s.ReadyC [s1, s2, s3] [] → a ≤ 15 → s.scanMask (s.valC s1) c false = .ok ⟨⟩ →
      ∃ t : State, exec (.scown s1 s2 s3) s = .next (t.advance .c) ∧ t.dev = s.dev ∧
        ∀ b, b < 5 ∨ (8 ≤ b ∧ b < 13) → t.segOwner c b = if m / 2 ^ b % 2 = 1 then a else s.segOwner c b)) ∧
  (∀ (s : State) (c : Nat) (i : Image),
    let r := s.restore c i
    let has (b : Nat) : Bool := i.segmap / 2 ^ b % 2 == 1
    let old := (s.coreAt c).c
    let new := (r.coreAt c).c
    let of' (b : Nat) : SegC := if has b then i.c else old
    let k : SegC := if has 0 then { i.c with mat := { i.c.mat with start := s.cycOf c - i.c.mat.start } } else old
    let L := s.lanternAt (c / 4)
    let R := r.lanternAt (c / 4)
    -- segment C, with what stands beside it of the segments A, V and X
    (new = { k with u := new.u, csr := { k.csr with fv := (of' 2).csr.fv },
                    seq := { k.seq with shadow := { (of' 1).seq.shadow with binds := k.seq.shadow.binds } } } ∧
      new.u = { k.u with eA := (of' 1).u.eA, eV := (of' 2).u.eV, eX := (of' 3).u.eX, log := new.u.log,
                         sh := { k.u.sh with ts := (of' 1).u.sh.ts, cb := (of' 1).u.sh.cb, vsp := (of' 2).u.sh.vsp } } ∧
      ∀ e, e ∈ new.u.log ↔ e ∈ (if e.2.inA then of' 1 else if e.2.inV then of' 2 else k).u.log) ∧
    (r.coreAt c).tag = (s.coreAt c).tag ∧ (r.coreAt c).turn = (s.coreAt c).turn ∧
    (r.coreAt c).sys = { (s.coreAt c).sys with shifting := i.segmap % 32, used := (r.coreAt c).sys.used } ∧
    -- scratchpad
    (let part (a : Nat) : Prop := (has 0 = true ∧ 0x1F0000 ≤ a) ∨ (i.live ≤ a ∧ a < i.live + i.liveLen)
     Memory.wf i.spad = true → (∀ x ∈ i.spad, part x.1) → ∀ a,
      (part a → Memory.read (r.coreAt c).spad a = Memory.read i.spad a) ∧
      (¬part a → Memory.read (r.coreAt c).spad a = Memory.read (s.coreAt c).spad a)) ∧
    -- quadrants and lantern control
    (∀ q, q < 4 →
      let d := L.quad q
      let e := R.quad q
      let g := Sparse.get Quad.reset i.quads q
      let kept (row : Nat) : Bool := d.foreignRow (c % 4) i.c.u row
      e.holder = (if has 0 = true ∧ q ∈ leaseQuads i.c.mat.lease then some (c % 4) else d.holder) ∧
      (has (8 + q) = false → e = { d with holder := e.holder, used := e.used }) ∧
      (has (8 + q) = true → e = { d with acc := e.acc, sw := e.sw, ww := e.ww, cells := e.cells, rcd := g.rcd, bad := e.bad,
                                         holder := e.holder, used := e.used } ∧
        (Sparse.wf 0 g.acc = true → ∀ x, Sparse.get 0 e.acc x = Sparse.get 0 (if kept (x / 128) then d.acc else g.acc) x) ∧
        (Sparse.wf 0 g.sw = true → ∀ x, Sparse.get 0 e.sw x = Sparse.get 0 (if kept x then d.sw else g.sw) x) ∧
        (Sparse.wf 0 g.ww = true → ∀ x, Sparse.get 0 e.ww x = Sparse.get 0 (if kept x then d.ww else g.ww) x))) ∧
    R = { L with q := R.q, ptr := R.ptr, waiting := R.waiting, rotWant := R.rotWant } ∧
    (R.ptr, R.waiting, R.rotWant) = i.lc.getD (L.ptr, L.waiting, L.rotWant) ∧
    (r.coreAt c).a = (if has 1 then i.a else (s.coreAt c).a) ∧ (r.coreAt c).v = (if has 2 then i.v else (s.coreAt c).v) ∧
    (r.coreAt c).x = (if has 3 then i.x else (s.coreAt c).x) ∧ (r.coreAt c).w = (if has 4 then i.w else (s.coreAt c).w) ∧
    (∀ k, k ≠ c → r.coreAt k = s.coreAt k) ∧ (∀ k, k ≠ c / 4 → r.lanternAt k = s.lanternAt k) ∧
    r.dev.sec = s.dev.sec ∧ ((∀ lid l, i.c.u.lid = some lid → s.launch? lid = some l → l.recorded = false) → r.dev.m = s.dev.m))

/-- DIAGINJ flips the named bit and nothing else; TLBINV drops the named translations; FRAMESET queues a slot -/
def Obligations.SystemLanes : Prop :=
  (∀ (s : State) (s1 s2 s3 : CSrc),
    let loc := (s.valC s1).toNat
    let bit := (s.valC s2).toNat
    let q := loc / 2 ^ 15
    let r := loc / 2 ^ 8 % 128
    let c := loc % 128
    let right : Prop := s.u.world = 15 ∨ s.core.c.csr.diagen = true
    let cellOk : Prop := loc < 2 ^ 17 ∧ loc / 2 ^ 7 % 2 = 0 ∧ bit ≤ 63
    let quadOk : Prop := hasQuad s.liveQuads q = true ∧
      (s.u.world = 15 ∨ ((s.lantern.quad q).holder = some (s.cur % 4) ∧ hasQuad s.core.c.mat.lease q = true))
    -- bit b of stored cell k of quadrant x flips, and nothing else changes
    let flips (i : Instr) (x k b : Nat) : Prop := ∃ d : Quad,
      exec i s = .next ((s.setLantern (s.lantern.setQuad x d)).advance .c) ∧ d = { s.lantern.quad x with acc := d.acc } ∧
      ∀ j, Sparse.get 0 d.acc j = Sparse.get 0 (s.lantern.quad x).acc j ^^^ (if j = k then BitVec.ofNat 64 (2 ^ b) else 0)
    (right → cellOk → quadOk → s.ReadyC [s1, s2, s3] [] →
      flips (.diaginjAcc s1 s2 s3) q (128 * r + c) bit ∧
      (∃ f : Flip, exec (.diaginjProd s1 s2 s3) s =
          .next ((s.modMat fun m => { m with flip := Sparse.set none m.flip q (some f) }).advance .c) ∧
        f.row = r ∧ f.col = c ∧ f.bit = bit ∧ f.beat = (s.valC s3).toNat)) ∧
    (right → s.ReadyC [s1, s2, s3] [] →
      (loc < 0x200000 → bit < 8 → (s.u.world = 15 ∨ loc < 0x1F0000) →
        ∃ m : List Cell, exec (.diaginjSpad s1 s2 s3) s = .next ((s.setCore { s.core with spad := m }).advance .c) ∧
          ∀ a, Memory.read m a = Memory.read s.core.spad a ^^^ (if a = loc then BitVec.ofNat 8 (2 ^ bit) else 0)) ∧
      (loc < 64 → bit < 8 * s.payload → s.parkAt (physV (s.u.curLine .c).rb loc) = none →
        let p := physV (s.u.curLine .c).rb loc
        let e := s.readV p
        let flipped : Elem := { e with data := e.data.set (bit / 8) (e.data.getD (bit / 8) 0 ^^^ BitVec.ofNat 8 (2 ^ (bit % 8))) }
        exec (.diaginjVreg s1 s2 s3) s = .next ((s.setCore { s.core with v := { s.core.v with
          v := Sparse.set VReg.zero s.core.v.v p ⟨true, flipped⟩ } }).advance .c)) ∧
      (∀ a, loc < 64 → bit < 8 * s.payload → s.parkAt (physV (s.u.curLine .c).rb loc) = some a →
        flips (.diaginjVreg s1 s2 s3) a.quad (128 * a.row + (32 * a.slot + bit / 64)) (bit % 64))) ∧
    (¬right →
      let refused : Outcome State Fault Refusal := .next (s.takeTrap .c .privilegedInstruction 0 0 (s.laneAt .c))
      exec (.diaginjAcc s1 s2 s3) s = refused ∧ exec (.diaginjProd s1 s2 s3) s = refused ∧
      exec (.diaginjSpad s1 s2 s3) s = refused ∧ exec (.diaginjVreg s1 s2 s3) s = refused)) ∧
  (∀ (s : State) (kind : BitVec 2) (s1 s2 : CSrc) (slot : BitVec 4),
    let v := (s.valC s1).toNat
    let w := (s.valC s2).toNat
    let named (e : TlbEntry) : Bool := match kind.toNat with
      | 0 => e.world == w % 16 && decide (e.va ≤ v) && decide (v < e.va + e.size)
      | 1 => e.world == w % 16
      | _ => true
    let refused : Outcome State Fault Refusal := .next (s.takeTrap .c .privilegedInstruction 0 0 (s.laneAt .c))
    (s.u.world = 15 → s.ReadyC [s1, s2] [] →
      (∃ t : State, exec (.tlbinv kind s1 s2) s = .next (t.advance .c) ∧ t.dev = s.dev ∧ t.lanterns = s.lanterns ∧
        ∀ n, (t.coreAt n).sys.tlb = (s.coreAt n).sys.tlb.filter (fun e => !named e) ∧ (t.coreAt n).c = (s.coreAt n).c) ∧
      (18 ≤ v / 16 % 32 → v / 16 % 32 ≤ 24 → w < 512 → (s.coreAt w).sys.enabled = true →
        ∃ t : State, exec (.frameset s1 s2 slot) s = .next (t.advance .c) ∧ t.dev = s.dev ∧ t.lanterns = s.lanterns ∧
          (t.coreAt w).sys = { (s.coreAt w).sys with
            slotNext := (s.coreAt w).sys.slotNext ++ [(s.cycOf w, slot.toNat, ⟨v % 16, v / 16 % 32, v / 512 % 2 == 1⟩)] } ∧
          ∀ n, n ≠ w → t.coreAt n = s.coreAt n)) ∧
    (s.u.world ≠ 15 → exec (.tlbinv kind s1 s2) s = refused ∧ exec (.frameset s1 s2 slot) s = refused))

/-- KISSUE, SXFER and CANCEL of the lamplighter -/
def Obligations.DispatchLanes : Prop :=
  ∀ (s : State) (rd : CReg) (s1 s2 : CSrc) (lvl : BitVec 3), s.u.world = 15 → s.ReadyC [s1, s2] [rd] →
    let w := (s.valC s2).toNat
    let a := (s.valC s1).toNat
    (w < 2 ^ 12 → s.cur < 512 →
      exec (.kissue rd s1 s2) s = .next (s.takeTrap .c .dispatchCore 0 0 (s.laneAt .c)) ∧
      exec (.sxfer rd s1) s = .next (s.takeTrap .c .dispatchCore 0 0 (s.laneAt .c))) ∧
    (w < 2 ^ 12 → 512 ≤ s.cur → ∀ t bs, s.loadRange a 128 = .ok (t, bs) →
      (64 ≤ t.boardUsed (s.cur - 512) → exec (.kissue rd s1 s2) s = .next ((t.setRd rd 1).advance .c)) ∧
      (t.boardUsed (s.cur - 512) < 64 →
        let free (f : Feed) : Bool := f.die == s.cur - 512 && f.lid.isNone
        let u := t.modDev fun d => { d with board := d.board.filter fun f => !free f }
        exec (.kissue rd s1 s2) s = .next (((u.takeLaunch bs a (w % 16) (w / 16 % 16) (w / 256) (s.cur - 512)
          (some ((t.dev.board.filter free).map Feed.x))).stampReady.setRd rd 0).advance .c))) ∧
    (512 ≤ s.cur → ∀ t bs, s.loadRange a 64 = .ok (t, bs) →
      (64 ≤ t.boardUsed (s.cur - 512) → exec (.sxfer rd s1) s = .next ((t.setRd rd 1).advance .c)) ∧
      (t.boardUsed (s.cur - 512) < 64 → ∃ u x, exec (.sxfer rd s1) s = .next ((State.setRd u rd 0).advance .c) ∧
        u.dev.board = t.dev.board ++ [⟨s.cur - 512, none, x⟩] ∧ x.src = leNat (bs.take 8) ∧
        x.len = leNat ((bs.drop 8).take 4) ∧ x.resident = false ∧ u.cores = t.cores)) ∧
    (let r := s.cancel lvl.toNat a
     (r.1.core.c.busy = s.core.c.busy →
       exec (.cancel rd s1 lvl) s = .next ((r.1.stampReady.setRd rd (BitVec.ofNat 64 r.2)).advance .c)) ∧
     (r.1.core.c.busy ≠ s.core.c.busy → exec (.cancel rd s1 lvl) s = .next r.1.stampReady) ∧
     let known : Prop := (∃ l ∈ s.dev.launches, l.inLevel lvl.toNat a = true) ∨
       ((∃ x ∈ s.dev.sizes, x.level = lvl.toNat ∧ x.id = a) ∧ s.dev.endedLevel lvl.toNat a = none)
     (known → r.2 = 0 ∧ ∀ l ∈ r.1.dev.launches, l.inLevel lvl.toNat a = false ∨ l.expired.isSome = true) ∧
     (¬known → r.1 = s ∧ (s.dev.endedLevel lvl.toNat a = some true → r.2 = 1) ∧
       (s.dev.endedLevel lvl.toNat a ≠ some true → r.2 = 2)))

/-- The dispatch program consumes the next record of a queue, launch or cancel -/
def Obligations.RecordsConsumed : Prop :=
  (∀ (s : State) (p q : Nat), s.serves p q = true → s.anyPoisoned (s.recordReads p q) = true →
    ∀ i ∈ [Instr.launchRecord p q, .cancelRecord p q], ∃ t : State, exec i s = .next t ∧ t.dev.stateWord = 2 ∧ t.dev.launches = [] ∧
      t.dev.m = s.dev.m ∧ let n := 512 + s.homeDie p
      (t.coreAt n).sys.tr.errcnt = countUncorr (s.coreAt n).sys.tr.errcnt ∧ ∀ k, k ≠ n → t.coreAt k = s.coreAt k) ∧
  ∀ (s : State) (p q a : Nat) (bs : Bytes), s.offered p q = some (a, bs) → s.anyPoisoned (s.recordReads p q) = false →
    let die := s.homeDie p
    let done (t : State) : Prop := (t.queue p q).pos = a ∧ t.anchorRead (0x1000 + 64 * (16 * p + q) + 8) 8 = a % 2 ^ 64
    let bad : Prop := parseLaunch bs (s.queue p q).world p q = none ∨ s.xfersOf bs = none
    (fieldOf bs 8 1 ≠ 2 → (bad ∨ s.boardUsed die + 1 + fieldOf bs 96 1 ≤ 64) →
      ∃ t : State, exec (.launchRecord p q) s = .next t ∧ done t ∧
        t.dev.launches = (s.takeLaunch bs a (s.queue p q).world p q die (s.xfersOf bs)).dev.launches ∧ t.cores = s.cores) ∧
    (fieldOf bs 8 1 ≠ 2 → ¬bad → 64 < s.boardUsed die + 1 + fieldOf bs 96 1 → exec (.launchRecord p q) s = .next s) ∧
    (fieldOf bs 8 1 = 2 → exec (.launchRecord p q) s = .next s ∧
      ∃ t : State, exec (.cancelRecord p q) s = .next t ∧ done t ∧
        (fieldOf bs 9 1 = 0 ∨ 4 < fieldOf bs 9 1 → t.dev.launches = s.dev.launches ∧ t.cores = s.cores ∧
          (t.queue p q).events = (s.queue p q).events ++ [⟨0, 9, 0, 0, a, 0, 0, 0xFFFFFFFF, 0, s.dev.now / 1000⟩]) ∧
        (1 ≤ fieldOf bs 9 1 → fieldOf bs 9 1 ≤ 4 →
          t.dev.launches = (s.cancel (fieldOf bs 9 1) (fieldOf bs 16 8)).1.dev.launches ∧
          t.cores = (s.cancel (fieldOf bs 9 1) (fieldOf bs 16 8)).1.cores)) ∧
    (fieldOf bs 8 1 ≠ 2 → exec (.cancelRecord p q) s = .next s)

/-- A unit starts with the registers of the spec; its end frees the core; residency and events -/
def Obligations.UnitsStartAndEnd : Prop :=
  (∀ (s : State) (die i : Nat) (f : Feed), s.nextXfer die = some (i, f) →
    ∃ t : State, exec (.streamResidencyComplete die) s = .next t ∧ t.cores = s.cores ∧
      t.dev.board = s.dev.board.set i { f with x := { f.x with resident := true } }) ∧
  (∀ (s : State) (p : Nat) (l : Launch) (u : State), s.inService = true → (∀ r ∈ s.dev.resetting, r.part ≠ p) →
    let t := s.stampReady
    t.pickFirst (t.dev.launches.filter fun l => l.part == p && !t.dieDown (512 + l.die) && t.isReady l && (t.startNext l).isSome) = some l →
    t.startNext l = some u → exec (.unitStart p) s = .next u) ∧
  (∀ (s : State) (l : Launch) (idx : Nat) (rest : List Nat), s.unplaced l = idx :: rest → l.gang = false →
    (l.dup = false → l.replay = none →
      s.startNext l = (s.bestCore (s.freeCores l)).map fun n => (s.startUnit l idx 0 n).logPlacement l.lid) ∧
    (∀ cores, l.replay = some cores → cores.getD idx 0 ∈ s.freeCores l →
      s.startNext l = some ((s.startUnit l idx 0 (cores.getD idx 0)).logPlacement l.lid))) ∧
  (∀ (s : State) (ns : List Nat) (n : Nat), s.bestCore ns = some n → n ∈ ns ∧ ∀ m ∈ ns, s.better m n = false) ∧
  (∀ (s : State) (l : Launch) (idx run n : Nat), n < 512 →
    let c := (s.startUnit l idx run n).coreAt n
    c.c.busy = true ∧ c.c.u.world = l.world ∧ c.c.u.lid = some l.lid ∧ c.c.u.front = .line l.text false none ∧
    c.c.u.log = [] ∧ c.c.u.sh.x 0 = 0 ∧ c.c.u.sh.x 1 = BitVec.ofNat 64 idx ∧ c.c.u.sh.x 2 = BitVec.ofNat 64 l.n ∧
    c.c.u.sh.x 3 = BitVec.ofNat 64 (l.args % 2 ^ 56) ∧ c.c.u.sh.x 4 = BitVec.ofNat 64 l.lid ∧
    c.c.u.sh.x 5 = 0 ∧ c.c.u.sh.x 6 = 0 ∧ c.c.u.sh.x 7 = 0 ∧
    c.c.u.sh.wb = 0 ∧ c.c.u.sh.frame = 24 ∧ c.c.f = [] ∧ c.c.k = [] ∧ c.c.u.sh.status = 0 ∧ c.v.rb = 0 ∧ c.v.v = [] ∧ c.a.q = []) ∧
  (∀ (s : State) (n : Nat), n < 512 → (s.focus n).unitDone = true →
    let u := (s.focus n).u
    ∃ t : State, exec (.unitEnd n) s = .next t ∧ (t.coreAt n).c.busy = false ∧ (t.coreAt n).c.u = UnitCtx.reset ∧ (t.coreAt n).v.v = [] ∧
      (u.lid.bind s.launch? = none → t.dev = s.dev) ∧
      ∀ l, u.lid.bind s.launch? = some l →
        let r := l.endRun u.idx u.run n
        let c := ((s.focus n).clearCore n).setLaunch r
        (r.allEnded = false ∨ s.snuffed r = true ∨ l.expired.isSome = true → t = c) ∧
        (r.allEnded = true → s.snuffed r = false → l.expired = none → t = c.completeLaunch r ∧
          (l.dup = false → t.dev.m = s.dev.m.commit l.stage0 ∧ ∀ x ∈ t.dev.launches, x.lid ≠ l.lid))) ∧
  (∀ (s : State) (p q : Nat) (e : Event) (es : List Event), (s.queue p q).events = e :: es → s.inService = true →
    s.dev.port.linkUp = true →
    let blk := 0x1000 + 64 * (16 * p + q)
    let n := (s.queue p q).seq + 1
    let cnt := s.anchorRead (blk + 24) 4
    (s.dev.m.poisoned Stage.empty (s.dev.anchor + blk) 64 = true → exec (.eventRecordWrite p q) s = .next s.deviceFault) ∧
    (s.dev.m.poisoned Stage.empty (s.dev.anchor + blk) 64 = false → n - s.anchorRead (blk + 32) 8 ≤ cnt →
    ∃ t : State, exec (.eventRecordWrite p q) s = .next t ∧ (t.queue p q).seq = n ∧ (t.queue p q).events = es ∧
      t.cores = s.cores ∧ t.anchorRead (blk + 40) 8 = n % 2 ^ 64 ∧
      Memory.reads t.dev.m.host (s.anchorRead (blk + 16) 8 + 64 * ((n - 1) % max cnt 1)) 64 = e.bytes n ∧
      t.dev.port.msix = if (s.queue p q).msix = 0xFF then s.dev.port.msix else s.dev.port.msix ++ [(s.queue p q).msix])) ∧
  (∀ (e : Event) (n : Nat),
    let f := fieldOf (e.bytes n)
    (e.bytes n).length = 64 ∧ f 0 8 = n % 2 ^ 64 ∧ f 8 1 = e.level % 2 ^ 8 ∧ f 9 1 = e.status % 2 ^ 8 ∧ f 10 2 = e.cause % 2 ^ 16 ∧
    f 12 4 = e.count % 2 ^ 32 ∧ f 16 8 = e.id % 2 ^ 64 ∧ f 24 8 = e.jobid % 2 ^ 64 ∧ f 32 1 = e.flags % 2 ^ 8 ∧
    f 36 4 = e.unit % 2 ^ 32 ∧ f 40 8 = e.addr % 2 ^ 64 ∧ f 48 8 = e.time % 2 ^ 64)

/-- A contained trap is delivered to the handler; a freeze ends; a frame edge and region pre-emption act -/
def Obligations.TrapDeliveryAndFreeze : Prop :=
  (∀ (s : State) (n : Nat), s.dev.stateWord ≠ 2 → s.dev.powered = true → (s.coreAt n).sys.freeze = 0 →
    (s.coreAt n).sys.stopped % 2 = 0 →
    (∀ r, (s.coreAt n).c.pend = some r → (s.coreAt n).sys.saved = none →
      exec (.trapDelivery n) s = .next ((s.focus n).deliver r.engine r.cause r.addr 0 r.lane)) ∧
    (∀ u, (s.coreAt n).c.pend = none → (s.coreAt n).sys.saved = some u → (s.focus n).begunActs = false →
      let c := (s.coreAt n).sys.tr.trep.toNat % 1024
      let a := (s.coreAt n).sys.tr.taddr.toNat
      (s.unlocked u.world = true → (s.coreAt n).sys.tr.trep.getLsbD 20 = true → exec (.trapDelivery n) s = .next (s.focus n)) ∧
      (s.unlocked u.world = false ∨ (s.coreAt n).sys.tr.trep.getLsbD 20 = false → ∀ l, u.lid.bind s.launch? = some l →
        (c = Cause.staleGrant.code → exec (.trapDelivery n) s = .next ((s.focus n).staleGrant l u.idx a)) ∧
        (c ≠ Cause.staleGrant.code →
        (memoryError c = false → exec (.trapDelivery n) s = .next ((s.focus n).failLaunch l 4 c u.idx a)) ∧
        (memoryError c = true → exec (.trapDelivery n) s = .next ((s.focus n).contain l c u.idx a))))) ∧
    ((s.coreAt n).c.pend = none → (s.focus n).begunActs = true → exec (.trapDelivery n) s = .next (s.focus n))) ∧
  (∀ (s : State) (n : Nat), n < 520 → 0 < s.clockOf (dieOf n) →
    ∃ t : State, exec (.correctionFreezeEnd n) s = .next t ∧ t.core.sys.freeze = 0 ∧ t.cur = n ∧
      t.cycOf n = s.cycOf n + (s.coreAt n).sys.freeze ∧
      ((∀ x ∈ s.lanterns, ∀ q, q < 4 → (x.2.quad q).held = false) → t.dev.m = s.dev.m)) ∧
  (∀ (s : State) (n i : Nat) (x : Slot), n < 512 → s.dev.stateWord ≠ 2 → s.dev.powered = true →
    let y := (s.coreAt n).sys
    let old := Sparse.get Slot.off y.slots y.slot
    let z : CoreSys := { y with
      slots := (y.slotNext.filter fun f => decide (f.1 < y.edge)).foldl (fun m (f : Nat × Nat × Slot) => Sparse.set Slot.off m f.2.1 f.2.2) y.slots,
      slotNext := y.slotNext.filter fun f => !decide (f.1 < y.edge) }
    (s.cycOf n < y.edge → exec (.frameEdge n) s = .next (s.focus n)) ∧
    (s.exchanged n = true → (s.focus n).edgeWaits = true → exec (.frameEdge n) s = .next (s.focus n)) ∧
    (y.edge ≤ s.cycOf n → z.following = some (i, x) → (∀ m ∈ s.edgeLinks n, m = n) →
    let begun : CoreSys := { z with slot := i, edge := y.edge + 2 ^ x.len, opened := y.edge }
    (old.en = true → old.world = x.world → s.exchanged n = false → ((s.coreAt n).c.busy = true ∨ s.savedUnit n x.world = none) →
      ∃ t : State, exec (.frameEdge n) s = .next t ∧ t.core = { s.coreAt n with sys := begun } ∧ t.dev = s.dev ∧ t.lanterns = s.lanterns) ∧
    ((s.coreAt n).c.busy = true → (s.coreAt n).c.u.world ≠ 15 → (s.coreAt n).c.u.world ≠ x.world → (s.focus n).edgeWaits = false →
      s.savedUnit n x.world = none →
      ∃ t i, exec (.frameEdge n) s = .next t ∧ t.core.c.busy = false ∧ t.core.spad = [] ∧ t.core.v.v = [] ∧ t.core.sys.slot = begun.slot ∧
        t.core.sys.edge = begun.edge ∧
        Sparse.get none t.dev.saves (256 * n + 16 * y.slot + (s.coreAt n).c.u.world) = some i ∧ i.c.u = (s.coreAt n).c.u ∧
        i.v = (s.coreAt n).v ∧ i.a = (s.coreAt n).a ∧ t.dev.m = s.dev.m ∧ t.dev.launches = s.dev.launches))) ∧
  (∀ (s : State) (n : Nat),
    ((s.focus n).atYield = true → (s.coreAt n).c.seq.region.isSome = true → s.outranked n = true → (s.coreAt n).mayLeave = true →
      s.allLeave n = true → exec (.regionPreemption n) s = .next ((s.leavers n).foldl State.preemptUnit s)) ∧
    ((s.coreAt n).c.seq.region = none ∨ (s.coreAt n).c.seq.guarded = true ∨ s.outranked n = false →
      exec (.regionPreemption n) s = .next s)) ∧
  (∀ (s t : State) (n : Nat), s.inService = true → s.tryRestart n s.dev.waiting = some t →
    exec (.regionRestart n) s = .next t) ∧
  (∀ (s : State) (r : Restart) (l : Launch) (n : Nat), s.launch? r.lid = some l →
    let c := (s.restartUnit r n).coreAt n
    c.c.busy = true ∧ c.c.u.world = l.world ∧ c.c.u.lid = some l.lid ∧ c.c.u.idx = r.idx ∧ c.c.u.grans = r.grans ∧
    (r.region = none → c.c.u.front = .line l.text false none ∧ c.c.u.sh.x 1 = BitVec.ofNat 64 r.idx) ∧
    (∀ a, r.region = some a → c.c.u.front = .line a false none ∧ c.c.seq.region = some a ∧ c.c.u.sh.ts = r.shadow.ts ∧
      c.c.u.sh.cb = r.shadow.cb ∧ c.a.cbc = r.shadow.cbc ∧ c.c.seq.binds = r.shadow.binds ∧ c.v.rb = 0 ∧ c.c.u.sh.wb = 0 ∧
      c.c.u.sh.frame = 24))

/-- Host accesses through data and descriptor slices -/
def Obligations.HostWindows : Prop :=
  ∀ (s : State) (i off n : Nat) (data : Bytes) (f e : Byte), s.hostReaches = true →
    let counts (x : Instr) : Prop := ∃ t : State, exec x s = .next t ∧ t.dev.port.hostErr = min (s.dev.port.hostErr + 1) (2 ^ 64 - 1) ∧
      t.dev.m = s.dev.m ∧ t.cores = s.cores
    (∀ b k, s.slice? i = some (b, k) →
      (off + data.length ≤ 2 ^ 30 → b + off + data.length ≤ memTop + 1 →
        ∃ t : State, exec (.hostWriteDataSlice i off data) s = .next t ∧ t.cores = s.cores ∧ t.dev.port = s.dev.port ∧
          t.dev.m = (s.dev.m.put k (b + off) data).repair (b + off) data.length) ∧
      (∃ t : State, exec (.hostReadDataSlice (i + 64) off n) s = .next t ∧ t.dev.m = s.dev.m ∧ t.cores = s.cores ∧
        t.dev.port.lastRead.length = n ∧ ∀ x, x < n → t.dev.port.lastRead.getD x 0 =
          let d := Sparse.get Desc.zero s.dev.m.desc (b / 64 + (off + x) / 2)
          if (off + x) % 2 = 0 then d.fmt else d.scale) ∧
      (off % 2 = 0 → off < 2 ^ 25 → exec (.hostWriteDescriptor i off [f, e]) s =
        .next (s.modMem fun m => { m with desc := Sparse.set Desc.zero m.desc (b / 64 + off / 2) ⟨f, e⟩ })) ∧
      (b + off + n ≤ memTop + 1 → (∀ x, b + off ≤ x → x < b + off + n → Sparse.get false s.dev.m.poison (x / 32 * 32) = false) →
        ∃ t : State, exec (.hostReadDataSlice i off n) s = .next t ∧ t.dev.m = s.dev.m ∧ t.cores = s.cores ∧
          t.dev.port.lastRead = s.dev.m.readKey Stage.empty k (b + off) n)) ∧
    (s.slice? i = none → counts (.hostWriteDataSlice i off data) ∧ counts (.hostWriteDescriptor i off [f, e]) ∧
      (i < 64 → ∀ j, j = i ∨ j = i + 64 →
        ∃ t : State, exec (.hostReadDataSlice j off n) s = .next t ∧ t.dev.m = s.dev.m ∧ t.dev.port.lastRead = List.replicate n 0xFF))

/-- Power-on, reset, the boot length and the start of the firmware -/
def Obligations.StartUp : Prop :=
  (∀ s : State, s.dev.powered = false → exec .deviceReset s = .next s) ∧
  (∀ (s : State) (reset : Bool), (reset = false ∨ s.dev.powered = true) →
    ∃ t : State, exec (if reset then .deviceReset else .powerOn) s = .next t ∧ t.dev.stateWord = 0 ∧ t.dev.powered = true ∧
      t.dev.launches = [] ∧ t.dev.sec.keys = [] ∧ t.dev.sec.unlocked = 0 ∧ t.dev.port.hostErr = 0 ∧ t.dev.now = 0 ∧
      Sparse.get none t.dev.port.slices 0 = some (0x18000000000, KeyId.default) ∧
      ∀ n, (t.coreAt n).c = SegC.reset ∧ (t.coreAt n).sys.saved = none ∧ (t.coreAt n).spad = []) ∧
  (∀ (s : State) (v : BitVec 32), s.hostReaches = true →
    let boots (i : Instr) (n : Nat) : Prop := ∃ t : State, exec i s = .next t ∧ t.dev.port.bootLen = n ∧ t.dev.port.bootErr ≤ 3 ∧
      t.dev.stateWord = 0 ∧ t.dev.m = s.dev.m ∧ t.cores = s.cores
    s.dev.stateWord = 0 → boots (.bootLengthWrite v) v.toNat ∧ boots (.bar0Write 0x1004 (natLe 4 v.toNat)) v.toNat) ∧
  (∀ (s : State) (off : Nat) (data : Bytes), s.hostReaches = true → (off ≠ 0x1004 ∨ data.length ≠ 4) →
    ∃ t : State, exec (.bar0Write off data) s = .next t ∧ t.dev.port.hostErr = min (s.dev.port.hostErr + 1) (2 ^ 64 - 1) ∧
      t.dev.stateWord = s.dev.stateWord ∧ t.dev.m = s.dev.m ∧ t.cores = s.cores) ∧
  (∀ (s : State) (anchor : Nat) (tvec : Word), s.booted = true →
    ∃ t : State, exec (.firmwareStart anchor tvec) s = .next t ∧ t.dev.stateWord = 1 ∧ t.dev.anchor = anchor ∧
      Sparse.get none t.dev.port.slices 0 = some (anchor / 2 ^ 30 * 2 ^ 30, KeyId.firmware) ∧
      (∀ n, n < 520 → (t.coreAt n).sys.tr.tvec = BitVec.ofNat 64 (tvec.toNat % 2 ^ 56 / 32 * 32)) ∧
      (∀ n, n < 512 → (s.coreAt n).sys.enabled = true → (s.coreAt n).sys.fenced = false →
        (t.coreAt n).sys.fenced = !Config.startTest s.dev.fresh n ∧
        (Config.startTest s.dev.fresh n = true → (t.coreAt n).sys.passed = s.dev.now)) ∧
      ∀ d, d < 8 → (t.coreAt (512 + d)).c.busy = true ∧ (t.coreAt (512 + d)).c.u.world = 15 ∧ (t.coreAt (512 + d)).c.u.lid = none ∧
        (t.coreAt (512 + d)).c.u.front = .line (Config.dispatchEntry / 32 * 32) false none ∧
        (t.coreAt (512 + d)).c.u.eC.ended = false ∧ ∀ e : Engine, e ≠ .c → ((t.coreAt (512 + d)).c.u.eng e).ended = true)

/-- Device-level faults stop the device and discard its launches -/
def Obligations.DeviceFaults : Prop :=
  ∀ (s : State),
    let faults (i : Instr) : Prop := ∃ t : State, exec i s = .next t ∧ t.dev.stateWord = 2 ∧ t.dev.launches = [] ∧ t.dev.waiting = [] ∧
      t.dev.m = s.dev.m ∧ t.cores = s.cores ∧ t.dev.powered = (if i = .junctionOvertemp then false else s.dev.powered) ∧
      t.dev.port.linkUp = (if i = .hostLinkLoss then false else s.dev.port.linkUp)
    (∃ t : State, exec .hostLinkLoss s = .next t ∧ t.dev.port.linkUp = false) ∧
    faults .uncorrectableError ∧ faults .junctionOvertemp ∧
    ((∃ l ∈ s.dev.launches, l.state ≠ .failed) → faults .hostLinkLoss) ∧
    ((∀ l ∈ s.dev.launches, l.state = .failed) →
      ∃ t : State, exec .hostLinkLoss s = .next t ∧ t.dev.port.linkUp = false ∧ t.dev.stateWord = s.dev.stateWord ∧
        t.dev.launches = s.dev.launches)

/-- Snuffers, partition reset, rotation tests and health -/
def Obligations.ServiceSteps : Prop :=
  (∀ (s : State) (l : Launch), l ∈ s.dev.launches → (∀ x ∈ s.dev.launches, x.lid = l.lid → x = l) → l.state ≠ .failed →
    l.expired = none → s.snuffed l = true →
    s.noteExpired.launch? l.lid = some { l with expired := some (s.snuffReport l) }) ∧
  (∀ (s : State) (lid : Nat) (l : Launch), s.launch? lid = some l → s.inService = true → l.expired.isSome = true →
    (∀ r ∈ s.dev.resetting, r.part ≠ l.part) →
    ∃ t : State, exec (.snufferExpiry lid) s = .next t ∧ t.dev.resetting = s.dev.resetting ++ [⟨l.part, lid⟩]) ∧
  (∀ (s : State) (p : Nat) (x : Snuffed), s.dev.resetting.find? (fun r => r.part == p) = some x → s.dev.stateWord ≠ 2 →
    ∃ t : State, exec (.partitionResetComplete p) s = .next t ∧ t.dev.resetting = s.dev.resetting.filter fun r => r.part != p) ∧
  (∀ (s : State) (n : Nat) (pass : Bool), s.inService = true → s.dev.rot.enabled = true → n < 512 →
    ((s.coreAt n).sys.draining = true ∨ s.periodDue (s.coreAt n).sys.passed = true) →
    (s.coreAt n).sys.enabled = true → (s.coreAt n).sys.fenced = false → s.dieBusy n = false → s.dieDown n = false →
    let drained (at' : Option Nat) : State := s.setCoreAt n { s.coreAt n with
      sys := { (s.coreAt n).sys with draining := true, testAt := at' } }
    (∀ start, (s.coreAt n).sys.testAt = some start → ((s.coreAt n).c.busy = false ∨ (s.coreAt n).sys.draining = true) → ∃ t : State, exec (.rotationCoreTest n pass) s = .next t ∧
      (t.coreAt n).sys.draining = false ∧ (t.coreAt n).sys.testAt = none ∧
      (t.coreAt n).sys.fenced = !pass ∧ (pass = true → (t.coreAt n).sys.passed = start)) ∧
    ((s.coreAt n).sys.testAt = none →
      ((s.coreAt n).c.busy = false → exec (.rotationCoreTest n pass) s = .next (drained (some s.dev.now))) ∧
      ((s.coreAt n).c.busy = true → s.testWaits n = true →
        exec (.rotationCoreTest n pass) s = .next (if (s.coreAt n).sys.draining then drained none else s)) ∧
      ((s.coreAt n).c.busy = true → s.testWaits n = false → (s.coreAt n).mayLeave = false →
        exec (.rotationCoreTest n pass) s = .next (drained none)) ∧
      ((s.coreAt n).mayLeave = true → s.testWaits n = false →
        exec (.rotationCoreTest n pass) s = .next ((drained none).preempt n)))) ∧
  (∀ (s : State) (n q : Nat) (pass : Bool), s.inService = true → s.dev.rot.enabled = true → n < 128 → q < 4 →
    hasQuad (s.lanternAt n).live q = true → s.dieDown (4 * n) = false →
    ((s.lanternAt n).rotWant = none → (∀ t, ((s.lanternAt n).quad q).lastHold = some t → s.periodDue t = true) →
      exec (.rotationQuadrantTest n q pass) s = .next ((s.setLanternAt n { s.lanternAt n with rotWant := some q }).arbiterPass n)) ∧
    ((s.lanternAt n).rotWant = some q → ((s.lanternAt n).quad q).held = true → (s.lanternAt n).waiting = [] →
      ∃ t : State, exec (.rotationQuadrantTest n q pass) s = .next t ∧ ((t.lanternAt n).quad q).held = false ∧
        ((t.lanternAt n).quad q).fenced = (if pass then ((s.lanternAt n).quad q).fenced else true) ∧
        (pass = true → ∀ h, ((s.lanternAt n).quad q).lastHold = some h → ((t.lanternAt n).quad q).passed = h)) ∧
    (∀ h, (s.lanternAt n).rotWant = none → ((s.lanternAt n).quad q).lastHold = some h → s.periodDue h = false →
      ((s.lanternAt n).quad q).restFree = true → ∃ t : State, exec (.rotationQuadrantTest n q pass) s = .next t ∧
        (pass = true → ((t.lanternAt n).quad q) = { (s.lanternAt n).quad q with
          rest := ((s.lanternAt n).quad q).rest.filter ((s.lanternAt n).quad q).rowParked }) ∧
        (pass = false → ((t.lanternAt n).quad q).fenced = true))) ∧
  (∀ (s : State) (k : Nat) (temp : BitVec 16) (power : BitVec 32), s.inService = true → k < 16 →
    ∃ t : State, exec (.healthUpdate k temp power) s = .next t ∧ t.cores = s.cores ∧
      Sparse.get 0 t.dev.health (16 * k) = Sparse.get 0 s.dev.health (16 * k) + 1 ∧
      t.dev.rot = { s.dev.rot with conf := if s.dev.rot.enabled then t.confTime else s.dev.rot.conf } ∧
      ∀ d, d < 8 → let x := Sparse.get Sense.reset s.dev.sense d
        Sparse.get Sense.reset t.dev.sense d = if d = k then
          { x with power := power.toNat, temp := temp.toNat,
                   low := if power.toNat < 456000 ∧ temp.toNat < 1600 then some (x.low.getD s.dev.now) else none } else x)

/-- Clock steps stay between 1,000 and 1,800 MHz; banks are time only; what the fabric delivers -/
def Obligations.ClocksBanksFabric : Prop :=
  (∀ (s : State) (d : Nat), s.dev.powered = true → d < 8 →
    let x := Sparse.get Sense.reset s.dev.sense d
    let hot : Prop := (480000 < x.power ∨ 1680 < x.temp) ∧ ∀ i, x.step = some i → i + 100000000 ≤ s.dev.now
    let cool : Prop := ∃ i, x.low = some i ∧ i + 10000000000 ≤ s.dev.now
    (1000 < s.clockOf d → hot → ∃ t : State, exec (.clockStepDown d) s = .next t ∧
      Sparse.get Sense.reset t.dev.sense d = { x with step := some s.dev.now } ∧
      Sparse.get 1800 t.dev.clock d = max 1000 (s.clockOf d - 50) ∧
      Sparse.get 0 t.dev.throttle d = Sparse.get 0 s.dev.throttle d + 1 ∧ t.cores = s.cores ∧ t.dev.m = s.dev.m) ∧
    (s.clockOf d ≤ 1000 ∨ ¬hot → exec (.clockStepDown d) s = .next s) ∧
    (¬cool → exec (.clockStepUp d) s = .next s) ∧
    (cool → ∃ t : State, exec (.clockStepUp d) s = .next t ∧
      Sparse.get Sense.reset t.dev.sense d = { x with low := some s.dev.now } ∧ Sparse.get 1800 t.dev.clock d = min 1800 (s.clockOf d + 50) ∧
      t.cores = s.cores ∧ t.dev.m = s.dev.m)) ∧
  (∀ (s : State) (n b : Nat), exec (.bankDrowsy n b) s = .next s ∧ exec (.bankPowerGated n b) s = .next s) ∧
  (∀ (s : State) (id : Bytes), ∃ t : State, exec (.fabricLinkUp id) s = .next t ∧ t.cores = s.cores ∧ t.dev.m = s.dev.m ∧
    t.dev.sec.peers = if id ∈ s.dev.sec.peers then s.dev.sec.peers else s.dev.sec.peers ++ [id]) ∧
  (∀ (s : State) (a : Nat) (data : Bytes) (k mk : KeyId), s.inService = true →
    let rb := data.take 64
    let len := fieldOf rb 4 4
    let opened := gcmOpen k (fieldOf rb 8 12) rb ((data.drop 64).take (len + 16))
    s.groupKeys (fieldOf rb 0 2) = some (k, mk) → fieldOf rb 2 1 = 2 → fieldOf rb 3 1 < 2 → 1 ≤ len → len ≤ 4096 →
    (opened = none → exec (.fabricGroupArrival a data) s = .next s) ∧
    (∀ p, opened = some p → a + len ≤ memTop + 1 →
      ∃ t : State, exec (.fabricGroupArrival a data) s = .next t ∧ t.cores = s.cores ∧
        (fieldOf rb 3 1 = 0 → t.dev.m = (s.dev.m.put mk a (fit len p)).repair a (fit len p).length) ∧
        (fieldOf rb 3 1 = 1 → t.dev.m.mem = s.dev.m.mem)))

/-- Requests on partitions, queues, slices, dies, rotation, recording and replay: effects and results -/
def Obligations.PartitionRequests : Prop :=
  (∀ (s : State) (base slice h : Nat), s.inService = true →
    s.anyPoisoned (s.listReads s.dev.anchor s.dev.mgmtFirst s.dev.mgmt 256) = true →
    ∀ i ∈ [Instr.setPartition, .setQueue, .resizePartition, .mapDataSlice slice base h, .dieOffline, .rotation, .recordMode, .replay,
      .installKey, .removeKey, .createWorld, .destroyWorld, .setRoster, .attest, .debugUnlock, .cacheEntrySeal, .cacheEntryOpen],
      exec i s = .next s.deviceFault) ∧
  ∀ (s : State) (a : Nat) (r : Bytes), s.request? = some (a, r) →
    s.anyPoisoned (s.listReads s.dev.anchor s.dev.mgmtFirst s.dev.mgmt 256) = false →
    let completes (i : Instr) (u : State) (n : Nat) : Prop :=
      exec i s = .next ((u.modMem fun m => m.put (s.keyAt a) (a + 12) (natLe 4 n)).modDev fun d => { d with mgmt := a })
    let f := fieldOf r
    let code := f 8 2
    (code = 0x10 → f 16 1 < 16 → f 17 1 < 8 →
      (f 20 4 = 0 ∨ (100 ≤ f 20 4 ∧ f 20 4 ≤ 100000) →
        (s.maskTaken (f 16 1) (f 32 16) = true → completes .setPartition s 1) ∧
        (s.maskTaken (f 16 1) (f 32 16) = false →
          (s.partRuns (f 16 1) = true → completes .setPartition s 2) ∧
          (s.partRuns (f 16 1) = false →
            let new : Part := ⟨f 32 16, f 17 1, if f 20 4 = 0 then 2000 else f 20 4⟩
            completes .setPartition (s.modDev fun d => { d with parts := Sparse.set none d.parts (f 16 1) (some new) }) 0))) ∧
      ((f 20 4 ≠ 0 ∧ (f 20 4 < 100 ∨ 100000 < f 20 4)) → completes .setPartition s 3)) ∧
    (code = 0x11 → f 16 1 < 16 → f 17 1 < 16 → f 18 1 < 4 → f 19 1 < 15 →
      (100 ≤ f 24 8 → f 24 8 ≤ 3600000000 → completes .setQueue (s.setQueue (f 16 1) (f 17 1)
        { s.queue (f 16 1) (f 17 1) with
          prio := f 18 1, world := f 19 1, enabled := f 20 1 != 0, msix := f 21 1, limit := f 24 8 }) 0) ∧
      (f 24 8 < 100 ∨ 3600000000 < f 24 8 → completes .setQueue s 1)) ∧
    (∀ x, code = 0x12 → s.part? (f 16 1) = some x →
      (s.maskTaken (f 16 1) (f 32 16) = true → completes .resizePartition s 1) ∧
      (s.maskTaken (f 16 1) (f 32 16) = false → (∀ l ∈ s.dev.launches, l.part ≠ f 16 1) → s.dev.saves = [] →
        let new := { x with mask := f 32 16 }
        completes .resizePartition (s.modDev fun d => { d with parts := Sparse.set none d.parts (f 16 1) (some new) }) 0)) ∧
    (∀ slice base h k, code = 0x13 → s.sliceKey h = some k → slice < 64 → base % 2 ^ 30 = 0 → base + 2 ^ 30 ≤ memTop + 1 →
      let slices := Sparse.set none s.dev.port.slices slice (some (base, k))
      completes (.mapDataSlice slice base h) (s.modDev fun d => { d with port := { d.port with slices := slices } }) 0) ∧
    (code = 0x30 →
      (s.dev.evac = none → 12 ≤ f 16 1 → completes .dieOffline s 3) ∧
      (s.dev.evac = none → f 16 1 < 12 → s.dev.parts = [] →
        let room := ((s.otherSockets (f 16 1)).map (s.roomOn s.framesUsed)).sum
        (f 17 1 = 0 → room < (s.framesLeft (f 16 1) []).length → completes .dieOffline s 1) ∧
        (f 17 1 = 1 ∨ (f 17 1 = 0 ∧ (s.framesLeft (f 16 1) []).length ≤ room) →
        exec .dieOffline s = .next (s.modDev fun d => { d with evac := some (f 16 1, []) }))) ∧
      ∀ k bad, s.dev.evac = some (k, bad) →
        (∀ x xs, s.framesLeft k bad = x :: xs → ∃ t : State, exec .dieOffline s = .next t ∧ t.cores = s.cores ∧
          t.dev.launches = s.dev.launches ∧ t.dev.m.mem = s.dev.m.mem ∧
          let goes (i : Nat) : Prop := i ∈ s.otherSockets k ∧ 0 < s.roomOn s.framesUsed i
          ((∃ i, goes i) → goes (t.dev.m.homeOf (x * 65536)) ∧ t.dev.evac = some (k, bad)) ∧
          ((∀ i, ¬goes i) → t.dev.evac = some (k, bad ++ [x]) ∧
            ∀ j, j < 2048 → Sparse.get false t.dev.m.poison (x * 65536 + 32 * j) = true)) ∧
        (s.framesLeft k [] = [] → bad = [] → ∃ u : State, completes .dieOffline u 0 ∧ u.dev.m.offline = s.dev.m.offline ||| 2 ^ k ∧
          u.dev.evac = none ∧ u.cores = s.cores ∧ u.dev.launches = s.dev.launches)) ∧
    (code = 0x31 → 1 ≤ f 20 4 → f 20 4 ≤ 1000 → f 32 4 ∈ [4, 8, 16, 32, 64, 128, 256, 512, 1024, 2048, 4096] → f 24 8 = 0 →
      completes .rotation (s.modDev fun d => { d with rot := { d.rot with
        enabled := f 16 1 != 0, period := f 20 4, ring := 0, count := f 32 4 } }) 0) ∧
    (code = 0x32 →
      (f 16 1 = 0 → completes .recordMode (s.modDev fun d => { d with recm := { d.recm with enabled := false } }) 0) ∧
      (f 16 1 ≠ 0 → completes .recordMode
        ((s.poke (f 24 8) (natLe 8 16 ++ natLe 8 0)).modDev fun d => { d with recm := ⟨true, f 24 8, f 32 8, 16, false⟩ }) 0)) ∧
    (code = 0x33 →
      let used := fieldOf (s.peek (f 24 8) 16) 0 8
      let es := s.logOf (f 24 8) used (f 32 8)
      (s.dev.m.poisoned Stage.empty (f 24 8) 16 = true → exec .replay s = .next s.deviceFault) ∧
      (s.dev.m.poisoned Stage.empty (f 24 8) 16 = false → s.dev.m.poisoned Stage.empty (f 24 8 + 16) (used - 16) = false →
        (es = [] → completes .replay s 1) ∧
        (∀ e1 e2 l, es.reverse.find? (fun e => e.2.1 == 1) = some e1 → (sinceRecord es).find? (fun e => e.2.1 == 2) = some e2 →
          parseLaunch e1.2.2.2 (s.queue (f 16 1) (f 17 1)).world (f 16 1) (f 17 1) = some l →
          s.dev.m.poisoned Stage.empty (xferRange e1.2.2.2).1 (xferRange e1.2.2.2).2 = false →
          let cores := (List.range l.n).map fun i => fieldOf e2.2.2.2 (2 * i) 2
          let loops := ((sinceRecord es).filter fun e => e.2.1 == 3).map fun e =>
            (fieldOf e.2.2.2 0 4, fieldOf e.2.2.2 4 8, (e.2.2.2.drop 12).take 64)
          let xs := (s.xfersOf e1.2.2.2).getD []
          let die := s.homeDie (f 16 1)
          (∀ n ∈ cores, (s.coreAt n).sys.fenced = false ∧ ∃ x, s.part? (f 16 1) = some x ∧ x.has (n / 4) = true) →
          (∀ x ∈ s.dev.launches, x.lid ≠ l.lid) → s.dev.cancelled l = false →
          (64 < s.boardUsed die + 1 + xs.length → exec .replay s = .next s) ∧
          (s.boardUsed die + 1 + xs.length ≤ 64 → ∃ u : State, completes .replay u 0 ∧ u.cores = s.cores ∧
            u.dev.launches = s.dev.launches ++
              [{ l with dup := false, log := false, die := die, replay := some cores, loops := loops }] ∧
            u.dev.board = s.dev.board ++ xs.map fun x => ⟨die, some l.lid, x⟩)))) ∧
    (knownCode code = false → completes .unknownRequest s 0xFFFFFFFE)

/-- Requests on keys, worlds, rosters, reports, unlocks and cache entries: effects and results -/
def Obligations.SecurityRequests : Prop :=
  ∀ (s : State) (a : Nat) (r : Bytes), s.request? = some (a, r) →
    s.anyPoisoned (s.listReads s.dev.anchor s.dev.mgmtFirst s.dev.mgmt 256) = false →
    let completes (i : Instr) (u : State) (n : Nat) : Prop :=
      exec i s = .next ((u.modMem fun m => m.put (s.keyAt a) (a + 12) (natLe 4 n)).modDev fun d => { d with mgmt := a })
    let f := fieldOf r
    let code := f 8 2
    let sec (g : Security → Security) : State := s.modDev fun d => { d with sec := g d.sec }
    -- what a request reads of the payload it names, which must not be poisoned
    let poisoned (o n : Nat) : Prop := s.dev.m.poisoned Stage.empty (f 24 8 + o) n = true
    let faults (i : Instr) : Prop := exec i s = .next s.deviceFault
    (code = 0x26 → poisoned 0 640 → faults .debugUnlock) ∧
    (code = 0x27 → poisoned 0 256 → (f 16 1 = 0 → faults .cacheEntrySeal) ∧ (f 16 1 = 1 → faults .cacheEntryOpen)) ∧
    (∀ x, code = 0x24 → s.world? (f 16 1) = some x → f 17 1 ≤ 64 → poisoned 0 (1344 * f 17 1) → faults .setRoster) ∧
    (code = 0x21 → f 16 2 < 0xFFF → f 18 1 < 16 → (∀ k ∈ s.dev.sec.keys, k.handle ≠ f 16 2) → poisoned 0 512 → faults .installKey) ∧
    (code = 0x21 → f 16 2 < 0xFFF → f 18 1 < 16 →
      ((∃ k ∈ s.dev.sec.keys, k.handle = f 16 2) → completes .installKey s 1) ∧
      ((∀ k ∈ s.dev.sec.keys, k.handle ≠ f 16 2) → ¬poisoned 0 512 →
        let blob := Config.oaep ((r.drop 16).take 4) (s.peek (f 24 8) 512)
        (blob = none → completes .installKey s 2) ∧
        (∀ k, blob = some k → k.length = 32 → ∃ u : State, completes .installKey u 0 ∧
          u.dev.sec.keys = s.dev.sec.keys ++ [⟨f 16 2, f 18 1, .ofNat (leNat k), 0⟩] ∧ u.dev.m = s.dev.m))) ∧
    (code = 0x22 →
      (s.keyUsed (f 16 2) = true → completes .removeKey s 1) ∧
      (s.keyUsed (f 16 2) = false → (∃ k ∈ s.dev.sec.keys, k.handle = f 16 2) →
        completes .removeKey (sec fun c => { c with keys := c.keys.filter fun k => k.handle != f 16 2 }) 0)) ∧
    (code = 0x20 → f 16 1 < 15 →
      (f 17 1 = 1 → s.dev.sec.unlocked ≠ 0 → completes .createWorld s 3) ∧
      (f 17 1 ≠ 1 ∨ s.dev.sec.unlocked = 0 →
        (s.world? (f 16 1) ≠ none → completes .createWorld s 1) ∧
        (∀ k, s.world? (f 16 1) = none → (f 20 2 = 0xFFF ∨ s.keyFor (f 16 1) (f 20 2) ≠ none) →
          (if f 18 2 = 0xFFF then f 17 1 ≠ 1 ∧ k = KeyId.default else s.keyFor (f 16 1) (f 18 2) = some k) →
          let new : World := ⟨f 17 1 == 1, k, f 18 2, f 20 2, f 24 8, []⟩
          completes .createWorld (sec fun c =>
            let worlds := Sparse.set none c.worlds (f 16 1) (some new)
            let floor := Sparse.set 0 c.floor (f 16 1) (Sparse.get 0 c.saveCnt (f 16 1))
            let bar := Sparse.set 0 c.bar (f 16 1) (Sparse.get 0 c.saveCnt (f 16 1) + 1)
            { c with worlds := worlds, floor := floor, bar := bar }) 0))) ∧
    (code = 0x23 → f 16 1 < 15 →
      ((∃ l ∈ s.dev.launches, l.world = f 16 1 ∧ l.state ≠ .failed) → completes .destroyWorld s 1) ∧
      ((∀ l ∈ s.dev.launches, l.world = f 16 1 → l.state = .failed) → ∃ u : State, completes .destroyWorld u 0 ∧
        u.world? (f 16 1) = none ∧ (∀ k ∈ u.dev.sec.keys, k.world ≠ f 16 1) ∧ u.unlocked (f 16 1) = false ∧
        (∀ n, ∀ e ∈ (u.coreAt n).sys.tlb, e.world ≠ f 16 1) ∧ u.dev.m = s.dev.m)) ∧
    (∀ x, code = 0x24 → s.world? (f 16 1) = some x → f 17 1 ≤ 64 →
      let es := (List.range (f 17 1)).map fun i => ((s.peek (f 24 8) (1344 * f 17 1)).drop (1344 * i)).take 1344
      ¬poisoned 0 (1344 * f 17 1) → (∀ e ∈ es, s.entryOk e = true) →
        let new := { x with roster := es.map fun e => Config.sha512 (e.take 512) }
        completes .setRoster (sec fun c => { c with worlds := Sparse.set none c.worlds (f 16 1) (some new) }) 0) ∧
    (code = 0x25 → f 16 1 < 16 → ∃ u : State, completes .attest u 0 ∧ u.dev.sec.reports = s.dev.sec.reports + 1 ∧
      u.cores = s.cores ∧ u.dev.launches = s.dev.launches) ∧
    (code = 0x26 →
      let t := s.peek (f 24 8) 640
      let ok := s.pssOk Config.debugKey (t.take 128) (t.drop 128) && (t.drop 16).take 64 == fit 64 Config.devid
      (¬poisoned 0 640 → ok = false → completes .debugUnlock s 1) ∧
      (¬poisoned 0 640 → ok = true → fieldOf t 8 8 ≤ s.dev.sec.serial → completes .debugUnlock s 2) ∧
      (¬poisoned 0 640 → ok = true → s.dev.sec.serial < fieldOf t 8 8 → fieldOf t 0 4 = 0x44425531 → fieldOf t 4 2 = 0 →
        completes .debugUnlock (sec fun c => { c with serial := fieldOf t 8 8, unlocked := 0 }) 0)) ∧
    (code = 0x27 →
      let h := s.peek (f 24 8) 256
      let n := fieldOf h 144 8
      (¬poisoned 0 256 → ¬poisoned 256 n → f 16 1 = 0 → n % 32 = 0 → 256 + n + 16 ≤ f 32 8 → ∃ u : State, completes .cacheEntrySeal u 0 ∧
        u.dev.sec.iv = s.dev.sec.iv + 1 ∧ u.cores = s.cores) ∧
      (¬poisoned 0 256 → ¬poisoned 256 (n + 16) → f 16 1 = 1 → fieldOf h 0 4 = 0x58454301 → fieldOf h 4 2 = 1 → 256 + n + 16 ≤ f 32 8 →
        (h.drop 80).take 64 = fit 64 Config.devid →
        let p := gcmOpen .cache (fieldOf h 152 12) h (s.peek (f 24 8 + 256) (n + 16))
        (p = none → completes .cacheEntryOpen s 3) ∧
        (∀ b, p = some b → completes .cacheEntryOpen (s.poke (f 24 8 + 256) (fit n b)) 0))) ∧
    ∀ (k : KeyId) (iv : Nat) (h p : Bytes), gcmOpen k iv h (gcmSeal k iv h p) = some p

/-- Address arithmetic: results, the bound register and the limits of ASHL -/
def Obligations.AccessArithmetic : Prop :=
  ∀ (s : State) (ad : AReg) (s1 s2 : ASrc) (xs : CSrc) (imm : Imm 12) (big : Imm 19),
    let a := s.valA s1
    let b := s.valA s2
    let i : BitVec 32 := BitVec.ofInt 32 (immS imm)
    let done (v : BitVec 32) : Outcome State Fault Refusal :=
      .next ((s.modA fun x => { x with a := Sparse.set 0 x.a ad.toNat v, lat := (v :: x.lat).take 4 }).advance .a)
    let refused (j : Instr) (c : Cause) : Prop := exec j s = .next (s.takeTrap .a c 0 0 (s.laneAt .a))
    (s.strideBound ad.toNat = false →
      (s.ReadyA [s1, s2] →
        exec (.aadd ad s1 s2) s = done (a + b) ∧ exec (.amul ad s1 s2) s = done (a * b) ∧
        exec (.aand ad s1 s2) s = done (a &&& b) ∧ exec (.ashl ad s1 s2) s = done (a <<< (b.toNat % 32))) ∧
      (s.ReadyA [s1] →
        exec (.aaddImm ad s1 imm) s = done (a + i) ∧ exec (.amulImm ad s1 imm) s = done (a * i) ∧
        exec (.aandImm ad s1 imm) s = done (a &&& i) ∧ exec (.amov ad s1) s = done a ∧
        (0 ≤ immS imm → immS imm ≤ 31 → exec (.ashlImm ad s1 imm) s = done (a <<< (immS imm).toNat))) ∧
      (s.ReadyX .a [xs] → exec (.amovCtrl ad xs) s = done (((s.view .a).x xs.toNat).setWidth 32)) ∧
      exec (.ali ad big) s = done (BitVec.ofInt 32 (immS big))) ∧
    (s.strideBound ad.toNat = true → s.ReadyA [s1, s2] →
      refused (.aadd ad s1 s2) .seqStrideWrite ∧ refused (.amov ad s1) .seqStrideWrite ∧ refused (.ali ad big) .seqStrideWrite) ∧
    (immS imm < 0 ∨ 31 < immS imm → refused (.ashlImm ad s1 imm) .immediateRange) ∧
    ((32 ≤ s1.toNat ∧ s.core.a.lat.length ≤ s1.toNat - 32) ∨ (32 ≤ s2.toNat ∧ s.core.a.lat.length ≤ s2.toNat - 32) →
      refused (.aadd ad s1 s2) .latchEmpty)

/-- ARD, AWR, ARDG and AWRS: elements between scratchpad and queues -/
def Obligations.ScratchpadElements : Prop :=
  ∀ (s : State) (q qi : QReg) (s1 : ASrc) (off : Imm 15) (ew : BitVec 2), s.ReadyA [s1] → s.overA = false →
    s.qbind q.toNat = none → s.qbind qi.toNat = none →
    let size := s.vlanes * 4
    let a := (s.valA s1 + BitVec.ofInt 32 (immS off)).toNat
    let base := (s.valA s1).toNat
    (a % 64 = 0 → a + size ≤ 0x1F0000 →
      (∀ f : Byte, fmtOk f.toNat = true → (∀ j, j < size / 64 → (s.desc (a / 64 + j)).fmt = f) →
        exec (.ard q s1 off) s = if (s.queueOf q.toNat).length < 16
          then .next ((s.pushQ q.toNat ⟨f, (((List.range (size / 64)).map fun j => (s.desc (a / 64 + j)).scale) ++
            List.replicate 4 0x7F).take 4, padData (Memory.reads s.core.spad a size)⟩).advance .a)
          else .next s) ∧
      (s.queueOf q.toNat = [] → exec (.awr q s1 off) s = .next s) ∧
      (∀ e rest, s.queueOf q.toNat = e :: rest → e.data.length = 256 →
        ∃ t : State, exec (.awr q s1 off) s = .next (t.advance .a) ∧ t.queueOf q.toNat = rest ∧ t.u = s.u ∧ t.dev = s.dev ∧
          Memory.reads t.core.spad a size = e.data.take size ∧
          (∀ x, x < a ∨ a + size ≤ x → Memory.read t.core.spad x = Memory.read s.core.spad x) ∧
          (∀ j, j < size / 64 → t.desc (a / 64 + j) = ⟨e.fmt, e.scales.getD j 0x7F⟩) ∧
          (∀ j, j < a / 64 ∨ a / 64 + size / 64 ≤ j → t.desc j = s.desc j))) ∧
    (∀ x rest (d : Desc), s.queueOf qi.toNat = x :: rest → x.fmt = 4 →
      let w := 8 * 2 ^ ew.toNat
      let n := min (s.vlanes * 32 / 32) (s.vlanes * 32 / w)
      let ix (k : Nat) : Nat := x.lane 32 k
      base % (w / 8) = 0 → fmtOk d.fmt.toNat = true → narrow d.fmt.toNat = false → fmtWidth d.fmt.toNat = w →
      (∀ k, k < n → ix k ≠ 0xFFFFFFFF → base + ix k * (w / 8) + w / 8 ≤ 0x1F0000 ∧ s.desc ((base + ix k * (w / 8)) / 64) = d) →
      (∃ k, k < n ∧ ix k ≠ 0xFFFFFFFF) → (s.queueOf q.toNat).length < 16 →
      exec (.ardg q s1 qi ew) s = .next (((s.popQ qi.toNat).pushQ q.toNat (mkElem d.fmt (s.fitScales (List.replicate 4 d.scale)) w
        ((List.range n).map fun k => if ix k = 0xFFFFFFFF then 0
          else leNat (Memory.reads s.core.spad (base + ix k * (w / 8)) (w / 8))))).advance .a)) ∧
    (∀ x xs e es, s.queueOf qi.toNat = x :: xs → s.queueOf q.toNat = e :: es → x.fmt = 4 → narrow e.fmt.toNat = false →
      let w := fmtWidth e.fmt.toNat
      let n := min (s.vlanes * 32 / 32) (s.vlanes * 32 / w)
      let ix (k : Nat) : Nat := x.lane 32 k
      base % (w / 8) = 0 → (∀ k, k < n → ix k ≠ 0xFFFFFFFF → base + ix k * (w / 8) + w / 8 ≤ 0x1F0000) →
      ∃ t : State, exec (.awrs s1 q qi) s = .next (((t.popQ q.toNat).popQ qi.toNat).advance .a) ∧ t.core.a = s.core.a ∧ t.u = s.u ∧
        t.dev = s.dev ∧
        (∀ k, k < n → ix k ≠ 0xFFFFFFFF → (∀ j, k < j → j < n → ix j ≠ ix k) →
          Memory.reads t.core.spad (base + ix k * (w / 8)) (w / 8) = natLe (w / 8) (e.lane w k) ∧
          (t.desc ((base + ix k * (w / 8)) / 64)).fmt = e.fmt) ∧
        (∀ y, (∀ k, k < n → ix k ≠ 0xFFFFFFFF → y < base + ix k * (w / 8) ∨ base + ix k * (w / 8) + w / 8 ≤ y) →
          Memory.read t.core.spad y = Memory.read s.core.spad y))

/-- ASTREAM, AUNBIND and the elements that a stream moves -/
def Obligations.ElementStreams : Prop :=
  (∀ (s : State) (q : QReg) (n : BitVec 6) (lv : BitVec 2), s.qbind q.toNat = none →
    let r (i : Nat) : BitVec 32 := s.readA (n.toNat + i)
    let cs := (List.range 4).map fun i => if i ≤ lv.toNat then (r (1 + i)).toNat else 1
    let ss := (List.range 4).map fun i => if i ≤ lv.toNat then (r (5 + i)).toInt else 0
    let base := (r 0).toNat
    let total := cs.foldl (· * ·) 1
    let edge (up : Bool) : Int := (List.range 4).foldl (fun m i =>
      let d := ((cs.getD i 1 : Int) - 1) * ss.getD i 0
      m + (if up then max 0 d else min 0 d)) base
    base % 64 = 0 → (∀ x ∈ ss, x % 64 = 0) →
    (total = 0 → exec (.astream q n lv) s = .next (s.advance .a)) ∧
    (total ≠ 0 → 0 ≤ edge false → edge true + s.vlanes * 4 ≤ 0x1F0000 →
      exec (.astream q n lv) s = .next ((s.setQbind q.toNat (some (.stream ⟨base, cs, ss, 0, total, s.laneAt .a⟩))).advance .a)) ∧
    (total ≠ 0 → edge false < 0 ∨ 0x200000 < edge true + s.vlanes * 4 →
      exec (.astream q n lv) s = .next (s.takeTrap .a .scratchpadRange (BitVec.ofNat 64 base) 0 (s.laneAt .a)))) ∧
  (∀ (s : State) (core : Nat) (q : QReg) (p : Stream),
    let t := s.focus core
    let a := p.addr p.next
    let size := t.vlanes * 4
    let rest : Option QBind := if p.next + 1 < p.total then some (.stream { p with next := p.next + 1 }) else none
    t.qbind q.toNat = some (.stream p) → t.accessRuns = true →
    (q.toNat < 4 → (t.queueOf q.toNat).length < 16 →
      (∀ f : Byte, fmtOk f.toNat = true → (∀ j, j < size / 64 → (t.desc (a / 64 + j)).fmt = f) →
        exec (.streamLoadElement core q) s = .next ((t.pushQ q.toNat ⟨f, (((List.range (size / 64)).map fun j =>
          (t.desc (a / 64 + j)).scale) ++ List.replicate 4 0x7F).take 4,
          padData (Memory.reads t.core.spad a size)⟩).setQbind q.toNat rest)) ∧
      ((∃ j, j < size / 64 ∧ fmtOk (t.desc (a / 64 + j)).fmt.toNat = false) →
        exec (.streamLoadElement core q) s = .next ((t.setQbind q.toNat none).pendTrap .a .reservedFormat 0 p.lane))) ∧
    (∀ e es, 4 ≤ q.toNat → t.queueOf q.toNat = e :: es →
      exec (.streamStoreElement core q) s = .next (((t.popQ q.toNat).writeElem false a e).setQbind q.toNat rest))) ∧
  (∀ (p : Stream) (i0 i1 i2 i3 c0 c1 c2 c3 : Nat) (s0 s1 s2 s3 : Int), p.counts = [c0, c1, c2, c3] → p.strides = [s0, s1, s2, s3] →
    i0 < c0 → i1 < c1 → i2 < c2 → i3 < c3 →
    0 ≤ (p.base : Int) + i0 * s0 + i1 * s1 + i2 * s2 + i3 * s3 →
    (p.base : Int) + i0 * s0 + i1 * s1 + i2 * s2 + i3 * s3 < 0x200000 →
    (p.addr (i0 + c0 * (i1 + c1 * (i2 + c2 * i3))) : Int) = p.base + i0 * s0 + i1 * s1 + i2 * s2 + i3 * s3) ∧
  (∀ (s : State) (q : QReg),
    (s.qbind q.toNat = none → exec (.aunbind q) s = .next (s.advance .a)) ∧
    (s.qbind q.toNat = some .gath → exec (.aunbind q) s = .next (s.takeTrap .a .queueBound 0 0 (s.laneAt .a))) ∧
    (∀ p, s.qbind q.toNat = some (.stream p) →
      (q.toNat < 4 ∨ (s.queueOf q.toNat = [] ∧ s.pending .v (s.u.eng .a).pos = []) →
        exec (.aunbind q) s = .next ((s.setQbind q.toNat none).advance .a)) ∧
      (4 ≤ q.toNat → s.queueOf q.toNat ≠ [] → exec (.aunbind q) s = .next s)))

/-- ATILE, APLN, AUNPLN, ACB, ACB.get and ACBREL -/
def Obligations.TileSlotsAndBuffers : Prop :=
  (∀ (s : State) (ts : TsReg) (cb : CbReg) (s1 s2 : ASrc) (fmt : BitVec 7) (size : BitVec 4), s.ReadyA [s1, s2] →
    let base := (s.valA s1).toNat
    let g := (s.valA s2).toNat
    let c := fmt.toNat
    let rows := g % 512
    let cols := g / 512 % 512
    let plane := g / 2 ^ 18 % 2 == 1
    let p := if c = 10 then 1 else fmtPlanes c
    let bytes := if plane then (32 * rows * p + 2 * rows * cols + 63) / 64 * 64 else rows * (64 * ((cols + fmtCap c - 1) / fmtCap c))
    (g = 0 → c = 0 → exec (.atile ts s1 s2 fmt) s = .next ((s.write .a (.ts ts.toNat none)).advance .a)) ∧
    (base % 64 = 0 → fmtOk c = true → (plane = true → c ≠ 0) → g < 2 ^ 19 → rows ∈ (List.range 33).map (8 * ·) → rows ≠ 0 →
      cols ∈ (List.range 33).map (8 * ·) → cols ≠ 0 → base + bytes ≤ 0x1F0000 →
      exec (.atile ts s1 s2 fmt) s = .next ((s.write .a (.ts ts.toNat
        (some ⟨base, rows, cols, fmt.setWidth 8, plane, if plane then p else 0⟩))).advance .a)) ∧
    ((∀ b k, (s.view .a).buf cb.toNat = some b → s.cbCount cb.toNat b = some k → k.free = b.count) →
      (g = 0 → size = 0 →
        exec (.acb cb s1 s2 size) s = .next ((s.write .a (.cb cb.toNat none)).advance .a)) ∧
      (base % 64 = 0 → 2 ≤ g → g ≤ 256 → size.toNat ≤ 10 → base + g * (64 * 2 ^ size.toNat) ≤ 0x1F0000 →
        let b : Buf := ⟨base, 64 * 2 ^ size.toNat, g, s.bufGen cb.toNat⟩
        exec (.acb cb s1 s2 size) s = .next (((s.write .a (.cb cb.toNat (some b))).setCbCount cb.toNat b ⟨g, 0, 0, 0, 0⟩).advance .a) ∧
          s.cbCount cb.toNat b = none)) ∧
    (∀ b k, (s.view .a).buf cb.toNat = some b → s.cbCount cb.toNat b = some k → k.free ≠ b.count →
      (g = 0 → size = 0 → exec (.acb cb s1 s2 size) s = .next (s.takeTrap .a .bufferBusy 0 0 (s.laneAt .a))))) ∧
  (∀ (s : State) (cb : CbReg) (ad : AReg) (b : Buf) (k : BufCount),
    (s.view .a).buf cb.toNat = some b → s.cbCount cb.toNat b = some k →
    (s.strideBound ad.toNat = false →
      (k.filled = 0 → exec (.acbGet ad cb) s = .next s) ∧
      (0 < k.filled →
        let v := BitVec.ofNat 32 (b.base + k.take * b.size)
        let u := s.modA fun x => { x with a := Sparse.set 0 x.a ad.toNat v, lat := (v :: x.lat).take 4 }
        let k' := { k with filled := k.filled - 1, take := (k.take + 1) % b.count }
        exec (.acbGet ad cb) s = .next ((u.setCbCount cb.toNat b k').advance .a))) ∧
    (k.free + k.filled + s.fillsIn cb.toNat b < b.count →
      let k' := { k with rel := (k.rel + 1) % b.count, free := k.free + 1 }
      exec (.acbRel cb) s = .next ((s.setCbCount cb.toNat b k').advance .a)) ∧
    (b.count ≤ k.free + k.filled + s.fillsIn cb.toNat b →
      exec (.acbRel cb) s = .next (s.takeTrap .a .bufferRelease 0 0 (s.laneAt .a)))) ∧
  (∀ (s : State) (td ts : TsReg) (rm : BitVec 3) (d x : Tile), s.overA = false →
    (s.view .a).tile td.toNat = some d → (s.view .a).tile ts.toNat = some x → d.rows = x.rows → d.cols = x.cols → d.fmt = x.fmt →
    x.cols ≤ 256 → (d.base + d.bytes ≤ x.base ∨ x.base + x.bytes ≤ d.base) →
    let f := x.fmt.toNat
    let leaves (i : Instr) (t : State) : Prop := exec i s = .next (t.advance .a) ∧ t.core.a = s.core.a ∧ t.u = s.u ∧ t.dev = s.dev ∧
      (∀ y, y < d.base ∨ d.base + d.bytes ≤ y → Memory.read t.core.spad y = Memory.read s.core.spad y)
    (d.plane = true → x.plane = false → fmtOk f = true → f ≠ 8 → (∀ y ∈ x.blocks, (s.desc (y / 64)).fmt = x.fmt) →
      ∃ t : State, leaves (.apln td ts) t ∧ ∀ k j, k < x.rows → j < x.cols →
        let m := sideOf f (s.desc (x.blockAt k j / 64)).scale.toNat ((s.tileElem x k j).getD (.fin false 0 0, false))
        t.getPlanes d k j = (m.1 % 2 ^ d.planes, m.2)) ∧
    (d.plane = false → x.plane = true → rm.toNat ≤ 5 → f ∉ [8, 9, 10] →
      (∀ k j, k < x.rows → j < x.cols → (s.getPlanes x k j).2 % 2 ^ 15 ≠ 0x7FFF) →
      ∃ t : State, leaves (.aunpln td ts rm) t ∧ ∀ k j, k < x.rows → j < x.cols →
        t.desc (d.blockAt k j / 64) = ⟨x.fmt, 0x7F⟩ ∧
        laneOf (t.spad (d.blockAt k j) 64) (fmtWidth f) (d.slotAt j) =
          (convert (sideVal (s.getPlanes x k j)) 127 f 127 rm.toNat 0).1 % 2 ^ fmtWidth f))

/-- Vector arithmetic, shifts, bits, functions and reductions: results, flags, generator, completion -/
def Obligations.VectorArithmetic : Prop :=
  ∀ (s : State) (vd : VDst) (vs1 vs2 vs3 : VSrc) (rm : BitVec 3), s.Room vd →
    let a := s.valV vs1
    let b := s.valV vs2
    let c := a.fmt.toNat
    let w := fmtWidth c
    let r := rm.toNat
    let x (k : Nat) : Nat := a.lane w k
    let y (k : Nat) : Nat := b.lane w k
    let rnd (k : Nat) : Nat := rndOf (if r = 6 then nextGen s.core.v.gen else s.core.v.gen) k
    let res (f : Nat → Nat × Nat) : Elem := mkElem a.fmt a.scales w (s.resultLanes vd c f)
    let plain (i : Instr) (srcs : List VSrc) (f : Nat → Nat × Nat) : Prop :=
      exec i s = .next (s.wrote srcs vd (res f) (s.resultFlags c f))
    let rounds (i : Instr) (srcs : List VSrc) (f : Nat → Nat × Nat) : Prop :=
      exec i s = .next ((s.drew r (fmtF c)).wrote srcs vd (res f) (s.resultFlags c f))
    let int2 (op : Int → Int → Int) (k : Nat) : Nat × Nat := (wrapBits w (op (intOf c (x k)) (intOf c (y k))), 0)
    (∀ k, s.active c k = true ↔ k < s.curShape.gvl.toNat ∧ k < s.vlanes * 32 / w ∧
      ∀ m ∈ s.core.v.mask.head?, m.getLsbD k = true) ∧
    (s.ReadyV [vs1, vs2] → b.fmt = a.fmt → (fmtI c = true ∨ fmtF c = true) →
      (r ≠ 7 →
        rounds (.vadd vd vs1 vs2 rm) [vs1, vs2] (fun k => if fmtI c then int2 (· + ·) k else floatAdd c r (rnd k) (x k) (y k)) ∧
        rounds (.vsub vd vs1 vs2 rm) [vs1, vs2] (fun k => if fmtI c then int2 (· - ·) k else floatSub c r (rnd k) (x k) (y k)) ∧
        rounds (.vmul vd vs1 vs2 rm) [vs1, vs2] (fun k => if fmtI c then int2 (· * ·) k else floatMul c r (rnd k) (x k) (y k)) ∧
        (fmtF c = true → rounds (.vdiv vd vs1 vs2 rm) [vs1, vs2] (fun k => floatDiv c r (rnd k) (x k) (y k))) ∧
        (s.ReadyV [vs3] → (s.valV vs3).fmt = a.fmt →
          let z := s.valV vs3
          let f (k : Nat) : Nat × Nat := if fmtI c
            then (wrapBits w (intOf c (z.lane w k) + intOf c (x k) * intOf c (y k)), 0)
            else floatFma c r (rnd k) (z.lane w k) (x k) (y k)
          exec (.vma vd vs1 vs2 rm (some vs3)) s = .next ((s.drew r (fmtF c)).wrote [vs1, vs2, vs3] vd
            (mkElem a.fmt z.scales w (s.resultLanes vd c f)) (s.resultFlags c f))) ∧
        (vd.toNat < 64 → (s.oldV vd).fmt = a.fmt →
          let z := s.oldV vd
          let f (k : Nat) : Nat × Nat := if fmtI c
            then (wrapBits w (intOf c (z.lane w k) + intOf c (x k) * intOf c (y k)), 0)
            else floatFma c r (rnd k) (z.lane w k) (x k) (y k)
          exec (.vma vd vs1 vs2 rm none) s = .next ((s.drew r (fmtF c)).wrote [vs1, vs2] vd
            (mkElem a.fmt z.scales w (s.resultLanes vd c f)) (s.resultFlags c f)))) ∧
      (fmtI c = true → plain (.vmulh vd vs1 vs2) [vs1, vs2]
        (fun k => (wrapBits w (intOf c (x k) * intOf c (y k) / 2 ^ w), 0))) ∧
      plain (.vmin vd vs1 vs2) [vs1, vs2] (fun k => if fmtI c
        then (if intOf c (x k) ≤ intOf c (y k) then x k else y k, 0) else floatMinMax c false (x k) (y k)) ∧
      plain (.vmax vd vs1 vs2) [vs1, vs2] (fun k => if fmtI c
        then (if intOf c (x k) ≤ intOf c (y k) then y k else x k, 0) else floatMinMax c true (x k) (y k))) ∧
    (s.ReadyV [vs1] → (fmtI c = true ∨ fmtF c = true) →
      plain (.vabs vd vs1) [vs1] (fun k => if fmtI c then (wrapBits w (intOf c (x k)).natAbs, 0) else (x k % signBit c, 0)) ∧
      plain (.vneg vd vs1) [vs1] (fun k => if fmtI c then (wrapBits w (-intOf c (x k)), 0)
        else ((x k + signBit c) % (2 * signBit c), 0))) ∧
    (s.ReadyV [vs1, vs2] → fmtI c = true → fmtI b.fmt.toNat = true → fmtWidth b.fmt.toNat = w →
      plain (.vshl vd vs1 vs2) [vs1, vs2] (fun k => (if w ≤ y k then 0 else x k * 2 ^ y k % 2 ^ w, 0)) ∧
      plain (.vshr vd vs1 vs2) [vs1, vs2] (fun k => (if w ≤ y k then 0 else x k / 2 ^ y k, 0)) ∧
      plain (.vsar vd vs1 vs2) [vs1, vs2] (fun k => (wrapBits w (intOf c (x k) / 2 ^ min (y k) w), 0))) ∧
    (s.ReadyV [vs1, vs2] →
      plain (.vand vd vs1 vs2) [vs1, vs2] (fun k => (x k &&& y k, 0)) ∧
      plain (.vor vd vs1 vs2) [vs1, vs2] (fun k => (x k ||| y k, 0)) ∧
      plain (.vxor vd vs1 vs2) [vs1, vs2] (fun k => (x k ^^^ y k, 0))) ∧
    (s.ReadyV [vs1] →
      plain (.vnot vd vs1) [vs1] (fun k => (2 ^ w - 1 - x k % 2 ^ w, 0)) ∧
      (fmtI c = true →
        plain (.vpopc vd vs1) [vs1] (fun k => (((List.range w).filter (x k).testBit).length, 0)) ∧
        plain (.vclz vd vs1) [vs1] (fun k => (w - bitLen (x k), 0))) ∧
      (fmtF c = true → r ≠ 7 → rounds (.vsqrt vd vs1 rm) [vs1] (fun k => floatSqrt c r (rnd k) (x k))) ∧
      (fmtF c = true → r ≤ 3 →
        plain (.vexp vd vs1 rm) [vs1] (fun k => floatFn .exp c r (x k)) ∧
        plain (.vexp2 vd vs1 rm) [vs1] (fun k => floatFn .exp2 c r (x k)) ∧
        plain (.vlog vd vs1 rm) [vs1] (fun k => floatFn .log c r (x k)) ∧
        plain (.vlog2 vd vs1 rm) [vs1] (fun k => floatFn .log2 c r (x k)) ∧
        plain (.vsin vd vs1 rm) [vs1] (fun k => floatFn .sin c r (x k)) ∧
        plain (.vcos vd vs1 rm) [vs1] (fun k => floatFn .cos c r (x k)) ∧
        plain (.vtanh vd vs1 rm) [vs1] (fun k => floatFn .tanh c r (x k)) ∧
        plain (.verf vd vs1 rm) [vs1] (fun k => floatFn .erf c r (x k)) ∧
        plain (.vrcp vd vs1 rm) [vs1] (fun k => floatFn .rcp c r (x k)) ∧
        plain (.vrsqrt vd vs1 rm) [vs1] (fun k => floatFn .rsqrt c r (x k)))) ∧
    (s.ReadyV [vs1] → (fmtI c = true ∨ fmtF c = true) →
      let acts := (List.range (s.vlanes * 32 / w)).filter (s.active c)
      let len := min s.curShape.gvl.toNat (s.vlanes * 32 / w)
      -- a lane after j of the halvings of 2 ^ m lanes, with the flags its value raised; none where it is absent
      let node (op : Nat → Nat → Nat → Nat × Nat) (m : Nat) : Nat → Nat → Option (Nat × Nat) :=
        Nat.rec (fun k => if s.active c k then some (x k, 0) else none) fun j prev k =>
          match prev k, prev (k + 2 ^ (m - 1 - j)) with
          | some p, some q => some ((op k p.1 q.1).1, p.2 ||| q.2 ||| (op k p.1 q.1).2)
          | none, some q => some q
          | p, none => p
      let gives (i : Instr) (op : Nat → Nat → Nat → Nat × Nat) (ident : Nat) (r0 : Nat → Prop) (u : State) : Prop :=
        ∀ m, len ≤ 2 ^ m → (m = 0 ∨ 2 ^ (m - 1) < len) →
          let root := (node op m m 0).getD (ident, 0)
          r0 root.1 ∧ exec i s = .next (u.wrote [vs1] vd (mkElem a.fmt a.scales w
            ((List.range (s.vlanes * 32 / w)).map fun k => if k = 0 then root.1 else (s.oldV vd).lane w k)) root.2)
      let least (up : Bool) : Nat := if fmtI c then wrapBits w (if up then fmtMin c else fmtMax c) else nanBits c
      let extreme (up : Bool) (_ p q : Nat) : Nat × Nat := if fmtI c
        then (if intOf c p ≤ intOf c q then (if up then q else p) else (if up then p else q), 0) else floatMinMax c up p q
      (r ≠ 7 → gives (.vrsum vd vs1 rm)
        (fun k p q => if fmtI c then (wrapBits w (intOf c p + intOf c q), 0) else floatAdd c r (rnd k) p q) 0
        (fun v => fmtI c = true → v = wrapBits w (acts.map fun k => intOf c (x k)).sum) (s.drew r (fmtF c))) ∧
      gives (.vrmax vd vs1) (extreme true) (least true) (fun v => fmtI c = true →
        (acts = [] → intOf c v = fmtMin c) ∧ (acts ≠ [] → (∃ k ∈ acts, v = x k) ∧ ∀ k ∈ acts, intOf c (x k) ≤ intOf c v)) s ∧
      gives (.vrmin vd vs1) (extreme false) (least false) (fun v => fmtI c = true →
        (acts = [] → intOf c v = fmtMax c) ∧ (acts ≠ [] → (∃ k ∈ acts, v = x k) ∧ ∀ k ∈ acts, intOf c v ≤ intOf c (x k))) s)

/-- VCVT, VSCALE, VTAG, VSEED, VUNT5, VUN4O, VPK and VTADD: results, scales, completion -/
def Obligations.VectorConversions : Prop :=
  ∀ (s : State) (vd : VDst) (vs1 vs2 : VSrc) (rm : BitVec 3), s.Room vd → s.ReadyV [vs1] →
    let a := s.valV vs1
    let c := a.fmt.toNat
    let w := fmtWidth c
    let r := rm.toNat
    let old := s.oldV vd
    let rnd (k : Nat) : Nat := rndOf (if r = 6 then nextGen s.core.v.gen else s.core.v.gen) k
    (∀ (part : BitVec 3) (sel : BitVec 4) (tgt : Nat), [1, 2, 3, 4, 5, 0x10, 0x11, 0x12, 0x13, 0x14, 0x15][sel.toNat]? = some tgt →
      r ≠ 7 → (fmtI c = true ∨ fmtF8 c = true ∨ fmtF c = true) →
      let wt := fmtWidth tgt
      let wide := if wt ≤ w then c else tgt
      let n := s.vlanes * 32 / max w wt
      let src (k : Nat) : Nat := if wt ≤ w then k else part.toNat * n + k
      let dst (k : Nat) : Nat := if wt ≤ w then part.toNat * n + k else k
      part.toNat < max w wt / min w wt →
      (∀ k, k < n → s.active wide k = true → old.laneScale wt (dst k) ≠ 255 ∧ (fmtI tgt = true → a.laneScale w (src k) ≠ 255)) →
      ∃ (ls : List Nat) (fl : Nat), exec (.vcvt vd vs1 part sel rm) s =
          .next ((s.drew r true).wrote [vs1] vd (mkElem (BitVec.ofNat 8 tgt) old.scales wt ls) fl) ∧
        ls.length = s.vlanes * 32 / wt ∧
        (∀ k, k < n → s.active wide k = true → ls[dst k]? = some (convert (valOf c (a.lane w (src k))) (a.laneScale w (src k)) tgt
          (old.laneScale wt (dst k)) r (rnd (dst k))).1) ∧
        (∀ o, o < s.vlanes * 32 / wt → (∀ k, k < n → s.active wide k = true → dst k ≠ o) → ls[o]? = some (old.lane wt o))) ∧
    (∀ v : BitVec 8,
      exec (.vscale vd vs1 v) s = .next (s.wrote [vs1] vd { a with scales := s.fitScales (List.replicate 4 v) } 0) ∧
      ((∀ b ∈ (if s.core.sys.full then a.scales else a.scales.take 2), b = 0xFF ∨
          (0 ≤ (b.toNat : Int) + v.toInt ∧ (b.toNat : Int) + v.toInt ≤ 254)) →
        exec (.vscaleAdd vd vs1 v) s = .next (s.wrote [vs1] vd { a with scales := s.fitScales (a.scales.map fun b =>
          if b = 0xFF then 0xFF else BitVec.ofInt 8 ((b.toNat : Int) + v.toInt)) } 0))) ∧
    (∀ f : BitVec 7, fmtOk f.toNat = true → exec (.vtag vd vs1 f) s = .next (s.wrote [vs1] vd { a with fmt := f.setWidth 8 } 0)) ∧
    (∀ xs : CSrc, s.ReadyX .v [xs] → exec (.vseed xs) s = .next ((s.modV fun v =>
      { v with gen := if (s.view .v).x xs.toNat = 0 then 1 else (s.view .v).x xs.toNat }).advance .v)) ∧
    (∀ (ck : Bool) (part : BitVec 3), part.toNat < 5 → c = 9 →
      let n := s.vlanes * 32 / 8
      let pos (k : Nat) : Nat := part.toNat * n + k
      let byte (k : Nat) : Nat := (a.data.getD (64 * (pos k / 320) + pos k % 320 / 5) 0).toNat
      (∀ k, k < n → s.active 1 k = true → a.scale (pos k / 320) ≠ 255) →
      let bad : Prop := ∃ k, k < n ∧ s.active 1 k = true ∧ 243 ≤ byte k
      (bad → ck = true → exec (.vunt5 vd vs1 ck part) s = .next (s.takeTrap .v .ternaryCode 0 0 (s.laneAt .v))) ∧
      (bad → ck = false → ∃ (t : State) (e : Elem), exec (.vunt5 vd vs1 ck part) s = .next (t.wrote [vs1] vd e 0) ∧
        t = s.stick (some .v) 4 ∧ e.fmt = 0x01 ∧ ∀ k, k < n → s.active 1 k = true →
          e.lane 8 k = wrapBits 8 (if byte k < 243 then ((byte k / 3 ^ (pos k % 5) % 3 : Nat) - 1 : Int) else 0)) ∧
      (¬bad → ∃ sc, exec (.vunt5 vd vs1 ck part) s = .next (s.wrote [vs1] vd (mkElem 0x01 (s.fitScales sc) 8
          (s.resultLanes vd 1 fun k => (wrapBits 8 ((byte k / 3 ^ (pos k % 5) % 3 : Nat) - 1 : Int), 0))) 0) ∧
        sc = (List.range 4).map fun j => BitVec.ofNat 8 (a.scale (pos (64 * j) / 320)))) ∧
    (∀ (part : BitVec 3) (sel : BitVec 4) (tgt : Nat), [0x10, 0x12, 0x13, 0x14][sel.toNat]? = some tgt → r ≠ 7 → c = 8 →
      let n := s.vlanes * 32 / fmtWidth tgt
      let pos (k : Nat) : Nat := part.toNat * n + k
      let vals (k : Nat) : Option (List Val) := int4Block ((a.data.drop (64 * (pos k / 128))).take 64)
      part.toNat < s.vlanes * 8 / n → (∀ k, k < n → s.active tgt k = true → vals k ≠ none) →
      let f (k : Nat) : Nat × Nat := convert (((vals k).getD []).getD (pos k % 128) (.fin false 0 0)) (a.scale (pos k / 128)) tgt 127 r (rnd k)
      exec (.vun4o vd vs1 part sel rm) s = .next ((s.drew r true).wrote [vs1] vd
        (mkElem (BitVec.ofNat 8 tgt) (List.replicate 4 0x7F) (fmtWidth tgt) (s.resultLanes vd tgt f)) (s.resultFlags tgt f))) ∧
    (∀ (part : BitVec 4) (sel : BitVec 3), sel.toNat ≤ 2 → r ≠ 7 → c ∈ [1, 2, 0x10, 0x11, 3, 0x12, 0x13] →
      let tgt := if sel = 2 then 9 else 8
      let per := if sel = 2 then 320 else 128
      let n := s.vlanes * 32 / w
      let pos (k : Nat) : Nat := part.toNat * n + k
      let sc (k : Nat) : Nat := old.scale (pos k / per)
      part.toNat < s.vlanes * 4 / 64 * per / n →
      (∀ k, k < n → s.active c k = true → a.laneScale w k ≠ 255 ∧ sc k ≠ 255) →
      ∃ (u : State) (e : Elem) (fl : Nat), exec (.vpk vd vs1 part sel rm) s = .next (u.wrote [vs1] vd e fl) ∧
        u.core.v = (s.drew r true).core.v ∧ u.dev = s.dev ∧ u.u = { s.u with log := u.u.log } ∧ (tgt = 8 → u.u = s.u) ∧ e.fmt = BitVec.ofNat 8 tgt ∧
        e.scales = (if vd.toNat < 64 then old.scales else List.replicate 4 0x7F) ∧
        ((sel ≠ 1 ∨ ∀ k, k < n → s.active c k = true →
            beyond7 r (rnd (pos k)) ((valOf c (a.lane w k)).scale ((a.laneScale w k : Int) - sc k)) = false) →
         ∀ k, k < n → s.active c k = true →
          elemPat tgt ((e.data.drop (64 * (pos k / per))).take 64) (pos k % per) =
            (convert ((valOf c (a.lane w k)).scale ((a.laneScale w k : Int) - sc k)) 127 tgt 127 r (rnd (pos k))).1)) ∧
    (vd.toNat < 64 → s.ReadyV [vs1, vs2] → r ≠ 7 →
      let b := s.valV vs2
      let d := old.fmt.toNat
      (∀ f ∈ [c, b.fmt.toNat, d], f ≠ 0 ∧ fmtOk f = true) → (d ∈ [3, 4, 5] ∨ fmtF d = true) → fmtI c = fmtI d → fmtF c = fmtF d →
      w ≤ fmtWidth d → fmtI b.fmt.toNat = true →
      let f (k : Nat) : Nat × Nat :=
        let z := old.lane (fmtWidth d) k
        let x := a.lane w k
        let g := s.signLane b k
        if g = 0 then (z, 0)
        else if fmtI d then (wrapBits (fmtWidth d) (if 0 < g then intOf d z + intOf c x else intOf d z - intOf c x), 0)
        else
          let v := Val.add r (floatOf d z) (if 0 < g then floatOf c x else (floatOf c x).neg)
          let e := encodeVal d r (rnd k) v.1
          (e.1, v.2 ||| e.2)
      exec (.vtadd vd vs1 vs2 rm) s = .next ((s.drew r (fmtF d)).wrote [vs1, vs2] vd
        (mkElem old.fmt old.scales (fmtWidth d) (s.resultLanes vd d f)) (s.resultFlags d f)))

/-- Vector moves, constants, masks, the skip and the choice of shape register -/
def Obligations.VectorMovesAndMasks : Prop :=
  ∀ (s : State) (vd : VDst) (vs1 vs2 : VSrc) (xs : CSrc) (xd : CReg),
    let a := s.valV vs1
    let b := s.valV vs2
    let c := a.fmt.toNat
    let w := fmtWidth c
    let n := s.vlanes * 32 / w
    let moves (i : Instr) (srcs : List VSrc) (sc : List Byte) (f : Nat → Nat) : Prop :=
      exec i s = .next (s.wrote srcs vd (mkElem a.fmt sc w (s.resultLanes vd c fun k => (f k, 0))) 0)
    let raises (i : Instr) (x : Cause) : Prop := exec i s = .next (s.takeTrap .v x 0 0 (s.laneAt .v))
    (s.Room vd → s.ReadyV [vs1] →
      moves (.vmov vd vs1) [vs1] a.scales (fun k => a.lane w k) ∧
      (∀ d : BitVec 10, d.toInt.natAbs < n → moves (.vslide vd vs1 d) [vs1] a.scales fun k =>
        if 0 ≤ (k : Int) + d.toInt ∧ (k : Int) + d.toInt < n then a.lane w ((k : Int) + d.toInt).toNat else 0) ∧
      (∀ i : BitVec 8, i.toNat < n → moves (.vbcast vd vs1 i) [vs1]
        (s.fitScales (List.replicate 4 (BitVec.ofNat 8 (a.laneScale w i.toNat)))) fun _ => a.lane w i.toNat)) ∧
    (s.Room vd → s.ReadyV [vs1, vs2] → fmtI b.fmt.toNat = true → fmtWidth b.fmt.toNat = w →
      moves (.vshuf vd vs1 vs2) [vs1, vs2] a.scales fun k => if b.lane w k < n then a.lane w (b.lane w k) else 0) ∧
    (s.ReadyV [vs1] → ∀ i : BitVec 8, i.toNat < n → xd.toNat < 8 + (s.view .v).frame →
      exec (.vextr xd vs1 i) s = .next ((((s.takeV [vs1]).writeX .v xd.toNat (if c ∈ [1, 3, 4, 5]
        then BitVec.ofInt 64 (signed w (a.lane w i.toNat)) else BitVec.ofNat 64 (a.lane w i.toNat)))).advance .v)) ∧
    (∀ f : BitVec 7, s.Room vd → s.ReadyX .v [xs] → fmtOk f.toNat = true → f.toNat ∉ [8, 9, 10] →
      exec (.vsplat vd xs f) s = .next (s.wrote [] vd (mkElem (f.setWidth 8) (List.replicate 4 0x7F) (fmtWidth f.toNat)
        (s.resultLanes vd f.toNat fun _ => (((s.view .v).x xs.toNat).toNat % 2 ^ fmtWidth f.toNat, 0))) 0)) ∧
    (∀ imm : Imm 17, s.Room vd →
      let d := s.curShape.afmt.toNat
      let i := immS imm
      (fmtI d = true → fmtMin d ≤ i → i ≤ fmtMax d → exec (.vli vd imm) s = .next (s.wrote [] vd
        (mkElem s.curShape.afmt (List.replicate 4 0x7F) (fmtWidth d) (s.resultLanes vd d fun _ => (wrapBits (fmtWidth d) i, 0))) 0)) ∧
      (fmtF d = true ∨ fmtF8 d = true →
        let f (_ : Nat) : Nat × Nat := encodeVal d 0 0 (Val.ofInt i)
        exec (.vli vd imm) s = .next (s.wrote [] vd
          (mkElem s.curShape.afmt (List.replicate 4 0x7F) (fmtWidth d) (s.resultLanes vd d f)) (s.resultFlags d f)))) ∧
    (∀ cond : BitVec 3, s.ReadyV [vs1, vs2] → b.fmt = a.fmt →
      ((fmtI c = true ∧ cond.toNat ≤ 5) ∨ (fmtF c = true ∧ cond.toNat ≤ 6)) →
      let holds (k : Nat) : Bool × Nat := vcmpHolds cond.toNat c (a.lane w k) (b.lane w k)
      (s.core.v.mask.length < 16 → ∃ m : BitVec 256, (∀ k, k < 256 → m.getLsbD k = (s.active c k && (holds k).1)) ∧
        exec (.vcmp vs1 vs2 cond) s = .next ((((s.takeV [vs1, vs2]).raiseFv (s.resultFlags c fun k => (0, (holds k).2))).modV
          fun v => { v with mask := m :: v.mask }).advance .v)) ∧
      (16 ≤ s.core.v.mask.length → raises (.vcmp vs1 vs2 cond) .maskOverflow)) ∧
    (∀ top rest, s.core.v.mask = top :: rest → ∃ m : BitVec 256,
      (∀ k, k < 256 → m.getLsbD k = (!top.getLsbD k && (match rest with | [] => true | y :: _ => y.getLsbD k) &&
        decide (k < s.curShape.gvl.toNat))) ∧
      exec .vminv s = .next ((s.modV fun v => { v with mask := m :: rest }).advance .v)) ∧
    (s.core.v.mask = [] → raises .vminv .maskUnderflow) ∧
    (∀ d : BitVec 4,
      (d.toNat < s.core.v.mask.length → exec (.vmpop d) s =
        .next ((s.modV fun v => { v with mask := v.mask.drop (d.toNat + 1) }).advance .v)) ∧
      (s.core.v.mask.length ≤ d.toNat → raises (.vmpop d) .maskUnderflow ∧ raises (.vmget vd d) .maskUnderflow) ∧
      (∀ m, s.Room vd → s.core.v.mask[d.toNat]? = some m → exec (.vmget vd d) s =
        .next (s.wrote [] vd ⟨0x0A, List.replicate 4 0x7F, natLe 32 m.toNat ++ List.replicate 224 0⟩ 0))) ∧
    (∀ off : Imm 24,
      (∀ top ∈ s.core.v.mask.head?, top ≠ 0) → exec (.vskip off) s = .next (s.advance .v)) ∧
    (∀ (off : Imm 24) (rest : List (BitVec 256)), s.core.v.mask = 0 :: rest →
      (immU off = 0 → raises (.vskip off) .skipRange) ∧
      (0 < immU off → ∃ t : State, exec (.vskip off) s = .next (t.advance .v) ∧ t.core.v = { s.core.v with lat := [] } ∧
        t.u = { s.u with eV := { s.u.eV with
          skip := some ⟨s.lineAddr .v + 32 * immU off, s.u.eV.serial, s.u.eV.lane, s.u.eV.idx⟩ } } ∧ t.dev = s.dev)) ∧
    (∀ h : ShReg, exec (.vsetsh h) s = .next ((s.modV fun v => { v with curSh := h }).advance .v))

/-- VPARK, VUNPARK, VPUSHM and VPOPM -/
def Obligations.ParkedAndPushedRegisters : Prop :=
  (∀ (s : State) (vr : BitVec 6),
    let p := physV s.rb vr.toNat
    let raises (i : Instr) (x : Cause) : Prop := exec i s = .next (s.takeTrap .v x 0 0 (s.laneAt .v))
    (s.parkAt p = none → s.core.c.mat.lost = true → exec (.vpark vr) s = .next s.awaitLease) ∧
    (s.parkAt p = none → s.core.c.mat.lost = false → (s.core.c.mat.lease = 0 ∨ s.parkSlot = none) → raises (.vpark vr) .parkFull) ∧
    (∀ a, s.parkAt p = some a → raises (.vpark vr) .parkState) ∧
    (s.parkAt p = none → raises (.vunpark vr) .parkState) ∧
    (∀ a, s.parkAt p = none → s.core.c.mat.lost = false → s.core.c.mat.lease ≠ 0 → s.parkSlot = some a →
      ∃ t : State, exec (.vpark vr) s = .next (t.advance .v) ∧ t.parkAt p = some a ∧ (t.vreg p).live = false ∧
        (∀ k, k ≠ p → t.vreg k = s.vreg k ∧ t.parkAt k = s.parkAt k) ∧ t.dev = s.dev ∧
        ∃ k, Sparse.get none (t.lantern.quad a.quad).parked (4 * a.row + a.slot) = some k ∧ k.fmt = (s.readV p).fmt ∧
          k.scales = (s.readV p).scales ∧ k.reg = p) ∧
    (∀ a, s.parkAt p = some a →
      ((s.lantern.quad a.quad).rowCheck a.row = .clean →
        ∃ t : State, exec (.vunpark vr) s = .next (t.advance .v) ∧ t.vreg p = ⟨true, s.parkedCopy a⟩ ∧ t.parkAt p = none ∧
          (∀ k, k ≠ p → t.vreg k = s.vreg k ∧ t.parkAt k = s.parkAt k) ∧ t.dev = s.dev ∧
          Sparse.get none (t.lantern.quad a.quad).parked (4 * a.row + a.slot) = none) ∧
      (∀ c b, (s.lantern.quad a.quad).rowCheck a.row = .flip c b →
        ∃ t : State, exec (.vunpark vr) s = .next (State.advance t .v) ∧ (t.vreg p).live = true ∧ t.parkAt p = none ∧
          (∀ k, k ≠ p → t.vreg k = s.vreg k ∧ t.parkAt k = s.parkAt k) ∧ t.dev = s.dev) ∧
      ((s.lantern.quad a.quad).rowCheck a.row = .bad → exec (.vunpark vr) s =
        .next (s.takeTrap .v .accumulatorUncorrectable 0 0 (s.laneAt .v))))) ∧
  (∀ (s : State) (vf vl : BitVec 6), vf.toNat ≤ vl.toNat →
    let n := vl.toNat - vf.toNat + 1
    let size := s.vlanes * 4 + 8
    let vsp := (s.view .v).vsp
    let phys (m : Nat) : Nat := physV s.rb (vf.toNat + m)
    let raises (i : Instr) (x : Cause) : Prop := exec i s = .next (s.takeTrap .v x 0 0 (s.laneAt .v))
    (vsp < 0x1F0000 + n * size → raises (.vpushm vf vl) .pushOverflow) ∧
    (0x1F8000 < vsp + n * size → raises (.vpopm vf vl) .pushUnderflow) ∧
    (0x1F0000 + n * size ≤ vsp → (∀ m, m < n → (s.readV (phys m)).data.length = 256 ∧ (s.readV (phys m)).scales.length = 4) →
      ∃ t : State, exec (.vpushm vf vl) s = .next ((t.write .v (.vsp (vsp - n * size))).advance .v) ∧ t.u = { s.u with log := t.u.log } ∧
        ((∀ m, m < n → (s.vreg (phys m)).live = true) → t.u = s.u) ∧ t.dev = s.dev ∧
        t.core.v = s.core.v ∧
        (∀ m, m < n → Memory.reads t.core.spad (vsp - n * size + m * size) size = s.packV (s.readV (phys m))) ∧
        (∀ y, y < vsp - n * size ∨ vsp ≤ y → Memory.read t.core.spad y = Memory.read s.core.spad y)) ∧
    (vsp + n * size ≤ 0x1F8000 →
      let e (m : Nat) : Elem := s.unpackV (Memory.reads s.core.spad (vsp + m * size) size)
      (∀ m, m < n → fmtOk (e m).fmt.toNat = true) →
      ∃ t : State, exec (.vpopm vf vl) s = .next ((t.write .v (.vsp (vsp + n * size))).advance .v) ∧ t.u = s.u ∧ t.dev = s.dev ∧
        t.core.spad = s.core.spad ∧ (∀ m, m < n → t.vreg (phys m) = ⟨true, e m⟩) ∧
        (∀ k, (∀ m, m < n → phys m ≠ k) → t.vreg k = s.vreg k)))

/-- MLEASE, MFREE, the arbiter and the end of a lease -/
def Obligations.Leases : Prop :=
  (∀ (s : State) (q : BitVec 4) (tok : Tok), (∀ k, tok = some k → s.token k.toNat < 63) →
    let mask := q.toNat
    let raises (i : Instr) (x : Cause) : Prop := exec i s = .next (s.takeTrap .m x 0 0 (s.laneAt .m))
    let legal : Prop := mask ∈ leaseMasks ∧ ∀ x ∈ leaseQuads mask, hasQuad s.liveQuads x = true
    let m := s.core.c.mat
    -- the token that the lane names is one higher, or as before, and no other changes
    let higher (t : State) : Prop := (∀ k, tok = some k → t.token k.toNat = s.token k.toNat + 1) ∧
      ∀ n, (∀ k, tok = some k → k.toNat ≠ n) → t.token n = s.token n
    let raised : State := match tok with | some k => s.setToken k.toNat (s.token k.toNat + 1) | none => s
    (mask ∉ leaseMasks → (m.want = 0 → raises (.mlease q tok) .leaseMask) ∧ raises (.mfree q tok) .leaseMask) ∧
    (legal → m.want = 0 → s.matIdle = true →
      (m.lease ≠ 0 → raises (.mlease q tok) .leaseHeld) ∧
      (m.lease = 0 → m.lost = false → s.lantern.waiting = [] → s.lantern.lcStopped = false →
        s.lantern.rotWant = none → (∀ x ∈ leaseQuads mask, (s.lantern.quad x).holder = none ∧ (s.lantern.quad x).held = false) →
        ∃ t : State, exec (.mlease q tok) s = .next (t.advance .m) ∧ t.core.c.mat.lease = mask ∧ t.core.c.mat.want = 0 ∧
          (∀ k, t.token k = s.token k) ∧ t.dev = s.dev ∧ ∀ x ∈ leaseQuads mask,
            (t.lantern.quad x).holder = some (s.cur % 4) ∧ (t.lantern.quad x).owner = s.core.unit.world ∧
            (t.lantern.quad x).bad = [] ∧ (t.lantern.quad x).rcd.active = false ∧
            ∀ k, (s.lantern.quad x).rowParked (k / 128) = false → Sparse.get 0 (t.lantern.quad x).acc k = 0) ∧
      (m.lease = 0 → (∃ x ∈ leaseQuads mask, (s.lantern.quad x).holder ≠ none) →
        ∃ t : State, exec (.mlease q tok) s = .next t ∧ t.core.c.mat.lease = 0 ∧ t.core.c.mat.want = mask ∧ higher t ∧
          s.cur % 4 ∈ t.lantern.waiting ∧ t.u = (s.notePark .m).u ∧ t.dev = s.dev)) ∧
    (legal →
      (m.lease = 0 → ∃ t : State, exec (.mfree q tok) s = .next (t.advance .m) ∧ (∀ k, t.token k = s.token k) ∧ t.u = s.u ∧
        t.core.c.mat = m ∧ t.lanterns = s.lanterns ∧ t.dev = s.dev) ∧
      (m.lease ≠ 0 → 16 ≤ m.mq.length → exec (.mfree q tok) s = .next s) ∧
      (m.lease ≠ 0 → m.mq.length < 16 → (s.product ≠ none ∨ m.mq = []) →
        let c : MCmd := ⟨.mfree q tok, s.laneAt .m, laneWord (.mfree q tok), none, none, none, (s.view .m).shape 0, 0, 0, 0⟩
        exec (.mfree q tok) s = .next ((raised.modMat fun m => { m with mq := m.mq ++ [c] }).advance .m)))) ∧
  (∀ (s : State) (core : Nat) (c : MCmd) (q : BitVec 4) (tok : Tok),
    let t := s.focus core
    let m := t.core.c.mat
    let mine (x : Nat) : Prop := (t.lantern.quad x).holder = some (core % 4)
    let traps (cause : Cause) (u : State) : Prop := exec (.matrixCommandComplete core) s = .next u ∧ u.core.c.mat.mq = [] ∧
      u.core.c.mat.lease = m.lease ∧ u.core.c.pend = some ⟨.m, cause, c.lane, 0, t.cyc⟩ ∧ u.dev = s.dev ∧ u.u = t.u
    let ends (u : State) : Prop := exec (.matrixCommandComplete core) s = .next u ∧ u.core.c.mat.mq = [] ∧ u.core.c.mat.lease = 0 ∧
      (∀ k, u.token k = if tok.any (fun y => y.toNat == k) then t.token k - 1 else t.token k) ∧ u.dev = s.dev
    t.segRuns 0 = true → t.trapOpen = false → t.product = none → m.mq = [c] → c.instr = .mfree q tok →
    (t.quadStopped = true → exec (.matrixCommandComplete core) s = .next t) ∧
    (t.quadStopped = false →
      (m.lease = 0 → ∃ u : State, ends u ∧ u.lanterns = t.lanterns ∧ u.u = t.u) ∧
      (m.lease ≠ 0 → m.lease ≠ q.toNat → ∃ u : State, traps .leaseMask u) ∧
      (m.lease = q.toNat → m.lease ≠ 0 → (∃ x ∈ leaseQuads m.lease, mine x ∧ (t.lantern.quad x).bad ≠ []) →
        ∃ u : State, traps .accumulatorUncorrectable u ∧ (∀ k, k ≠ core → u.coreAt k = s.coreAt k) ∧
          ∀ x ∈ leaseQuads m.lease, (mine x → (u.lantern.quad x).bad = []) ∧ (u.lantern.quad x).acc = (t.lantern.quad x).acc) ∧
      (m.lease = q.toNat → m.lease ≠ 0 →
        (∀ x ∈ leaseQuads m.lease, mine x → (t.lantern.quad x).bad = [] ∧ (t.lantern.quad x).armed = none) →
        ∃ u : State, ends u ∧ u.core.c.mat.lost = false ∧
          ∀ x ∈ leaseQuads m.lease, (u.lantern.quad x).holder ≠ some (core % 4)))) ∧
  (∀ (s : State) (n c : Nat),
    ((s.lanternAt n).lcStopped = true → exec (.arbiterPass n) s = .next s) ∧
    (∃ t : State, exec (.arbiterPass n) s = .next t ∧ t.dev = s.dev ∧ t.cur = s.cur ∧
      (∀ x o, ((s.lanternAt n).quad x).holder = some o → ((t.lanternAt n).quad x).holder = some o) ∧
      (∀ m, m ≠ n → t.lanternAt m = s.lanternAt m) ∧
      (c < 4 → (s.lanternAt n).lcStopped = false → (s.lanternAt n).waiting = [c] → (s.lanternAt n).rotWant = none →
        (s.lanternAt n).grantable (s.coreAt (4 * n + c)).c.mat.wanted 0 = true →
        (t.coreAt (4 * n + c)).c.mat.lease = (s.coreAt (4 * n + c)).c.mat.wanted ∧ (t.lanternAt n).ptr = (c + 1) % 4 ∧
        (t.lanternAt n).waiting = []))) ∧
  (∀ (s : State) (core : Nat),
    let t := s.focus core
    (t.limitReached = false → exec (.leaseLimitReached core) s = .next t) ∧
    (t.limitReached = true → t.contended = false → exec (.leaseLimitReached core) s =
      .next (t.modMat fun m => { m with cmds := 0, start := t.cyc })) ∧
    (t.limitReached = true → t.contended = true → t.core.c.mat.owed ≠ 0 → exec (.leaseLimitReached core) s = .next t) ∧
    (t.limitReached = true → t.contended = true → t.product = none → t.core.c.mat.owed = 0 → core % 4 ∉ t.lantern.waiting →
      (∀ x ∈ leaseQuads t.core.c.mat.lease, (t.lantern.quad x).stopped = false) →
      ∃ u : State, exec (.leaseLimitReached core) s = .next u ∧ u.core.c.mat.lost = true ∧ u.dev = s.dev ∧
        ∀ x ∈ leaseQuads t.core.c.mat.lease, (u.lantern.quad x).holder ≠ some (core % 4) ∧
          Sparse.get none u.lantern.saves (4 * (core % 4) + x) ≠ none))

/-- A matrix lane becomes a command; a product that passes its checks enters the record -/
def Obligations.MatrixIssue : Prop :=
  ∀ (s : State) (ta tb ts : TsReg) (h : ShReg) (rm : BitVec 3) (tok : Tok) (which : Bool) (e1 e2 xs : CSrc) (q : BitVec 4),
    s.core.c.mat.mq.length < 16 → (∀ k, tok = some k → s.token k.toNat < 63) → s.ReadyX .m [e1, e2, xs] →
    let v := s.view .m
    let raised : State := match tok with | some k => s.setToken k.toNat (s.token k.toNat + 1) | none => s
    let val (f : CSrc) : Word := v.x f.toNat
    let cmd (i : Instr) (a b st : Option Tile) (g : Shape) (hd : BitVec 256) (w1 w2 : Word) : MCmd :=
      ⟨i, s.laneAt .m, laneWord i, a, b, st, g, hd, w1, w2⟩
    let enters (i : Instr) (c : MCmd) : Prop :=
      exec i s = .next ((raised.modMat fun m => { m with mq := m.mq ++ [c] }).advance .m)
    let A := v.tile ta.toNat
    let B := v.tile tb.toNat
    let S := v.tile ts.toNat
    let H := v.shape h.toNat
    let kinds : List (ProdKind × Instr × Nat) := [(.mma, .mma ta tb h rm tok, rm.toNat), (.ck, .mmack ta tb h rm tok, rm.toNat),
      (.bx, .mmabx ta tb h tok, 0), (.ba, .mmaba ta tb h tok, 0)]
    (s.product ≠ none →
      (∀ k ∈ kinds, enters k.2.1 (cmd k.2.1 A B none H 0 0 0)) ∧
      (let i : Instr := .mmah ta tb h rm tok which ts e1 e2
       enters i (cmd i A B S H (v.handle (if which then tb.toNat else ta.toNat)) (val e1) (val e2)))) ∧
    (s.product ≠ none ∨ s.core.c.mat.mq = [] →
      enters (.mclr h tok) (cmd (.mclr h tok) none none none H 0 0 0) ∧
      enters (.mclrAll h tok) (cmd (.mclrAll h tok) none none none H 0 0 0) ∧
      enters (.mldacc ta h tok) (cmd (.mldacc ta h tok) A none none H 0 0 0) ∧
      enters (.mstacc ta h rm tok) (cmd (.mstacc ta h rm tok) A none none H 0 0 0) ∧
      enters (.mchk ta h rm tok) (cmd (.mchk ta h rm tok) A none none H 0 0 0) ∧
      enters (.mseed q xs tok) (cmd (.mseed q xs tok) none none none (v.shape 0) 0 (val xs) 0)) ∧
    (s.product = none → s.core.c.mat.mq = [] → s.core.c.mat.lost = false → s.leaseDue = false →
      s.walkerRuns (s.laneAt .m).ovr = .ok ⟨⟩ →
      let lease := s.core.c.mat.lease
      (∀ k ∈ kinds, ∀ a b, lease ≠ 0 → k.2.2 ≤ 5 → (∀ x ∈ leaseQuads lease, (s.lantern.quad x).bad = []) →
        H.gm.toNat ≤ s.capM → H.gn.toNat ≤ capN lease →
        (k.1 = .ck → (H.rm.toNat + 1 + 7) / 8 * 8 ≤ s.capM ∧ (H.rn.toNat + 1 + 7) / 8 * 8 ≤ capN lease) →
        A = some a → B = some b → a.plane = false → b.plane = true →
        let p := prodOf k.1 k.2.2 H a b
        s.prodChecks p (s.laneAt .m).ovr = .ok ⟨⟩ →
        ∃ t : State, exec k.2.1 s = .next (t.advance .m) ∧ t.core.c.mat.mq = [] ∧ t.u = { s.u with log := t.u.log } ∧
          (s.badA p = false → t.u = s.u) ∧ t.dev = s.dev ∧
          ∀ x, (t.lantern.quad x).acc = (s.lantern.quad x).acc ∧ (x ∈ leaseQuads lease → (t.lantern.quad x).rcd =
            ⟨true, 0x1FFFF, s.cur % 4, laneWord k.2.1, p.gm, p.gn, p.gk, p.g, some a, some b, H.rm.toNat, H.rn.toNat, H.rk.toNat, H.afmt⟩)) ∧
      (∀ k ∈ kinds, lease = 0 → k.2.2 ≤ 5 → s.core.c.pend = none → ∃ t : State, exec k.2.1 s = .next (t.advance .m) ∧
        t.core.c.mat.mq = [] ∧ t.core.c.pend = some ⟨.m, .noLease, s.laneAt .m, 0, s.cyc⟩ ∧
        ∀ n, t.lanternAt n = s.lanternAt n))

/-- What a completing matrix command leaves in the array, in scratchpad and in the generators -/
def Obligations.MatrixCompletion : Prop :=
  ∀ (s : State) (core : Nat),
    let t := s.focus core
    let lease := t.core.c.mat.lease
    t.segRuns 0 = true → t.trapOpen = false → lease ∈ leaseMasks → t.quadStopped = false →
    (∀ r p, t.product = some r → r.prod? = some p → p.kind = .mma → t.core.c.mat.mq = [] → r.beat = 0x1FFFF →
      (∀ x, x < 4 → Sparse.get none t.core.c.mat.flip x = none ∧ (t.lantern.quad x).armed = none ∧
        (t.lantern.quad x).cells = [] ∧ (t.lantern.quad x).parked = []) →
      0 < p.g → 0 < p.gk → 0 < p.gm → 0 < p.gn → p.gm ≤ geoH lease → p.gn ≤ geoW lease →
      ∃ u : State, exec (.matrixCommandComplete core) s = .next u ∧ u.product = none ∧ u.core.spad = t.core.spad ∧
        u.core.c.mat.mq = [] ∧ ∀ i j, i < geoH lease → j < geoW lease →
          (i < p.m → i < p.gm → j < p.n → j < p.gn →
            (fmtI p.afmt = true → u.cell i j = BitVec.ofInt 64 (signed (fmtWidth p.afmt) (wrapBits (fmtWidth p.afmt)
              (signed (fmtWidth p.afmt) (t.cell i j).toNat +
                ((List.range p.gk).map fun k => (Val.mul (t.opA p.a i k) (t.opB p.b k j)).1.toInt).sum)))) ∧
            (fmtI p.afmt = false → u.cell i j = (List.range p.gk).foldl (fun x k =>
              (accFloat p.afmt p.rm x (Val.mul (t.opA p.a i k) (t.opB p.b k j))).1) (t.cell i j))) ∧
          (p.m ≤ i ∨ p.gm ≤ i ∨ p.n ≤ j ∨ p.gn ≤ j → u.cell i j = t.cell i j)) ∧
    (∀ c, t.product = none → t.core.c.mat.mq = [c] → t.core.c.mat.lost = false → t.leaseDue = false → c.lane.ovr = false →
      let ends (u : State) : Prop := exec (.matrixCommandComplete core) s =
        .next (((u.modMat fun m => { m with mq := m.mq.tail, owed := m.owed - 1 }).lowerToken (cmdTok c.instr)).countM)
      let h := c.shape
      let m := min h.rm.toNat h.gm.toNat
      let n := min h.rn.toNat h.gn.toNat
      let af := h.afmt.toNat
      (∀ q xs tok, c.instr = .mseed q xs tok → q ≠ 0 → (∀ x ∈ leaseQuads q.toNat, hasQuad t.liveQuads x = true) →
        (∀ x ∈ leaseQuads lease, (t.lantern.quad x).bad = []) →
        ∃ u : State, exec (.matrixCommandComplete core) s =
            .next ((u.modMat fun m => { m with mq := m.mq.tail, owed := m.owed - 1 }).lowerToken tok) ∧
          u.core.v = t.core.v ∧ ∀ x, x < 4 → Sparse.get 0 u.core.c.mat.qgen x =
            if hasQuad q.toNat x then (if c.e1 = 0 then 1 else c.e1) else Sparse.get 0 t.core.c.mat.qgen x) ∧
      ((∀ x ∈ leaseQuads lease, (t.lantern.quad x).bad = []) → h.gm.toNat ≤ t.capM → h.gn.toNat ≤ capN lease →
        (∀ r tok, c.instr = .mclr r tok → ∃ u : State, ends u ∧ u.core = t.core ∧ ∀ i j, i < geoH lease → j < geoW lease →
          u.cell i j = if i < h.gm.toNat ∧ j < h.gn.toNat ∧ h.gk ≠ 0 then 0 else t.cell i j) ∧
        (∀ r tok, c.instr = .mclrAll r tok → (∀ x, x < 4 → (t.lantern.quad x).parked = []) →
          ∃ u : State, ends u ∧ u.core = t.core ∧ ∀ i j, i < geoH lease → j < geoW lease → u.cell i j = 0) ∧
        (∀ a r tok x, c.instr = .mldacc a r tok → c.a = some x → x.plane = false → m ≤ x.rows → n ≤ x.cols →
          (∀ b ∈ x.blocksOf m n, t.desc (b / 64) = ⟨h.afmt, 0x7F⟩) →
          ∃ u : State, ends u ∧ u.core = t.core ∧ ∀ i j, i < geoH lease → j < geoW lease → u.cell i j =
            if i < m ∧ j < n ∧ h.gk ≠ 0 then accPat af (elemPat x.fmt.toNat (t.spad (x.blockAt i j) 64) (x.slotAt j)) else t.cell i j) ∧
        (∀ a r rm tok x, c.instr = .mstacc a r rm tok → rm.toNat ≤ 5 → c.a = some x → x.plane = false → m ≤ x.rows → n ≤ x.cols →
          let f := x.fmt.toNat
          af ≠ 0 → (fmtI f = true ∨ fmtF8 f = true ∨ fmtF f = true) → (fmtI af = true ∨ fmtF8 af = true ∨ fmtF af = true) →
          (∀ b ∈ x.blocksOf m n, (t.desc (b / 64)).scale ≠ 0xFF) →
          (∀ y ∈ touched lease m n, (t.lantern.quad y.1).rowCheck y.2 = .clean) →
          ∃ u : State, ends u ∧ u.lanterns = t.lanterns ∧
            (∀ y, y < x.base ∨ x.base + x.bytes ≤ y → Memory.read u.core.spad y = Memory.read t.core.spad y) ∧
            ∀ i j, i < m → j < n →
              let g := geoCell lease i j
              laneOf (u.spad (x.blockAt i j) 64) (fmtWidth f) (x.slotAt j) = (convert (valOf af ((t.cell i j).toNat % 2 ^ fmtWidth af)) 127 f
                (t.desc (x.blockAt i j / 64)).scale.toNat rm.toNat (rndOf (Sparse.get 0 t.core.c.mat.qgen g.1) g.2.2)).1 % 2 ^ fmtWidth f) ∧
        (∀ a r rm tok x, c.instr = .mchk a r rm tok → rm.toNat ≤ 5 → c.a = some x → x.plane = false → af = 0x14 → x.fmt = 0x14 →
          8 ≤ x.rows → h.rm.toNat ≤ x.cols → h.rn.toNat ≤ x.cols →
          (h.rm.toNat + 1 + 7) / 8 * 8 ≤ t.capM → (h.rn.toNat + 1 + 7) / 8 * 8 ≤ capN lease →
          (∀ y ∈ touched lease (h.rm.toNat + 1) (h.rn.toNat + 1), (t.lantern.quad y.1).rowCheck y.2 = .clean) →
          let v (i j : Nat) : Val := floatOf 0x14 ((t.cell i j).toNat % 2 ^ 32)
          let row (i : Nat) : List Val := (List.range h.rn.toNat).map fun j => v i j
          let col (j : Nat) : List Val := (List.range h.rm.toNat).map fun i => v i j
          ∃ u : State, ends u ∧ u.lanterns = t.lanterns ∧
            let out (r j : Nat) : Nat := laneOf (u.spad (x.blockAt r j) 64) 32 (x.slotAt j)
            (∀ i, i < h.rm.toNat → out 0 i = (residue rm.toNat (v i h.rn.toNat) (row i)).1 % 2 ^ 32 ∧
              out 1 i = (absSum rm.toNat (row i)).1 % 2 ^ 32) ∧
            (∀ j, j < h.rn.toNat → out 2 j = (residue rm.toNat (v h.rm.toNat j) (col j)).1 % 2 ^ 32 ∧
              out 3 j = (absSum rm.toNat (col j)).1 % 2 ^ 32))))

/-- A copy lane becomes a queued command with what it reads in text order; XGATH and XPF at issue -/
def Obligations.CopyIssue : Prop :=
  ∀ (s : State) (t1 t2 : TsReg) (cb : CbReg) (h : ThReg) (q : QReg) (tok : Tok) (fl : Fl) (dir : Bool) (rm : BitVec 3) (op : BitVec 2)
    (scope : Scope) (e1 e2 e3 e4 : CSrc), s.ReadyX .x [e1, e2, e3, e4] →
    let v := s.view .x
    let w (e : CSrc) : Word := v.x e.toNat
    let A := v.tile t1.toNat
    let hd := v.handle h.toNat
    let raised : State := match tok with | some k => s.setToken k.toNat (s.token k.toNat + 1) | none => s
    let item (i : Instr) (a b : Option Tile) (f : Option Buf) (g : BitVec 256) (w1 w2 w3 w4 : Word) : XCmd :=
      ⟨i, s.laneAt .x, a, b, f, g, w1, w2, w3, w4, false, 0, 0, false⟩
    let queued (i : Instr) (a b : Option Tile) (f : Option Buf) (g : BitVec 256) (w1 w2 w3 w4 : Word) : State :=
      raised.modX fun x => { x with xq := x.xq ++ [item i a b f g w1 w2 w3 w4] }
    let enters (i : Instr) (u : State) : Prop := exec i s = .next (u.advance .x)
    let raises (i : Instr) (x : Cause) : Prop := exec i s = .next (s.takeTrap .x x 0 0 (s.laneAt .x))
    let ld : Instr := .xcopyLd t1 h tok fl e1 e2 e3 e4
    let st : Instr := .xcopySt t1 h tok fl e1 e2 e3 e4
    let sp : Instr := .xcopys t1 h tok fl e1 e2
    let fill : Instr := .xcb cb h tok fl e1 e2 e3 e4
    let gath : Instr := .xgath q h t1 tok fl e1 e2
    let unpacked : Prop := ∀ x, A = some x → packed x.fmt.toNat = false
    let boxed : Prop := ∃ r, s.fillBox (item fill none none (v.buf cb.toNat) hd (w e1) (w e2) (w e3) (w e4)) = .ok r
    (s.core.x.xq.length < 16 → (∀ k, tok = some k → s.token k.toNat < 63) →
      enters ld (queued ld A none none hd (w e1) (w e2) (w e3) (w e4)) ∧
      enters st (queued st A none none hd (w e1) (w e2) (w e3) (w e4)) ∧
      enters (.xcopySs t1 t2 tok fl) (queued (.xcopySs t1 t2 tok fl) A (v.tile t2.toNat) none 0 0 0 0 0) ∧
      (unpacked → enters sp (queued sp A none none hd (w e1) (w e2) 0 0)) ∧
      (boxed → enters fill (queued fill none none (v.buf cb.toNat) hd (w e1) (w e2) (w e3) (w e4))) ∧
      enters (.xhost t1 dir tok fl e1 e2 e3) (queued (.xhost t1 dir tok fl e1 e2 e3) A none none 0 (w e1) (w e2) (w e3) 0) ∧
      enters (.xpeer t1 dir tok fl e1) (queued (.xpeer t1 dir tok fl e1) A none none 0 (w e1) 0 0 0) ∧
      enters (.xcoll t1 rm op tok fl e1 e2) (queued (.xcoll t1 rm op tok fl e1 e2) A none none 0 (w e1) (w e2) 0 0) ∧
      enters (.xfence scope tok fl) (queued (.xfence scope tok fl) none none none 0 0 0 0 0) ∧
      (∀ x k, A = some x → x.plane = false → x.fmt = 4 → 1 ≤ (w e1).toNat → (w e1).toNat ≤ x.rows * x.cols →
        thValid hd = true → thSparse hd = false → s.copyKey s.u.world (thKey hd) = some k → s.qbind q.toNat = none →
        enters gath ((queued gath A none none hd (w e1) (w e2) 0 0).setQbind q.toNat (some .gath)))) ∧
    (16 ≤ s.core.x.xq.length → (∀ i ∈ [ld, st, .xcopySs t1 t2 tok fl, .xfence scope tok fl], exec i s = .next s) ∧
      (unpacked → exec sp s = .next s) ∧ (boxed → exec fill s = .next s)) ∧
    (∀ x, A = some x → packed x.fmt.toNat = true → raises sp .unsupportedFormat) ∧
    (v.buf cb.toNat = none → raises fill .unboundSlot) ∧
    (let fc := (w e3).toNat / 2 ^ 32 % 128
     if fmtOk fc then
       if (boxOf (fmtCap fc) (w e1) (w e2) (w e3) (w e4)).aligned hd then exec (.xpf h e1 e2 e3 e4) s = .next (s.advance .x)
       else raises (.xpf h e1 e2 e3 e4) .boxAlign
     else raises (.xpf h e1 e2 e3 e4) .reservedFormat)

/-- What a completing copy command moves, and what it leaves: its flag, its token, its queue -/
def Obligations.CopyCompletion : Prop :=
  ∀ (s : State) (core : Nat) (c : XCmd),
    let t := s.focus core
    (t.segRuns 3 = false ∨ t.core.sys.shifting % 2 = 1 →
      exec (.copyCommandComplete core) s = .next t ∧ exec (.xgathElementPush core) s = .next t) ∧ (
    t.segRuns 3 = true → t.core.sys.shifting % 2 = 0 → t.trapOpen = false → t.core.x.xq = [c] →
    let ended (v : State) : Prop := v.core.x.xq = [] ∧
      (∀ k, (copyTokFl c.instr).1 = some k → v.token k.toNat = t.token k.toNat - 1) ∧
      (∀ f, (copyTokFl c.instr).2 = some f → v.flag f.toNat = min (t.flag f.toNat + 1) 0xFFFFFFFF)
    let completes (v : State) : Prop := exec (.copyCommandComplete core) s = .next v ∧ ended v
    let keeps (v : State) (lo n : Nat) : Prop :=
      ∀ y, y < lo ∨ lo + n ≤ y → Memory.read v.core.spad y = Memory.read t.core.spad y
    let fails (cause : Cause) (m : Mem) : Prop := ∃ v : State, exec (.copyCommandComplete core) s = .next v ∧ v.core.x.xq = [] ∧
      v.core.c.pend = some ⟨.x, cause, c.lane, 0, t.cyc⟩ ∧ v.core.spad = t.core.spad ∧ v.dev.m = m
    (∀ scope tok fl, c.instr = .xfence scope tok fl → ∃ v : State, completes v ∧ v.core.spad = t.core.spad ∧ v.dev = t.dev) ∧
    (∀ a b tok fl d x, c.instr = .xcopySs a b tok fl → c.t1 = some d → c.t2 = some x →
      d.rows = x.rows → d.cols = x.cols → d.fmt = x.fmt → d.plane = x.plane → d.planes = x.planes →
      (d.base + d.bytes ≤ x.base ∨ x.base + x.bytes ≤ d.base) → d.base % 64 = 0 → x.base % 64 = 0 →
      ∃ v : State, completes v ∧ v.spad d.base d.bytes = t.spad x.base x.bytes ∧ keeps v d.base d.bytes ∧
        ∀ j, j < d.bytes / 64 → v.desc (d.base / 64 + j) = t.desc (x.base / 64 + j)) ∧
    (∀ a h tok fl e1 e2 e3 e4 x k b u (bs : List BoxRead), c.instr = .xcopyLd a h tok fl e1 e2 e3 e4 → c.t1 = some x → x.plane = false →
      x.base % 64 = 0 → t.copyBox c x = .ok (k, b) → t.readBox k c.h b = .ok (u, bs) →
      (∀ y ∈ bs, ∀ z, y.2 = some z → z.1.length = 64) →
      ∃ v : State, completes v ∧ v.dev.m = u.dev.m ∧ keeps v x.base x.bytes ∧ ∀ y ∈ bs,
        let place := x.base + y.1.1 * x.rowBytes + 64 * y.1.2
        let what := y.2.getD (List.replicate 64 0, ⟨BitVec.ofNat 8 x.fmt.toNat, 0x7F⟩)
        v.spad place 64 = what.1 ∧ v.desc (place / 64) = what.2) ∧
    (∀ a h tok fl e1 e2 e3 e4 x k b p u e pa, c.instr = .xcopySt a h tok fl e1 e2 e3 e4 → c.t1 = some x → x.plane = false →
      t.copyBox c x = .ok (k, b) → b.places.filter (fun y => b.inside c.h y.1 y.2) = [p] →
      b.addr c.h p.1 p.2 < 2 ^ 56 → t.translate t.u.world (b.addr c.h p.1 p.2) .write = .ok (u, e, pa) → e.target = 0 →
      u.staging = none → (u.protWorld u.u.world = false ∨ e.unprot = false) → u.Intact pa 64 →
      let place := x.base + p.1 * x.rowBytes + 64 * p.2
      ∃ v : State, completes v ∧ v.core.spad = t.core.spad ∧ v.dev.m =
        { (t.dev.m.put k pa (t.spad place 64)).repair pa 64 with
          desc := Sparse.set Desc.zero t.dev.m.desc (pa / 64) (t.desc (place / 64)) }) ∧
    (∀ a h tok fl e1 e2 x k u1 u2 (ms vs : List (Bytes × Desc)) (d : Desc), c.instr = .xcopys a h tok fl e1 e2 → c.t1 = some x → x.plane = false →
      thValid c.h = true → thSparse c.h = true → t.copyKey t.u.world (thKey c.h) = some k →
      let f := x.fmt.toNat
      let tm := (thTile c.h).1
      let tn := (thTile c.h).2
      f ≠ 0 → f ∉ [8, 9, 10] → c.e1.toNat * tm < thExt c.h 1 → c.e2.toNat * tn < thExt c.h 0 → x.rows = tm → x.cols = tn →
      let id := c.e1.toNat * ((thExt c.h 0 + tn - 1) / tn) + c.e2.toNat
      let size := (tm * tn / 8 + 63) / 64 * 64
      t.readRun k (thBase c.h + 64 * thField c.h 14 + id * size) (size / 64) = .ok (u1, ms) →
      let mask := ms.flatMap Prod.fst
      let count (e : Nat) : Nat := ((List.range e).filter (bitOf mask)).length
      u1.readRun k (thBase c.h + 64 * id * thStride c.h 1) ((count (tm * tn) + fmtCap f - 1) / fmtCap f) = .ok (u2, vs) →
      fmtOk f = true → d.fmt = x.fmt → vs ≠ [] → (∀ y ∈ vs, y.2 = d) →
      ∃ v : State, completes v ∧ v.dev.m = u2.dev.m ∧ keeps v x.base x.bytes ∧ ∀ r j, r < tm → j < tn →
        v.desc (x.blockAt r j / 64) = d ∧ laneOf (v.spad (x.blockAt r j) 64) (fmtWidth f) (x.slotAt j) =
          if bitOf mask (r * tn + j) then laneOf (vs.flatMap Prod.fst) (fmtWidth f) (count (r * tn + j)) % 2 ^ fmtWidth f else 0) ∧
    (∀ cb h tok fl e1 e2 e3 e4 f k b u (bs : List BoxRead) n, c.instr = .xcb cb h tok fl e1 e2 e3 e4 → c.buf = some f → t.segRuns 1 = true → f.base % 64 = 0 →
      f.size % 64 = 0 → t.fillBox c = .ok (f, k, b) →
      (c.begun = true → t.readBox k c.h b = .ok (u, bs) → t.cbCount cb.toNat f = some n →
        (∀ y ∈ bs, ∀ z, y.2 = some z → z.1.length = 64) →
        ∃ v : State, completes v ∧ v.cbCount cb.toNat f = some { n with filled := n.filled + 1 } ∧
          keeps v (f.base + c.slot * f.size) f.size ∧ ∀ y ∈ bs,
            let place := f.base + c.slot * f.size + y.1.1 * 64 * b.nb + 64 * y.1.2
            let what := y.2.getD (List.replicate 64 0, ⟨BitVec.ofNat 8 (boxFc c.e3), 0x7F⟩)
            v.spad place 64 = what.1 ∧ v.desc (place / 64) = what.2) ∧
      (c.begun = false → t.cbCount cb.toNat f = some n →
        (n.free = 0 → exec (.xcbSlotTake core) s = .next (t.beginX false)) ∧
        (0 < n.free →
          let n' := { n with free := n.free - 1, fill := (n.fill + 1) % f.count }
          exec (.xcbSlotTake core) s = .next (((t.beginX false).modX fun x =>
            { x with xq := [{ c with begun := true, slot := n.fill }] }).setCbCount cb.toNat f n')))) ∧
    (∀ (cause : Cause) (window : Nat) a dir tok fl e1 e2 e3 x,
      ((c.instr = .xhost a dir tok fl e1 e2 e3 ∧ cause = .hostWindow ∧ window = 1 ∧ x.plane = false ∧ c.e2.toNat % 64 = 0 ∧
          ∃ k, t.linkKey (c.e3.toNat % 4096) = .ok k) ∨
        (c.instr = .xpeer a dir tok fl e1 ∧ cause = .peerWindow ∧ window = 2 ∧ ∃ hk, t.groupHandle = .ok hk)) →
      c.t1 = some x → 0 < x.bytes → c.e1.toNat % 64 = 0 → t.core.c.pend = none →
      let found := t.translate t.u.world c.e1.toNat (if dir then .write else .read)
      (2 ^ 56 ≤ c.e1.toNat ∨ (∃ k, found = .error (.trap .notMapped c.e1 k)) ∨ (∃ u e pa, found = .ok (u, e, pa) ∧ e.target ≠ window)) →
      ∃ v : State, exec (.copyCommandComplete core) s = .next v ∧ v.core.x.xq = [] ∧
        v.core.c.pend = some ⟨.x, cause, c.lane, c.e1, t.cyc⟩ ∧ v.core.spad = t.core.spad ∧ v.dev.m = t.dev.m) ∧
    (∀ a tok fl e1 e2 e3 x k u1 p u2 q, c.instr = .xhost a false tok fl e1 e2 e3 → c.t1 = some x → x.plane = false →
      t.linkKey (c.e3.toNat % 4096) = .ok k → c.e1.toNat % 64 = 0 → c.e2.toNat % 64 = 0 → t.core.c.pend = none →
      t.window c.e1.toNat (streamSpan x.bytes) 1 .read .hostWindow = .ok (u1, p) →
      u1.window c.e2.toNat (streamSpan (x.bytes / 32)) 1 .read .hostWindow = .ok (u2, q) →
      match streamIn k (c.e3.toNat % 4096) 0 x.bytes (u2.hostGet p), streamIn k (c.e3.toNat % 4096) 1 (x.bytes / 32) (u2.hostGet q) with
      | some bs, some ds => ∃ v : State, completes v ∧ v.core.spad = (u2.putTile x bs ds).core.spad ∧
          v.core.tag = (u2.putTile x bs ds).core.tag ∧ v.dev.m = u2.dev.m
      | _, _ => fails .sealTag t.dev.m) ∧
    (∀ a tok fl e1 x hk u p, c.instr = .xpeer a true tok fl e1 → c.t1 = some x → t.groupHandle = .ok hk → c.e1.toNat % 64 = 0 →
      x.bytes = 64 → t.core.c.pend = none → t.window c.e1.toNat 64 2 .write .peerWindow = .ok (u, [p]) → u.onRoster p = .ok ⟨⟩ →
      let sent : Mem := { u.dev.m with peer := Memory.writes u.dev.m.peer p (t.spad x.base 64) }
      if Config.fabricOk t.dev.fresh 0 then
        if Config.fabricOk t.freshen.dev.fresh 0 then ∃ v : State, completes v ∧ v.core.spad = t.core.spad ∧
          v.dev.m = { sent with peerDesc := Sparse.set Desc.zero u.dev.m.peerDesc (p / 64) (t.desc (x.base / 64)) }
        else fails .sealTag sent
      else fails .sealTag u.dev.m) ∧
    (∀ a rm op tok fl e1 e2 x, c.instr = .xcoll a rm op tok fl e1 e2 → c.t1 = some x → c.begun = true → c.slot = 1 → c.done = 0 → c.clash = false → x.plane = false →
      t.members c = some [(core, c)] → fmtI x.fmt.toNat = true → 0 < x.cols → c.e2.toNat ≤ x.rows * x.cols →
      ∃ v : State, completes v ∧ v.collVals x c.e2.toNat = t.collVals x c.e2.toNat ∧ keeps v x.base x.bytes ∧ v.dev = t.dev) ∧
    (∀ q h a tok fl e1 e2 x k u (bs : List (Bytes × Desc)), c.instr = .xgath q h a tok fl e1 e2 → c.t1 = some x → x.plane = false →
      t.segRuns 1 = true → (t.queueOf q.toNat).length < 16 →
      (∀ w y, t.core.c.pend = none → c.done = 0 → t.gathPages c x c.e1.toNat 0 = .error (.trap w y 0) →
        ∃ v : State, exec (.xgathElementPush core) s = .next v ∧ v.core.x.xq = [] ∧ v.core.c.pend = some ⟨.x, w, c.lane, y, t.cyc⟩ ∧
          v.queueOf q.toNat = t.queueOf q.toNat ∧ v.qbind q.toNat = none) ∧ (
      let blk := x.blockAt (c.done / x.cols) (c.done % x.cols)
      let ix := laneOf (t.spad blk 64) 32 (x.slotAt (c.done % x.cols))
      (t.desc (blk / 64)).fmt = 4 → ix < thExt c.h 1 → t.copyKey t.u.world (thKey c.h) = some k →
      t.readRun k (thBase c.h + 64 * (c.e2.toNat + ix * thStride c.h 1)) (t.vlanes * 4 / 64) = .ok (u, bs) →
      (c.done = 0 → t.gathPages c x c.e1.toNat 0 = .ok ⟨⟩) →
      ∀ f : Byte, fmtOk f.toNat = true → (∀ y ∈ bs, y.2.fmt = f) →
      let e : Elem := ⟨f, ((bs.map fun (y : Bytes × Desc) => y.2.scale) ++ List.replicate 4 0x7F).take 4, padData (bs.flatMap Prod.fst)⟩
      (c.done + 1 < c.e1.toNat → exec (.xgathElementPush core) s = .next ((u.pushQ q.toNat e).modX fun x =>
        { x with xq := [{ c with begun := true, done := c.done + 1 }] })) ∧
      (c.e1.toNat ≤ c.done + 1 → ∃ v : State, exec (.xgathElementPush core) s = .next v ∧ ended v ∧
        v.queueOf q.toNat = t.queueOf q.toNat ++ [e] ∧ v.qbind q.toNat = none ∧ v.dev.m = u.dev.m))))

/-- What reset leaves -/
def Obligations.ResetState : Prop :=
  State.reset.Inv ∧ State.reset.Canonical ∧ State.reset.dev.stateWord = 0 ∧ State.reset.dev.m = Mem.reset ∧
  (∀ a, Memory.read State.reset.dev.m.mem a = 0) ∧ State.reset.dev.launches = [] ∧
  ∀ n, let c := State.reset.coreAt n
    (∀ i, c.c.u.sh.x i = 0) ∧ c.c.u.sh.wb = 0 ∧ c.c.u.sh.frame = 24 ∧ c.c.u.sh.slip = 8 ∧ c.c.u.sh.vsp = 0x1F8000 ∧
    c.c.u.sh.ovwran = 0xFFFFFFFF ∧ c.c.u.sh.status = 0 ∧ c.c.csr.leaseLen = 16 ∧ c.c.csr.leaseCyc = 65536 ∧ c.c.csr.diagen = false ∧
    c.sys.slots = [(0, ⟨0, 20, true⟩)] ∧ c.sys.edge = 2 ^ 20 ∧ (∀ b, State.reset.segOwner n b = 15) ∧
    c.c.pend = none ∧ c.sys.saved = none ∧ c.c.mat.mq = [] ∧ c.c.mat.lease = 0 ∧ c.x.xq = [] ∧ c.a.q = [] ∧ c.a.qb = [] ∧
    (∀ v, (State.reset.focus n).vreg v = VReg.zero) ∧ (∀ f, (State.reset.focus n).flag f = 0) ∧
    (∀ k, (State.reset.focus n).token k = 0) ∧ (∀ b, Sparse.get Desc.zero c.tag b = ⟨0, 0x7F⟩)

/-- Words written out in the spec decode to the instructions they stand for -/
def Obligations.DecodedWords : Prop :=
  decodeInstr .c [0x0002468A] 0x1D4E7890 = .ok (.li 9 ⟨some 0x2468A, 0x67890⟩, Mods.none) ∧
  decodeInstr .a [] 0x03000100 = .ok (.ali 0 ⟨none, 0x100⟩, Mods.none) ∧
  decodeInstr .a [] 0xF9000001 = .ok (.finc .a 0 ⟨none, 1⟩, Mods.none) ∧
  decodeInstr .c [] 0x23000002 = .ok (.call ⟨none, 2⟩, Mods.none) ∧
  decodeInstr .c [] 0x26000008 = .ok (.frame 8, Mods.none) ∧
  decodeInstr .c [] 0x09590240 = .ok (.rems 11 8 9, Mods.none) ∧
  decodeInstr .c [] 0x5A012503 = .ok (.frameset 9 10 3, Mods.none) ∧
  decodeInstr .m [] 0x01580000 = .ok (.mlease 0b0101 (some 0), Mods.none) ∧
  decodeInstr .m [] 0x03120240 = .ok (.mma 1 2 0 0 (some 1), Mods.none) ∧
  decodeInstr .a [] 0x13100086 = .ok (.acb 2 0 1 6, Mods.none) ∧
  decodeInstr .x [0x21228580] 0x03230990 = .ok (.xcb 2 3 (some 1) (some 4) 9 10 11 0, Mods.none) ∧
  decodeInstr .v [] 0x33060004 = .ok (.vsplat 3 0 4, Mods.none) ∧
  decodeInstr .v [] 0x38020C04 = .ok (.vcmp 1 3 4, Mods.none) ∧
  decodeInstr .v [] 0x01040408 = .ok (.vadd 2 1 1 0, Mods.none) ∧
  decodeInstr .v [] 0x34120803 = .ok (.vextr 9 2 3, Mods.none) ∧
  decodeInstr .v [] 0x290E2010 = .ok (.vtadd 7 8 2 0, Mods.none)

/-- A step runs the instruction that its engine's next lane decodes to -/
def Obligations.StepRunsDecodedInstruction : Prop :=
  (∀ (s t : State) (core : Nat) (e : Engine) (rest : List Turn) (ln : LineInst) (ws : List Nat) (l : LaneText) (i : Instr)
    (m : Mods) (idx : List Nat),
    s.agenda = .lane core e :: rest →
    let a := ((State.focus { s with agenda := rest } core).elapse 1).noteExpired
    let b := a.setU a.u.settle
    let p := b.u.eng e
    b.canMove e = true → b.u.line? p.serial = some ln → p.skip = none →
    ((ln.held = some ws ∧ t = b) ∨ (ln.held = none ∧ b.fetchLine ln.addr = .ok (t, ws))) →
    (t.lanesIn ln e).find? (fun x => decide (p.lane ≤ x.n)) = some l →
    let r := (t.u.eng e).serial
    t.outOfShadow e ln r l.n = true → l.issue ln.iter = some idx → decodeInstr e l.exts l.word = .ok (i, m) →
    let v := (t.moveTo e r l.n [] (t.passesSwitch e ln ws l.n)).moveTo e r l.n idx false
    v.mayReach e ln ws l = true → v.mayBegin e l.n i = true → lineCause ln ws = none →
    let w := if ln.checked then v else v.markLine e
    modsLevelBad m ln.iter = false → (e = .c → w.frameCause i = none) → step s = State.afterTurn (exec i w)) ∧
  (∀ (s : State) (i : Instr) (rest : List Turn), s.agenda = .event i :: rest →
    step s = State.afterTurn (exec i { s with agenda := rest })) ∧
  (∀ (s : State) (n : Nat) (rest : List Turn), s.agenda = .tick n :: rest →
    let f := s.clockOf (dieOf s.cur)
    ∃ t : State, step s = .next t ∧ t.dev.now = s.dev.now + n * 1000000 / f ∧
      (∀ k, k < 8 → Sparse.get 0 t.dev.cyc k = Sparse.get 0 s.dev.cyc k + n * 1000000 * s.clockOf k / f) ∧
      (s.cur < 520 → 0 < f → t.cyc = s.cyc + n) ∧
      ((∀ x ∈ s.lanterns, ∀ q, q < 4 → (x.2.quad q).held = false) →
        t.cores = s.cores ∧ t.lanterns = s.lanterns ∧ t.dev.m = s.dev.m)) ∧
  (∀ (s : State) (u : Upset) (rest : List Turn), s.agenda = .upset u :: rest → step s = .next (State.upset { s with agenda := rest } u).noteTurn) ∧
  (∀ t : State, State.afterTurn (.next t) = .next (t.noteExpired.stampReady)) ∧
  (∀ f, State.afterTurn (.fault f) = .fault f)

/-- Every well-formed lane has an encoding, and decoding it gives the lane back -/
def Obligations.RoundTrip : Prop :=
  ∀ i : Instr, (∀ e, i.engine = some e → ∃ n, encode i = some n ∧ n.engine = e) ∧
    (i.wf = true → ∀ n, encode i = some n → decodeLane n.engine n.word n.ext = .ok i)

/-- Every step keeps the state word legal, the host error counter in range and the clocks in their band -/
def Obligations.StepInvariant : Prop :=
  ∀ s t : State, s.Inv → step s = .next t → t.Inv
end

