-- ==== Sys2Proof/Laws/Fields.lean ====
section
/-! SUPPORT. The fields of an instruction word, read back (05 R157-R180). -/

namespace Sys2Proof

/-- A field of a word, from its value. -/
theorem fld_eq {n lo w : Nat} {b : BitVec n} (h : w / 2 ^ lo % 2 ^ n = b.toNat) : fld n lo w = b :=
  BitVec.eq_of_toNat_eq (by rw [← h]; exact BitVec.toNat_ofNat ..)

/-- A field of a word that holds a number. -/
theorem fld_lit {n lo w : Nat} (v : Nat) (h : w / 2 ^ lo % 2 ^ n = v % 2 ^ n) : fld n lo w = BitVec.ofNat n v :=
  fld_eq (by rw [h]; exact (BitVec.toNat_ofNat ..).symm)

/-- The word above the lowest field. -/
theorem div_first {w n T x : Nat} (h : w = T * 2 ^ n + x) (hx : x < 2 ^ n) : w / 2 ^ n = T := by
  rw [h, Nat.mul_comm, Nat.mul_add_div (Nat.two_pow_pos n), Nat.div_eq_of_lt hx, Nat.add_zero]

/-- The word above the next field. -/
theorem div_next {w m n T x : Nat} (h : w / 2 ^ m = T * 2 ^ n + x) (hx : x < 2 ^ n) : w / 2 ^ (m + n) = T := by
  rw [Nat.pow_add, ← Nat.div_div_eq_div_mul]; exact div_first h hx

/-- A field's number, from the word at it. -/
theorem mod_at {w lo n T x : Nat} (h : w / 2 ^ lo = T * 2 ^ n + x) (hx : x < 2 ^ n) : w / 2 ^ lo % 2 ^ n = x := by
  rw [h, Nat.mul_comm, Nat.mul_add_mod]; exact Nat.mod_eq_of_lt hx

/-- A field, from the word at it. -/
theorem fld_at {n lo w T : Nat} {b : BitVec n} (h : w / 2 ^ lo = T * 2 ^ n + b.toNat) : fld n lo w = b :=
  fld_eq (mod_at h b.isLt)

/-- A field that holds a number, from the word at it. -/
theorem fld_num {n lo w T v : Nat} (h : w / 2 ^ lo = T * 2 ^ n + v) : fld n lo w = BitVec.ofNat n v :=
  fld_lit v (by rw [h, Nat.mul_comm, Nat.mul_add_mod])

theorem Bool.toNat_lt (b : Bool) : b.toNat < 2 := by cases b <;> decide
theorem Scope.toNat_lt (s : Scope) : s.toNat < 8 := by cases s <;> decide
theorem Cond.toNat_lt (c : Cond) : c.toNat < 8 := by cases c <;> decide

theorem encTok_lt (t : Tok) : encTok t < 16 := by
  cases t with
  | none => exact (by decide)
  | some k => have := k.isLt; show 8 + k.toNat < 16; omega

theorem encFl_lt (t : Fl) : encFl t < 64 := by
  cases t with
  | none => exact (by decide)
  | some k => have := k.isLt; show 32 + k.toNat < 64; omega

/-- A flag bit. -/
theorem fld_bool {lo w : Nat} {b : Bool} (h : w / 2 ^ lo % 2 = b.toNat) : decide (fld 1 lo w = 1#1) = b := by
  cases b with
  | false =>
    have h : w / 2 ^ lo % 2 = 0 := h
    rw [fld_lit (n := 1) 0 (by omega)]; rfl
  | true =>
    have h : w / 2 ^ lo % 2 = 1 := h
    rw [fld_lit (n := 1) 1 (by omega)]; rfl

/-- A scope field. -/
theorem fld_scope {n lo w : Nat} {s : Scope} (h : w / 2 ^ lo % 2 ^ n = s.toNat) (_hn : 8 ≤ 2 ^ n) :
    Scope.ofNat? (fld n lo w).toNat = some s := by
  have : (fld n lo w).toNat = s.toNat := by rw [← h]; exact BitVec.toNat_ofNat ..
  rw [this]; cases s <;> rfl

/-- A condition field. -/
theorem fld_cond {n lo w : Nat} {c : Cond} (h : w / 2 ^ lo % 2 ^ n = c.toNat) (_hn : 8 ≤ 2 ^ n) :
    Cond.ofNat? (fld n lo w).toNat = some c := by
  have : (fld n lo w).toNat = c.toNat := by rw [← h]; exact BitVec.toNat_ofNat ..
  rw [this]; cases c <;> rfl

/-- The kv bit and the k field together. -/
theorem tok_parts {lo w : Nat} {tok : Tok} (h : w / 2 ^ lo % 16 = encTok tok) :
    (tok = none → fld 1 (lo + 3) w = 0#1 ∧ fld 3 lo w = 0#3) ∧ (∀ k, tok = some k → fld 1 (lo + 3) w = 1#1 ∧ fld 3 lo w = k) := by
  have hd : w / 2 ^ (lo + 3) = w / 2 ^ lo / 8 := by rw [Nat.pow_add, ← Nat.div_div_eq_div_mul]
  constructor
  · rintro rfl
    have h : w / 2 ^ lo % 16 = 0 := h
    exact ⟨fld_lit 0 (by rw [hd]; omega), fld_lit 0 (by omega)⟩
  · rintro k rfl
    have hk := k.isLt
    have h : w / 2 ^ lo % 16 = 8 + k.toNat := h
    exact ⟨fld_lit 1 (by rw [hd]; omega), fld_eq (by omega)⟩

theorem fld_tok {lo w : Nat} {tok : Tok} (h : w / 2 ^ lo % 16 = encTok tok) :
    (if fld 1 (lo + 3) w = 1#1 then some (fld 3 lo w) else none) = tok := by
  cases tok with
  | none => rw [((tok_parts h).1 rfl).1]; rfl
  | some k => rw [((tok_parts h).2 k rfl).1, ((tok_parts h).2 k rfl).2]; rfl

theorem fld_tokOk {lo w : Nat} {tok : Tok} (h : w / 2 ^ lo % 16 = encTok tok) :
    fld 1 (lo + 3) w = 1#1 ∨ fld 3 lo w = 0#3 := by
  cases tok with
  | none => exact .inr ((tok_parts h).1 rfl).2
  | some k => exact .inl ((tok_parts h).2 k rfl).1

/-- The fv bit and the f field together. -/
theorem fl_parts {lo w : Nat} {fl : Fl} (h : w / 2 ^ lo % 64 = encFl fl) :
    (fl = none → fld 1 (lo + 5) w = 0#1 ∧ fld 5 lo w = 0#5) ∧ (∀ k, fl = some k → fld 1 (lo + 5) w = 1#1 ∧ fld 5 lo w = k) := by
  have hd : w / 2 ^ (lo + 5) = w / 2 ^ lo / 32 := by rw [Nat.pow_add, ← Nat.div_div_eq_div_mul]
  constructor
  · rintro rfl
    have h : w / 2 ^ lo % 64 = 0 := h
    exact ⟨fld_lit 0 (by rw [hd]; omega), fld_lit 0 (by omega)⟩
  · rintro k rfl
    have hk := k.isLt
    have h : w / 2 ^ lo % 64 = 32 + k.toNat := h
    exact ⟨fld_lit 1 (by rw [hd]; omega), fld_eq (by omega)⟩

theorem fld_fl {lo w : Nat} {fl : Fl} (h : w / 2 ^ lo % 64 = encFl fl) :
    (if fld 1 (lo + 5) w = 1#1 then some (fld 5 lo w) else none) = fl := by
  cases fl with
  | none => rw [((fl_parts h).1 rfl).1]; rfl
  | some k => rw [((fl_parts h).2 k rfl).1, ((fl_parts h).2 k rfl).2]; rfl

theorem fld_flOk {lo w : Nat} {fl : Fl} (h : w / 2 ^ lo % 64 = encFl fl) :
    fld 1 (lo + 5) w = 1#1 ∨ fld 5 lo w = 0#5 := by
  cases fl with
  | none => exact .inr ((fl_parts h).1 rfl).2
  | some k => exact .inl ((fl_parts h).2 k rfl).1

theorem sum28 {a b c d : Nat} (ha : a < 128) (hb : b < 128) (hc : c < 128) (hd : d < 128) :
    a * 2097152 + b * 16384 + c * 128 + d < 268435456 := by omega

theorem toNat28 (n : Nat) (h : n < 268435456) : (BitVec.ofNat 28 n).toNat = n := by
  rw [BitVec.toNat_ofNat]
  exact Nat.mod_eq_of_lt h

/-- The number that an extra-operand lane stands for. -/
theorem encE_toNat {a b c d : Nat} (ha : a < 128) (hb : b < 128) (hc : c < 128) (hd : d < 128) :
    (encE a b c d).toNat = a * 2097152 + b * 16384 + c * 128 + d := by
  unfold encE
  exact toNat28 _ (sum28 ha hb hc hd)

theorem e2w_someN {e0 : Option (BitVec 28)} {e : BitVec 28} {n : Nat} (h : e.toNat = n) : (⟨e0, some e⟩ : Ext).e2w = n := by
  rw [← h]; rfl

theorem e2w_optN {e0 : Option (BitVec 28)} {e : BitVec 28} {n : Nat} (h : e.toNat = n) : (⟨e0, optE e⟩ : Ext).e2w = n := by
  rw [← h]
  unfold optE Ext.e2w
  by_cases h : e = 0#28
  · rw [if_pos h, h]; rfl
  · rw [if_neg h]; rfl

theorem e2w_some {e0 : Option (BitVec 28)} {a b c d : Nat} (ha : a < 128) (hb : b < 128) (hc : c < 128) (hd : d < 128) :
    (⟨e0, some (encE a b c d)⟩ : Ext).e2w = a * 2097152 + b * 16384 + c * 128 + d :=
  e2w_someN (encE_toNat ha hb hc hd)

theorem e2w_optE {e0 : Option (BitVec 28)} {a b c d : Nat} (ha : a < 128) (hb : b < 128) (hc : c < 128) (hd : d < 128) :
    (⟨e0, optE (encE a b c d)⟩ : Ext).e2w = a * 2097152 + b * 16384 + c * 128 + d :=
  e2w_optN (encE_toNat ha hb hc hd)

end Sys2Proof
end

