-- ==== Sys2Proof/Laws/CodecC.lean ====
section
/-! SUPPORT. The encoder and the decoder agree, for each lane of the control engine and each universal lane (05 R157-R180). -/

namespace Sys2Proof

set_option linter.unusedSimpArgs false
set_option linter.unusedVariables false

theorem decodeLane_nop (e : Engine)
    (hwf : (true) = true) (w : Nat) (hw : 0 = w) :
    decodeLane e w ⟨none, none⟩ = .ok (.nop e) := by
  have d0 : w / 2 ^ 0 = 0 * 2 ^ 24 + 0 := by omega
  have hop := congrArg (· % 256) (div_next d0 (by decide))
  have f0 : fld 24 0 w = 0#24 := fld_num d0
  clear hw d0
  cases e
  · have hm : decodeControl w ⟨none, none⟩ = (decNop .c w ⟨none, none⟩) := by unfold decodeControl; rw [show w / 16777216 % 256 = 0 from hop]; rfl
    show decodeControl w ⟨none, none⟩ = _
    rw [hm]
    unfold decNop
    simp only [need, f0, if_true, decide_true, Option.isNone, Option.isSome, Bool.and_self, Option.getD]
    rfl
  · have hm : decodeAccess w ⟨none, none⟩ = (decNop .a w ⟨none, none⟩) := by unfold decodeAccess; rw [show w / 16777216 % 256 = 0 from hop]; rfl
    show decodeAccess w ⟨none, none⟩ = _
    rw [hm]
    unfold decNop
    simp only [need, f0, if_true, decide_true, Option.isNone, Option.isSome, Bool.and_self, Option.getD]
    rfl
  · have hm : decodeVector w ⟨none, none⟩ = (decNop .v w ⟨none, none⟩) := by unfold decodeVector; rw [show w / 16777216 % 256 = 0 from hop]; rfl
    show decodeVector w ⟨none, none⟩ = _
    rw [hm]
    unfold decNop
    simp only [need, f0, if_true, decide_true, Option.isNone, Option.isSome, Bool.and_self, Option.getD]
    rfl
  · have hm : decodeMatrix w ⟨none, none⟩ = (decNop .m w ⟨none, none⟩) := by unfold decodeMatrix; rw [show w / 16777216 % 256 = 0 from hop]; rfl
    show decodeMatrix w ⟨none, none⟩ = _
    rw [hm]
    unfold decNop
    simp only [need, f0, if_true, decide_true, Option.isNone, Option.isSome, Bool.and_self, Option.getD]
    rfl
  · have hm : decodeCopy w ⟨none, none⟩ = (decNop .x w ⟨none, none⟩) := by unfold decodeCopy; rw [show w / 16777216 % 256 = 0 from hop]; rfl
    show decodeCopy w ⟨none, none⟩ = _
    rw [hm]
    unfold decNop
    simp only [need, f0, if_true, decide_true, Option.isNone, Option.isSome, Bool.and_self, Option.getD]
    rfl

theorem decodeLane_endE (e : Engine)
    (hwf : (true) = true) (w : Nat) (hw : 4160749568 = w) :
    decodeLane e w ⟨none, none⟩ = .ok (.endE e) := by
  have d0 : w / 2 ^ 0 = 248 * 2 ^ 24 + 0 := by omega
  have hop := congrArg (· % 256) (div_next d0 (by decide))
  have f0 : fld 24 0 w = 0#24 := fld_num d0
  clear hw d0
  cases e
  · have hm : decodeControl w ⟨none, none⟩ = (decEndE .c w ⟨none, none⟩) := by unfold decodeControl; rw [show w / 16777216 % 256 = 248 from hop]; rfl
    show decodeControl w ⟨none, none⟩ = _
    rw [hm]
    unfold decEndE
    simp only [need, f0, if_true, decide_true, Option.isNone, Option.isSome, Bool.and_self, Option.getD]
    rfl
  · have hm : decodeAccess w ⟨none, none⟩ = (decEndE .a w ⟨none, none⟩) := by unfold decodeAccess; rw [show w / 16777216 % 256 = 248 from hop]; rfl
    show decodeAccess w ⟨none, none⟩ = _
    rw [hm]
    unfold decEndE
    simp only [need, f0, if_true, decide_true, Option.isNone, Option.isSome, Bool.and_self, Option.getD]
    rfl
  · have hm : decodeVector w ⟨none, none⟩ = (decEndE .v w ⟨none, none⟩) := by unfold decodeVector; rw [show w / 16777216 % 256 = 248 from hop]; rfl
    show decodeVector w ⟨none, none⟩ = _
    rw [hm]
    unfold decEndE
    simp only [need, f0, if_true, decide_true, Option.isNone, Option.isSome, Bool.and_self, Option.getD]
    rfl
  · have hm : decodeMatrix w ⟨none, none⟩ = (decEndE .m w ⟨none, none⟩) := by unfold decodeMatrix; rw [show w / 16777216 % 256 = 248 from hop]; rfl
    show decodeMatrix w ⟨none, none⟩ = _
    rw [hm]
    unfold decEndE
    simp only [need, f0, if_true, decide_true, Option.isNone, Option.isSome, Bool.and_self, Option.getD]
    rfl
  · have hm : decodeCopy w ⟨none, none⟩ = (decEndE .x w ⟨none, none⟩) := by unfold decodeCopy; rw [show w / 16777216 % 256 = 248 from hop]; rfl
    show decodeCopy w ⟨none, none⟩ = _
    rw [hm]
    unfold decEndE
    simp only [need, f0, if_true, decide_true, Option.isNone, Option.isSome, Bool.and_self, Option.getD]
    rfl

theorem decodeLane_finc (e : Engine) (f : FReg) (n : Imm 18)
    (hwf : (true) = true) (w : Nat) (hw : 4177526784 + f.toNat * 524288 + n.low.toNat * 1 = w) :
    decodeLane e w ⟨n.high, none⟩ = .ok (.finc e f n) := by
  have d0 : w / 2 ^ 0 = ((249 * 2 ^ 5 + f.toNat) * 2 ^ 1 + 0) * 2 ^ 18 + n.low.toNat := by omega
  have d1 := div_next d0 n.low.isLt
  have d2 := div_next d1 (by decide)
  have hop := congrArg (· % 256) (div_next d2 f.isLt)
  have f0 : fld 5 19 w = f := fld_at d2
  have f1 : fld 18 0 w = n.low := fld_at d0
  have f2 : fld 1 18 w = 0#1 := fld_num d1
  clear hw d0 d1 d2
  cases e
  · have hm : decodeControl w ⟨n.high, none⟩ = (decFinc .c w ⟨n.high, none⟩) := by unfold decodeControl; rw [show w / 16777216 % 256 = 249 from hop]; rfl
    show decodeControl w ⟨n.high, none⟩ = _
    rw [hm]
    unfold decFinc
    simp only [need, f0, f1, f2, if_true, decide_true, Option.isNone, Option.isSome, Bool.and_self, Option.getD]
    rfl
  · have hm : decodeAccess w ⟨n.high, none⟩ = (decFinc .a w ⟨n.high, none⟩) := by unfold decodeAccess; rw [show w / 16777216 % 256 = 249 from hop]; rfl
    show decodeAccess w ⟨n.high, none⟩ = _
    rw [hm]
    unfold decFinc
    simp only [need, f0, f1, f2, if_true, decide_true, Option.isNone, Option.isSome, Bool.and_self, Option.getD]
    rfl
  · have hm : decodeVector w ⟨n.high, none⟩ = (decFinc .v w ⟨n.high, none⟩) := by unfold decodeVector; rw [show w / 16777216 % 256 = 249 from hop]; rfl
    show decodeVector w ⟨n.high, none⟩ = _
    rw [hm]
    unfold decFinc
    simp only [need, f0, f1, f2, if_true, decide_true, Option.isNone, Option.isSome, Bool.and_self, Option.getD]
    rfl
  · have hm : decodeMatrix w ⟨n.high, none⟩ = (decFinc .m w ⟨n.high, none⟩) := by unfold decodeMatrix; rw [show w / 16777216 % 256 = 249 from hop]; rfl
    show decodeMatrix w ⟨n.high, none⟩ = _
    rw [hm]
    unfold decFinc
    simp only [need, f0, f1, f2, if_true, decide_true, Option.isNone, Option.isSome, Bool.and_self, Option.getD]
    rfl
  · have hm : decodeCopy w ⟨n.high, none⟩ = (decFinc .x w ⟨n.high, none⟩) := by unfold decodeCopy; rw [show w / 16777216 % 256 = 249 from hop]; rfl
    show decodeCopy w ⟨n.high, none⟩ = _
    rw [hm]
    unfold decFinc
    simp only [need, f0, f1, f2, if_true, decide_true, Option.isNone, Option.isSome, Bool.and_self, Option.getD]
    rfl

theorem decodeLane_fwait (e : Engine) (f : FReg) (sub : Bool) (n : Imm 18)
    (hwf : (true) = true) (w : Nat) (hw : 4194304000 + f.toNat * 524288 + sub.toNat * 262144 + n.low.toNat * 1 = w) :
    decodeLane e w ⟨n.high, none⟩ = .ok (.fwait e f sub n) := by
  have d0 : w / 2 ^ 0 = ((250 * 2 ^ 5 + f.toNat) * 2 ^ 1 + sub.toNat) * 2 ^ 18 + n.low.toNat := by omega
  have d1 := div_next d0 n.low.isLt
  have d2 := div_next d1 (Bool.toNat_lt sub)
  have hop := congrArg (· % 256) (div_next d2 f.isLt)
  have f0 : fld 5 19 w = f := fld_at d2
  have f1 : decide (fld 1 18 w = 1#1) = sub := fld_bool (mod_at d1 (Bool.toNat_lt sub))
  have f2 : fld 18 0 w = n.low := fld_at d0
  clear hw d0 d1 d2
  cases e
  · have hm : decodeControl w ⟨n.high, none⟩ = (decFwait .c w ⟨n.high, none⟩) := by unfold decodeControl; rw [show w / 16777216 % 256 = 250 from hop]; rfl
    show decodeControl w ⟨n.high, none⟩ = _
    rw [hm]
    unfold decFwait
    simp only [need, f0, f1, f2, if_true, decide_true, Option.isNone, Option.isSome, Bool.and_self, Option.getD]
    rfl
  · have hm : decodeAccess w ⟨n.high, none⟩ = (decFwait .a w ⟨n.high, none⟩) := by unfold decodeAccess; rw [show w / 16777216 % 256 = 250 from hop]; rfl
    show decodeAccess w ⟨n.high, none⟩ = _
    rw [hm]
    unfold decFwait
    simp only [need, f0, f1, f2, if_true, decide_true, Option.isNone, Option.isSome, Bool.and_self, Option.getD]
    rfl
  · have hm : decodeVector w ⟨n.high, none⟩ = (decFwait .v w ⟨n.high, none⟩) := by unfold decodeVector; rw [show w / 16777216 % 256 = 250 from hop]; rfl
    show decodeVector w ⟨n.high, none⟩ = _
    rw [hm]
    unfold decFwait
    simp only [need, f0, f1, f2, if_true, decide_true, Option.isNone, Option.isSome, Bool.and_self, Option.getD]
    rfl
  · have hm : decodeMatrix w ⟨n.high, none⟩ = (decFwait .m w ⟨n.high, none⟩) := by unfold decodeMatrix; rw [show w / 16777216 % 256 = 250 from hop]; rfl
    show decodeMatrix w ⟨n.high, none⟩ = _
    rw [hm]
    unfold decFwait
    simp only [need, f0, f1, f2, if_true, decide_true, Option.isNone, Option.isSome, Bool.and_self, Option.getD]
    rfl
  · have hm : decodeCopy w ⟨n.high, none⟩ = (decFwait .x w ⟨n.high, none⟩) := by unfold decodeCopy; rw [show w / 16777216 % 256 = 250 from hop]; rfl
    show decodeCopy w ⟨n.high, none⟩ = _
    rw [hm]
    unfold decFwait
    simp only [need, f0, f1, f2, if_true, decide_true, Option.isNone, Option.isSome, Bool.and_self, Option.getD]
    rfl

theorem decodeLane_fset (e : Engine) (f : FReg) (n : Imm 18)
    (hwf : (true) = true) (w : Nat) (hw : 4211081216 + f.toNat * 524288 + n.low.toNat * 1 = w) :
    decodeLane e w ⟨n.high, none⟩ = .ok (.fset e f n) := by
  have d0 : w / 2 ^ 0 = ((251 * 2 ^ 5 + f.toNat) * 2 ^ 1 + 0) * 2 ^ 18 + n.low.toNat := by omega
  have d1 := div_next d0 n.low.isLt
  have d2 := div_next d1 (by decide)
  have hop := congrArg (· % 256) (div_next d2 f.isLt)
  have f0 : fld 5 19 w = f := fld_at d2
  have f1 : fld 18 0 w = n.low := fld_at d0
  have f2 : fld 1 18 w = 0#1 := fld_num d1
  clear hw d0 d1 d2
  cases e
  · have hm : decodeControl w ⟨n.high, none⟩ = (decFset .c w ⟨n.high, none⟩) := by unfold decodeControl; rw [show w / 16777216 % 256 = 251 from hop]; rfl
    show decodeControl w ⟨n.high, none⟩ = _
    rw [hm]
    unfold decFset
    simp only [need, f0, f1, f2, if_true, decide_true, Option.isNone, Option.isSome, Bool.and_self, Option.getD]
    rfl
  · have hm : decodeAccess w ⟨n.high, none⟩ = (decFset .a w ⟨n.high, none⟩) := by unfold decodeAccess; rw [show w / 16777216 % 256 = 251 from hop]; rfl
    show decodeAccess w ⟨n.high, none⟩ = _
    rw [hm]
    unfold decFset
    simp only [need, f0, f1, f2, if_true, decide_true, Option.isNone, Option.isSome, Bool.and_self, Option.getD]
    rfl
  · have hm : decodeVector w ⟨n.high, none⟩ = (decFset .v w ⟨n.high, none⟩) := by unfold decodeVector; rw [show w / 16777216 % 256 = 251 from hop]; rfl
    show decodeVector w ⟨n.high, none⟩ = _
    rw [hm]
    unfold decFset
    simp only [need, f0, f1, f2, if_true, decide_true, Option.isNone, Option.isSome, Bool.and_self, Option.getD]
    rfl
  · have hm : decodeMatrix w ⟨n.high, none⟩ = (decFset .m w ⟨n.high, none⟩) := by unfold decodeMatrix; rw [show w / 16777216 % 256 = 251 from hop]; rfl
    show decodeMatrix w ⟨n.high, none⟩ = _
    rw [hm]
    unfold decFset
    simp only [need, f0, f1, f2, if_true, decide_true, Option.isNone, Option.isSome, Bool.and_self, Option.getD]
    rfl
  · have hm : decodeCopy w ⟨n.high, none⟩ = (decFset .x w ⟨n.high, none⟩) := by unfold decodeCopy; rw [show w / 16777216 % 256 = 251 from hop]; rfl
    show decodeCopy w ⟨n.high, none⟩ = _
    rw [hm]
    unfold decFset
    simp only [need, f0, f1, f2, if_true, decide_true, Option.isNone, Option.isSome, Bool.and_self, Option.getD]
    rfl

theorem decodeLane_kwait (e : Engine) (k : KReg) (n : Imm 6)
    (hwf : (true) = true) (w : Nat) (hw : 4227858432 + k.toNat * 2097152 + n.low.toNat * 32768 = w) :
    decodeLane e w ⟨n.high, none⟩ = .ok (.kwait e k n) := by
  have d0 : w / 2 ^ 0 = ((252 * 2 ^ 3 + k.toNat) * 2 ^ 6 + n.low.toNat) * 2 ^ 15 + 0 := by omega
  have d1 := div_next d0 (by decide)
  have d2 := div_next d1 n.low.isLt
  have hop := congrArg (· % 256) (div_next d2 k.isLt)
  have f0 : fld 3 21 w = k := fld_at d2
  have f1 : fld 6 15 w = n.low := fld_at d1
  have f2 : fld 15 0 w = 0#15 := fld_num d0
  clear hw d0 d1 d2
  cases e
  · have hm : decodeControl w ⟨n.high, none⟩ = (decKwait .c w ⟨n.high, none⟩) := by unfold decodeControl; rw [show w / 16777216 % 256 = 252 from hop]; rfl
    show decodeControl w ⟨n.high, none⟩ = _
    rw [hm]
    unfold decKwait
    simp only [need, f0, f1, f2, if_true, decide_true, Option.isNone, Option.isSome, Bool.and_self, Option.getD]
    rfl
  · have hm : decodeAccess w ⟨n.high, none⟩ = (decKwait .a w ⟨n.high, none⟩) := by unfold decodeAccess; rw [show w / 16777216 % 256 = 252 from hop]; rfl
    show decodeAccess w ⟨n.high, none⟩ = _
    rw [hm]
    unfold decKwait
    simp only [need, f0, f1, f2, if_true, decide_true, Option.isNone, Option.isSome, Bool.and_self, Option.getD]
    rfl
  · have hm : decodeVector w ⟨n.high, none⟩ = (decKwait .v w ⟨n.high, none⟩) := by unfold decodeVector; rw [show w / 16777216 % 256 = 252 from hop]; rfl
    show decodeVector w ⟨n.high, none⟩ = _
    rw [hm]
    unfold decKwait
    simp only [need, f0, f1, f2, if_true, decide_true, Option.isNone, Option.isSome, Bool.and_self, Option.getD]
    rfl
  · have hm : decodeMatrix w ⟨n.high, none⟩ = (decKwait .m w ⟨n.high, none⟩) := by unfold decodeMatrix; rw [show w / 16777216 % 256 = 252 from hop]; rfl
    show decodeMatrix w ⟨n.high, none⟩ = _
    rw [hm]
    unfold decKwait
    simp only [need, f0, f1, f2, if_true, decide_true, Option.isNone, Option.isSome, Bool.and_self, Option.getD]
    rfl
  · have hm : decodeCopy w ⟨n.high, none⟩ = (decKwait .x w ⟨n.high, none⟩) := by unfold decodeCopy; rw [show w / 16777216 % 256 = 252 from hop]; rfl
    show decodeCopy w ⟨n.high, none⟩ = _
    rw [hm]
    unfold decKwait
    simp only [need, f0, f1, f2, if_true, decide_true, Option.isNone, Option.isSome, Bool.and_self, Option.getD]
    rfl

theorem decodeLane_add (rd : CReg) (s1 : CSrc) (s2 : CSrc)
    (hwf : (decide (s1.toNat < 36) && decide (s2.toNat < 36)) = true) (w : Nat) (hw : 16777216 + rd.toNat * 524288 + s1.toNat * 8192 + s2.toNat * 64 = w) :
    decodeLane .c w ⟨none, none⟩ = .ok (.add rd s1 s2) := by
  have d0 : w / 2 ^ 0 = ((((1 * 2 ^ 5 + rd.toNat) * 2 ^ 6 + s1.toNat) * 2 ^ 1 + 0) * 2 ^ 6 + s2.toNat) * 2 ^ 6 + 0 := by omega
  have d1 := div_next d0 (by decide)
  have d2 := div_next d1 s2.isLt
  have d3 := div_next d2 (by decide)
  have d4 := div_next d3 s1.isLt
  have hop := congrArg (· % 256) (div_next d4 rd.isLt)
  have f0 : fld 5 19 w = rd := fld_at d4
  have f1 : fld 6 13 w = s1 := fld_at d3
  have f2 : fld 6 6 w = s2 := fld_at d1
  have f3 : fld 6 0 w = 0#6 := fld_num d0
  have f4 : fld 1 12 w = 0#1 := fld_num d2
  clear hw d0 d1 d2 d3 d4
  simp only [Bool.and_eq_true] at hwf
  obtain ⟨w1, w2⟩ := hwf
  have hm : decodeControl w ⟨none, none⟩ = (if fld 1 12 w = 0#1 then decAdd w ⟨none, none⟩ else decAddImm w ⟨none, none⟩) := by unfold decodeControl; rw [show w / 16777216 % 256 = 1 from hop]; rfl
  show decodeControl w ⟨none, none⟩ = _
  rw [hm]
  simp only [f3, f4, if_true, reduceCtorEq, Option.isSome, Bool.false_eq_true, if_false, BitVec.reduceEq, ↓reduceIte]
  unfold decAdd
  simp only [need, f0, f1, f2, f3, f4, w1, w2, if_true, decide_true, Option.isNone, Option.isSome, Bool.and_self, Option.getD]
  rfl

theorem decodeLane_addImm (rd : CReg) (s1 : CSrc) (imm : Imm 12)
    (hwf : (decide (s1.toNat < 36)) = true) (w : Nat) (hw : 16781312 + rd.toNat * 524288 + s1.toNat * 8192 + imm.low.toNat * 1 = w) :
    decodeLane .c w ⟨imm.high, none⟩ = .ok (.addImm rd s1 imm) := by
  have d0 : w / 2 ^ 0 = (((1 * 2 ^ 5 + rd.toNat) * 2 ^ 6 + s1.toNat) * 2 ^ 1 + 1) * 2 ^ 12 + imm.low.toNat := by omega
  have d1 := div_next d0 imm.low.isLt
  have d2 := div_next d1 (by decide)
  have d3 := div_next d2 s1.isLt
  have hop := congrArg (· % 256) (div_next d3 rd.isLt)
  have f0 : fld 5 19 w = rd := fld_at d3
  have f1 : fld 6 13 w = s1 := fld_at d2
  have f2 : fld 12 0 w = imm.low := fld_at d0
  have f3 : fld 1 12 w = 1#1 := fld_num d1
  clear hw d0 d1 d2 d3
  have hm : decodeControl w ⟨imm.high, none⟩ = (if fld 1 12 w = 0#1 then decAdd w ⟨imm.high, none⟩ else decAddImm w ⟨imm.high, none⟩) := by unfold decodeControl; rw [show w / 16777216 % 256 = 1 from hop]; rfl
  show decodeControl w ⟨imm.high, none⟩ = _
  rw [hm]
  simp only [f3, if_true, reduceCtorEq, Option.isSome, Bool.false_eq_true, if_false, BitVec.reduceEq, ↓reduceIte]
  unfold decAddImm
  simp only [need, f0, f1, f2, f3, hwf, if_true, decide_true, Option.isNone, Option.isSome, Bool.and_self, Option.getD]
  rfl

theorem decodeLane_sub (rd : CReg) (s1 : CSrc) (s2 : CSrc)
    (hwf : (decide (s1.toNat < 36) && decide (s2.toNat < 36)) = true) (w : Nat) (hw : 33554432 + rd.toNat * 524288 + s1.toNat * 8192 + s2.toNat * 64 = w) :
    decodeLane .c w ⟨none, none⟩ = .ok (.sub rd s1 s2) := by
  have d0 : w / 2 ^ 0 = ((((2 * 2 ^ 5 + rd.toNat) * 2 ^ 6 + s1.toNat) * 2 ^ 1 + 0) * 2 ^ 6 + s2.toNat) * 2 ^ 6 + 0 := by omega
  have d1 := div_next d0 (by decide)
  have d2 := div_next d1 s2.isLt
  have d3 := div_next d2 (by decide)
  have d4 := div_next d3 s1.isLt
  have hop := congrArg (· % 256) (div_next d4 rd.isLt)
  have f0 : fld 5 19 w = rd := fld_at d4
  have f1 : fld 6 13 w = s1 := fld_at d3
  have f2 : fld 6 6 w = s2 := fld_at d1
  have f3 : fld 6 0 w = 0#6 := fld_num d0
  have f4 : fld 1 12 w = 0#1 := fld_num d2
  clear hw d0 d1 d2 d3 d4
  simp only [Bool.and_eq_true] at hwf
  obtain ⟨w1, w2⟩ := hwf
  have hm : decodeControl w ⟨none, none⟩ = (if fld 1 12 w = 0#1 then decSub w ⟨none, none⟩ else decSubImm w ⟨none, none⟩) := by unfold decodeControl; rw [show w / 16777216 % 256 = 2 from hop]; rfl
  show decodeControl w ⟨none, none⟩ = _
  rw [hm]
  simp only [f3, f4, if_true, reduceCtorEq, Option.isSome, Bool.false_eq_true, if_false, BitVec.reduceEq, ↓reduceIte]
  unfold decSub
  simp only [need, f0, f1, f2, f3, f4, w1, w2, if_true, decide_true, Option.isNone, Option.isSome, Bool.and_self, Option.getD]
  rfl

theorem decodeLane_subImm (rd : CReg) (s1 : CSrc) (imm : Imm 12)
    (hwf : (decide (s1.toNat < 36)) = true) (w : Nat) (hw : 33558528 + rd.toNat * 524288 + s1.toNat * 8192 + imm.low.toNat * 1 = w) :
    decodeLane .c w ⟨imm.high, none⟩ = .ok (.subImm rd s1 imm) := by
  have d0 : w / 2 ^ 0 = (((2 * 2 ^ 5 + rd.toNat) * 2 ^ 6 + s1.toNat) * 2 ^ 1 + 1) * 2 ^ 12 + imm.low.toNat := by omega
  have d1 := div_next d0 imm.low.isLt
  have d2 := div_next d1 (by decide)
  have d3 := div_next d2 s1.isLt
  have hop := congrArg (· % 256) (div_next d3 rd.isLt)
  have f0 : fld 5 19 w = rd := fld_at d3
  have f1 : fld 6 13 w = s1 := fld_at d2
  have f2 : fld 12 0 w = imm.low := fld_at d0
  have f3 : fld 1 12 w = 1#1 := fld_num d1
  clear hw d0 d1 d2 d3
  have hm : decodeControl w ⟨imm.high, none⟩ = (if fld 1 12 w = 0#1 then decSub w ⟨imm.high, none⟩ else decSubImm w ⟨imm.high, none⟩) := by unfold decodeControl; rw [show w / 16777216 % 256 = 2 from hop]; rfl
  show decodeControl w ⟨imm.high, none⟩ = _
  rw [hm]
  simp only [f3, if_true, reduceCtorEq, Option.isSome, Bool.false_eq_true, if_false, BitVec.reduceEq, ↓reduceIte]
  unfold decSubImm
  simp only [need, f0, f1, f2, f3, hwf, if_true, decide_true, Option.isNone, Option.isSome, Bool.and_self, Option.getD]
  rfl

theorem decodeLane_mul (rd : CReg) (s1 : CSrc) (s2 : CSrc)
    (hwf : (decide (s1.toNat < 36) && decide (s2.toNat < 36)) = true) (w : Nat) (hw : 50331648 + rd.toNat * 524288 + s1.toNat * 8192 + s2.toNat * 64 = w) :
    decodeLane .c w ⟨none, none⟩ = .ok (.mul rd s1 s2) := by
  have d0 : w / 2 ^ 0 = ((((3 * 2 ^ 5 + rd.toNat) * 2 ^ 6 + s1.toNat) * 2 ^ 1 + 0) * 2 ^ 6 + s2.toNat) * 2 ^ 6 + 0 := by omega
  have d1 := div_next d0 (by decide)
  have d2 := div_next d1 s2.isLt
  have d3 := div_next d2 (by decide)
  have d4 := div_next d3 s1.isLt
  have hop := congrArg (· % 256) (div_next d4 rd.isLt)
  have f0 : fld 5 19 w = rd := fld_at d4
  have f1 : fld 6 13 w = s1 := fld_at d3
  have f2 : fld 6 6 w = s2 := fld_at d1
  have f3 : fld 6 0 w = 0#6 := fld_num d0
  have f4 : fld 1 12 w = 0#1 := fld_num d2
  clear hw d0 d1 d2 d3 d4
  simp only [Bool.and_eq_true] at hwf
  obtain ⟨w1, w2⟩ := hwf
  have hm : decodeControl w ⟨none, none⟩ = (if fld 1 12 w = 0#1 then decMul w ⟨none, none⟩ else decMulImm w ⟨none, none⟩) := by unfold decodeControl; rw [show w / 16777216 % 256 = 3 from hop]; rfl
  show decodeControl w ⟨none, none⟩ = _
  rw [hm]
  simp only [f3, f4, if_true, reduceCtorEq, Option.isSome, Bool.false_eq_true, if_false, BitVec.reduceEq, ↓reduceIte]
  unfold decMul
  simp only [need, f0, f1, f2, f3, f4, w1, w2, if_true, decide_true, Option.isNone, Option.isSome, Bool.and_self, Option.getD]
  rfl

theorem decodeLane_mulImm (rd : CReg) (s1 : CSrc) (imm : Imm 12)
    (hwf : (decide (s1.toNat < 36)) = true) (w : Nat) (hw : 50335744 + rd.toNat * 524288 + s1.toNat * 8192 + imm.low.toNat * 1 = w) :
    decodeLane .c w ⟨imm.high, none⟩ = .ok (.mulImm rd s1 imm) := by
  have d0 : w / 2 ^ 0 = (((3 * 2 ^ 5 + rd.toNat) * 2 ^ 6 + s1.toNat) * 2 ^ 1 + 1) * 2 ^ 12 + imm.low.toNat := by omega
  have d1 := div_next d0 imm.low.isLt
  have d2 := div_next d1 (by decide)
  have d3 := div_next d2 s1.isLt
  have hop := congrArg (· % 256) (div_next d3 rd.isLt)
  have f0 : fld 5 19 w = rd := fld_at d3
  have f1 : fld 6 13 w = s1 := fld_at d2
  have f2 : fld 12 0 w = imm.low := fld_at d0
  have f3 : fld 1 12 w = 1#1 := fld_num d1
  clear hw d0 d1 d2 d3
  have hm : decodeControl w ⟨imm.high, none⟩ = (if fld 1 12 w = 0#1 then decMul w ⟨imm.high, none⟩ else decMulImm w ⟨imm.high, none⟩) := by unfold decodeControl; rw [show w / 16777216 % 256 = 3 from hop]; rfl
  show decodeControl w ⟨imm.high, none⟩ = _
  rw [hm]
  simp only [f3, if_true, reduceCtorEq, Option.isSome, Bool.false_eq_true, if_false, BitVec.reduceEq, ↓reduceIte]
  unfold decMulImm
  simp only [need, f0, f1, f2, f3, hwf, if_true, decide_true, Option.isNone, Option.isSome, Bool.and_self, Option.getD]
  rfl

theorem decodeLane_mulhu (rd : CReg) (s1 : CSrc) (s2 : CSrc)
    (hwf : (decide (s1.toNat < 36) && decide (s2.toNat < 36)) = true) (w : Nat) (hw : 67108864 + rd.toNat * 524288 + s1.toNat * 8192 + s2.toNat * 64 = w) :
    decodeLane .c w ⟨none, none⟩ = .ok (.mulhu rd s1 s2) := by
  have d0 : w / 2 ^ 0 = ((((4 * 2 ^ 5 + rd.toNat) * 2 ^ 6 + s1.toNat) * 2 ^ 1 + 0) * 2 ^ 6 + s2.toNat) * 2 ^ 6 + 0 := by omega
  have d1 := div_next d0 (by decide)
  have d2 := div_next d1 s2.isLt
  have d3 := div_next d2 (by decide)
  have d4 := div_next d3 s1.isLt
  have hop := congrArg (· % 256) (div_next d4 rd.isLt)
  have f0 : fld 5 19 w = rd := fld_at d4
  have f1 : fld 6 13 w = s1 := fld_at d3
  have f2 : fld 6 6 w = s2 := fld_at d1
  have f3 : fld 6 0 w = 0#6 := fld_num d0
  have f4 : fld 1 12 w = 0#1 := fld_num d2
  clear hw d0 d1 d2 d3 d4
  simp only [Bool.and_eq_true] at hwf
  obtain ⟨w1, w2⟩ := hwf
  have hm : decodeControl w ⟨none, none⟩ = (if fld 1 12 w = 0#1 then decMulhu w ⟨none, none⟩ else decMulhuImm w ⟨none, none⟩) := by unfold decodeControl; rw [show w / 16777216 % 256 = 4 from hop]; rfl
  show decodeControl w ⟨none, none⟩ = _
  rw [hm]
  simp only [f3, f4, if_true, reduceCtorEq, Option.isSome, Bool.false_eq_true, if_false, BitVec.reduceEq, ↓reduceIte]
  unfold decMulhu
  simp only [need, f0, f1, f2, f3, f4, w1, w2, if_true, decide_true, Option.isNone, Option.isSome, Bool.and_self, Option.getD]
  rfl

theorem decodeLane_mulhuImm (rd : CReg) (s1 : CSrc) (imm : Imm 12)
    (hwf : (decide (s1.toNat < 36)) = true) (w : Nat) (hw : 67112960 + rd.toNat * 524288 + s1.toNat * 8192 + imm.low.toNat * 1 = w) :
    decodeLane .c w ⟨imm.high, none⟩ = .ok (.mulhuImm rd s1 imm) := by
  have d0 : w / 2 ^ 0 = (((4 * 2 ^ 5 + rd.toNat) * 2 ^ 6 + s1.toNat) * 2 ^ 1 + 1) * 2 ^ 12 + imm.low.toNat := by omega
  have d1 := div_next d0 imm.low.isLt
  have d2 := div_next d1 (by decide)
  have d3 := div_next d2 s1.isLt
  have hop := congrArg (· % 256) (div_next d3 rd.isLt)
  have f0 : fld 5 19 w = rd := fld_at d3
  have f1 : fld 6 13 w = s1 := fld_at d2
  have f2 : fld 12 0 w = imm.low := fld_at d0
  have f3 : fld 1 12 w = 1#1 := fld_num d1
  clear hw d0 d1 d2 d3
  have hm : decodeControl w ⟨imm.high, none⟩ = (if fld 1 12 w = 0#1 then decMulhu w ⟨imm.high, none⟩ else decMulhuImm w ⟨imm.high, none⟩) := by unfold decodeControl; rw [show w / 16777216 % 256 = 4 from hop]; rfl
  show decodeControl w ⟨imm.high, none⟩ = _
  rw [hm]
  simp only [f3, if_true, reduceCtorEq, Option.isSome, Bool.false_eq_true, if_false, BitVec.reduceEq, ↓reduceIte]
  unfold decMulhuImm
  simp only [need, f0, f1, f2, f3, hwf, if_true, decide_true, Option.isNone, Option.isSome, Bool.and_self, Option.getD]
  rfl

theorem decodeLane_mulhs (rd : CReg) (s1 : CSrc) (s2 : CSrc)
    (hwf : (decide (s1.toNat < 36) && decide (s2.toNat < 36)) = true) (w : Nat) (hw : 83886080 + rd.toNat * 524288 + s1.toNat * 8192 + s2.toNat * 64 = w) :
    decodeLane .c w ⟨none, none⟩ = .ok (.mulhs rd s1 s2) := by
  have d0 : w / 2 ^ 0 = ((((5 * 2 ^ 5 + rd.toNat) * 2 ^ 6 + s1.toNat) * 2 ^ 1 + 0) * 2 ^ 6 + s2.toNat) * 2 ^ 6 + 0 := by omega
  have d1 := div_next d0 (by decide)
  have d2 := div_next d1 s2.isLt
  have d3 := div_next d2 (by decide)
  have d4 := div_next d3 s1.isLt
  have hop := congrArg (· % 256) (div_next d4 rd.isLt)
  have f0 : fld 5 19 w = rd := fld_at d4
  have f1 : fld 6 13 w = s1 := fld_at d3
  have f2 : fld 6 6 w = s2 := fld_at d1
  have f3 : fld 6 0 w = 0#6 := fld_num d0
  have f4 : fld 1 12 w = 0#1 := fld_num d2
  clear hw d0 d1 d2 d3 d4
  simp only [Bool.and_eq_true] at hwf
  obtain ⟨w1, w2⟩ := hwf
  have hm : decodeControl w ⟨none, none⟩ = (if fld 1 12 w = 0#1 then decMulhs w ⟨none, none⟩ else decMulhsImm w ⟨none, none⟩) := by unfold decodeControl; rw [show w / 16777216 % 256 = 5 from hop]; rfl
  show decodeControl w ⟨none, none⟩ = _
  rw [hm]
  simp only [f3, f4, if_true, reduceCtorEq, Option.isSome, Bool.false_eq_true, if_false, BitVec.reduceEq, ↓reduceIte]
  unfold decMulhs
  simp only [need, f0, f1, f2, f3, f4, w1, w2, if_true, decide_true, Option.isNone, Option.isSome, Bool.and_self, Option.getD]
  rfl

theorem decodeLane_mulhsImm (rd : CReg) (s1 : CSrc) (imm : Imm 12)
    (hwf : (decide (s1.toNat < 36)) = true) (w : Nat) (hw : 83890176 + rd.toNat * 524288 + s1.toNat * 8192 + imm.low.toNat * 1 = w) :
    decodeLane .c w ⟨imm.high, none⟩ = .ok (.mulhsImm rd s1 imm) := by
  have d0 : w / 2 ^ 0 = (((5 * 2 ^ 5 + rd.toNat) * 2 ^ 6 + s1.toNat) * 2 ^ 1 + 1) * 2 ^ 12 + imm.low.toNat := by omega
  have d1 := div_next d0 imm.low.isLt
  have d2 := div_next d1 (by decide)
  have d3 := div_next d2 s1.isLt
  have hop := congrArg (· % 256) (div_next d3 rd.isLt)
  have f0 : fld 5 19 w = rd := fld_at d3
  have f1 : fld 6 13 w = s1 := fld_at d2
  have f2 : fld 12 0 w = imm.low := fld_at d0
  have f3 : fld 1 12 w = 1#1 := fld_num d1
  clear hw d0 d1 d2 d3
  have hm : decodeControl w ⟨imm.high, none⟩ = (if fld 1 12 w = 0#1 then decMulhs w ⟨imm.high, none⟩ else decMulhsImm w ⟨imm.high, none⟩) := by unfold decodeControl; rw [show w / 16777216 % 256 = 5 from hop]; rfl
  show decodeControl w ⟨imm.high, none⟩ = _
  rw [hm]
  simp only [f3, if_true, reduceCtorEq, Option.isSome, Bool.false_eq_true, if_false, BitVec.reduceEq, ↓reduceIte]
  unfold decMulhsImm
  simp only [need, f0, f1, f2, f3, hwf, if_true, decide_true, Option.isNone, Option.isSome, Bool.and_self, Option.getD]
  rfl

theorem decodeLane_divu (rd : CReg) (s1 : CSrc) (s2 : CSrc)
    (hwf : (decide (s1.toNat < 36) && decide (s2.toNat < 36)) = true) (w : Nat) (hw : 100663296 + rd.toNat * 524288 + s1.toNat * 8192 + s2.toNat * 64 = w) :
    decodeLane .c w ⟨none, none⟩ = .ok (.divu rd s1 s2) := by
  have d0 : w / 2 ^ 0 = ((((6 * 2 ^ 5 + rd.toNat) * 2 ^ 6 + s1.toNat) * 2 ^ 1 + 0) * 2 ^ 6 + s2.toNat) * 2 ^ 6 + 0 := by omega
  have d1 := div_next d0 (by decide)
  have d2 := div_next d1 s2.isLt
  have d3 := div_next d2 (by decide)
  have d4 := div_next d3 s1.isLt
  have hop := congrArg (· % 256) (div_next d4 rd.isLt)
  have f0 : fld 5 19 w = rd := fld_at d4
  have f1 : fld 6 13 w = s1 := fld_at d3
  have f2 : fld 6 6 w = s2 := fld_at d1
  have f3 : fld 6 0 w = 0#6 := fld_num d0
  have f4 : fld 1 12 w = 0#1 := fld_num d2
  clear hw d0 d1 d2 d3 d4
  simp only [Bool.and_eq_true] at hwf
  obtain ⟨w1, w2⟩ := hwf
  have hm : decodeControl w ⟨none, none⟩ = (if fld 1 12 w = 0#1 then decDivu w ⟨none, none⟩ else decDivuImm w ⟨none, none⟩) := by unfold decodeControl; rw [show w / 16777216 % 256 = 6 from hop]; rfl
  show decodeControl w ⟨none, none⟩ = _
  rw [hm]
  simp only [f3, f4, if_true, reduceCtorEq, Option.isSome, Bool.false_eq_true, if_false, BitVec.reduceEq, ↓reduceIte]
  unfold decDivu
  simp only [need, f0, f1, f2, f3, f4, w1, w2, if_true, decide_true, Option.isNone, Option.isSome, Bool.and_self, Option.getD]
  rfl

theorem decodeLane_divuImm (rd : CReg) (s1 : CSrc) (imm : Imm 12)
    (hwf : (decide (s1.toNat < 36)) = true) (w : Nat) (hw : 100667392 + rd.toNat * 524288 + s1.toNat * 8192 + imm.low.toNat * 1 = w) :
    decodeLane .c w ⟨imm.high, none⟩ = .ok (.divuImm rd s1 imm) := by
  have d0 : w / 2 ^ 0 = (((6 * 2 ^ 5 + rd.toNat) * 2 ^ 6 + s1.toNat) * 2 ^ 1 + 1) * 2 ^ 12 + imm.low.toNat := by omega
  have d1 := div_next d0 imm.low.isLt
  have d2 := div_next d1 (by decide)
  have d3 := div_next d2 s1.isLt
  have hop := congrArg (· % 256) (div_next d3 rd.isLt)
  have f0 : fld 5 19 w = rd := fld_at d3
  have f1 : fld 6 13 w = s1 := fld_at d2
  have f2 : fld 12 0 w = imm.low := fld_at d0
  have f3 : fld 1 12 w = 1#1 := fld_num d1
  clear hw d0 d1 d2 d3
  have hm : decodeControl w ⟨imm.high, none⟩ = (if fld 1 12 w = 0#1 then decDivu w ⟨imm.high, none⟩ else decDivuImm w ⟨imm.high, none⟩) := by unfold decodeControl; rw [show w / 16777216 % 256 = 6 from hop]; rfl
  show decodeControl w ⟨imm.high, none⟩ = _
  rw [hm]
  simp only [f3, if_true, reduceCtorEq, Option.isSome, Bool.false_eq_true, if_false, BitVec.reduceEq, ↓reduceIte]
  unfold decDivuImm
  simp only [need, f0, f1, f2, f3, hwf, if_true, decide_true, Option.isNone, Option.isSome, Bool.and_self, Option.getD]
  rfl

theorem decodeLane_divs (rd : CReg) (s1 : CSrc) (s2 : CSrc)
    (hwf : (decide (s1.toNat < 36) && decide (s2.toNat < 36)) = true) (w : Nat) (hw : 117440512 + rd.toNat * 524288 + s1.toNat * 8192 + s2.toNat * 64 = w) :
    decodeLane .c w ⟨none, none⟩ = .ok (.divs rd s1 s2) := by
  have d0 : w / 2 ^ 0 = ((((7 * 2 ^ 5 + rd.toNat) * 2 ^ 6 + s1.toNat) * 2 ^ 1 + 0) * 2 ^ 6 + s2.toNat) * 2 ^ 6 + 0 := by omega
  have d1 := div_next d0 (by decide)
  have d2 := div_next d1 s2.isLt
  have d3 := div_next d2 (by decide)
  have d4 := div_next d3 s1.isLt
  have hop := congrArg (· % 256) (div_next d4 rd.isLt)
  have f0 : fld 5 19 w = rd := fld_at d4
  have f1 : fld 6 13 w = s1 := fld_at d3
  have f2 : fld 6 6 w = s2 := fld_at d1
  have f3 : fld 6 0 w = 0#6 := fld_num d0
  have f4 : fld 1 12 w = 0#1 := fld_num d2
  clear hw d0 d1 d2 d3 d4
  simp only [Bool.and_eq_true] at hwf
  obtain ⟨w1, w2⟩ := hwf
  have hm : decodeControl w ⟨none, none⟩ = (if fld 1 12 w = 0#1 then decDivs w ⟨none, none⟩ else decDivsImm w ⟨none, none⟩) := by unfold decodeControl; rw [show w / 16777216 % 256 = 7 from hop]; rfl
  show decodeControl w ⟨none, none⟩ = _
  rw [hm]
  simp only [f3, f4, if_true, reduceCtorEq, Option.isSome, Bool.false_eq_true, if_false, BitVec.reduceEq, ↓reduceIte]
  unfold decDivs
  simp only [need, f0, f1, f2, f3, f4, w1, w2, if_true, decide_true, Option.isNone, Option.isSome, Bool.and_self, Option.getD]
  rfl

theorem decodeLane_divsImm (rd : CReg) (s1 : CSrc) (imm : Imm 12)
    (hwf : (decide (s1.toNat < 36)) = true) (w : Nat) (hw : 117444608 + rd.toNat * 524288 + s1.toNat * 8192 + imm.low.toNat * 1 = w) :
    decodeLane .c w ⟨imm.high, none⟩ = .ok (.divsImm rd s1 imm) := by
  have d0 : w / 2 ^ 0 = (((7 * 2 ^ 5 + rd.toNat) * 2 ^ 6 + s1.toNat) * 2 ^ 1 + 1) * 2 ^ 12 + imm.low.toNat := by omega
  have d1 := div_next d0 imm.low.isLt
  have d2 := div_next d1 (by decide)
  have d3 := div_next d2 s1.isLt
  have hop := congrArg (· % 256) (div_next d3 rd.isLt)
  have f0 : fld 5 19 w = rd := fld_at d3
  have f1 : fld 6 13 w = s1 := fld_at d2
  have f2 : fld 12 0 w = imm.low := fld_at d0
  have f3 : fld 1 12 w = 1#1 := fld_num d1
  clear hw d0 d1 d2 d3
  have hm : decodeControl w ⟨imm.high, none⟩ = (if fld 1 12 w = 0#1 then decDivs w ⟨imm.high, none⟩ else decDivsImm w ⟨imm.high, none⟩) := by unfold decodeControl; rw [show w / 16777216 % 256 = 7 from hop]; rfl
  show decodeControl w ⟨imm.high, none⟩ = _
  rw [hm]
  simp only [f3, if_true, reduceCtorEq, Option.isSome, Bool.false_eq_true, if_false, BitVec.reduceEq, ↓reduceIte]
  unfold decDivsImm
  simp only [need, f0, f1, f2, f3, hwf, if_true, decide_true, Option.isNone, Option.isSome, Bool.and_self, Option.getD]
  rfl

theorem decodeLane_remu (rd : CReg) (s1 : CSrc) (s2 : CSrc)
    (hwf : (decide (s1.toNat < 36) && decide (s2.toNat < 36)) = true) (w : Nat) (hw : 134217728 + rd.toNat * 524288 + s1.toNat * 8192 + s2.toNat * 64 = w) :
    decodeLane .c w ⟨none, none⟩ = .ok (.remu rd s1 s2) := by
  have d0 : w / 2 ^ 0 = ((((8 * 2 ^ 5 + rd.toNat) * 2 ^ 6 + s1.toNat) * 2 ^ 1 + 0) * 2 ^ 6 + s2.toNat) * 2 ^ 6 + 0 := by omega
  have d1 := div_next d0 (by decide)
  have d2 := div_next d1 s2.isLt
  have d3 := div_next d2 (by decide)
  have d4 := div_next d3 s1.isLt
  have hop := congrArg (· % 256) (div_next d4 rd.isLt)
  have f0 : fld 5 19 w = rd := fld_at d4
  have f1 : fld 6 13 w = s1 := fld_at d3
  have f2 : fld 6 6 w = s2 := fld_at d1
  have f3 : fld 6 0 w = 0#6 := fld_num d0
  have f4 : fld 1 12 w = 0#1 := fld_num d2
  clear hw d0 d1 d2 d3 d4
  simp only [Bool.and_eq_true] at hwf
  obtain ⟨w1, w2⟩ := hwf
  have hm : decodeControl w ⟨none, none⟩ = (if fld 1 12 w = 0#1 then decRemu w ⟨none, none⟩ else decRemuImm w ⟨none, none⟩) := by unfold decodeControl; rw [show w / 16777216 % 256 = 8 from hop]; rfl
  show decodeControl w ⟨none, none⟩ = _
  rw [hm]
  simp only [f3, f4, if_true, reduceCtorEq, Option.isSome, Bool.false_eq_true, if_false, BitVec.reduceEq, ↓reduceIte]
  unfold decRemu
  simp only [need, f0, f1, f2, f3, f4, w1, w2, if_true, decide_true, Option.isNone, Option.isSome, Bool.and_self, Option.getD]
  rfl

theorem decodeLane_remuImm (rd : CReg) (s1 : CSrc) (imm : Imm 12)
    (hwf : (decide (s1.toNat < 36)) = true) (w : Nat) (hw : 134221824 + rd.toNat * 524288 + s1.toNat * 8192 + imm.low.toNat * 1 = w) :
    decodeLane .c w ⟨imm.high, none⟩ = .ok (.remuImm rd s1 imm) := by
  have d0 : w / 2 ^ 0 = (((8 * 2 ^ 5 + rd.toNat) * 2 ^ 6 + s1.toNat) * 2 ^ 1 + 1) * 2 ^ 12 + imm.low.toNat := by omega
  have d1 := div_next d0 imm.low.isLt
  have d2 := div_next d1 (by decide)
  have d3 := div_next d2 s1.isLt
  have hop := congrArg (· % 256) (div_next d3 rd.isLt)
  have f0 : fld 5 19 w = rd := fld_at d3
  have f1 : fld 6 13 w = s1 := fld_at d2
  have f2 : fld 12 0 w = imm.low := fld_at d0
  have f3 : fld 1 12 w = 1#1 := fld_num d1
  clear hw d0 d1 d2 d3
  have hm : decodeControl w ⟨imm.high, none⟩ = (if fld 1 12 w = 0#1 then decRemu w ⟨imm.high, none⟩ else decRemuImm w ⟨imm.high, none⟩) := by unfold decodeControl; rw [show w / 16777216 % 256 = 8 from hop]; rfl
  show decodeControl w ⟨imm.high, none⟩ = _
  rw [hm]
  simp only [f3, if_true, reduceCtorEq, Option.isSome, Bool.false_eq_true, if_false, BitVec.reduceEq, ↓reduceIte]
  unfold decRemuImm
  simp only [need, f0, f1, f2, f3, hwf, if_true, decide_true, Option.isNone, Option.isSome, Bool.and_self, Option.getD]
  rfl

theorem decodeLane_rems (rd : CReg) (s1 : CSrc) (s2 : CSrc)
    (hwf : (decide (s1.toNat < 36) && decide (s2.toNat < 36)) = true) (w : Nat) (hw : 150994944 + rd.toNat * 524288 + s1.toNat * 8192 + s2.toNat * 64 = w) :
    decodeLane .c w ⟨none, none⟩ = .ok (.rems rd s1 s2) := by
  have d0 : w / 2 ^ 0 = ((((9 * 2 ^ 5 + rd.toNat) * 2 ^ 6 + s1.toNat) * 2 ^ 1 + 0) * 2 ^ 6 + s2.toNat) * 2 ^ 6 + 0 := by omega
  have d1 := div_next d0 (by decide)
  have d2 := div_next d1 s2.isLt
  have d3 := div_next d2 (by decide)
  have d4 := div_next d3 s1.isLt
  have hop := congrArg (· % 256) (div_next d4 rd.isLt)
  have f0 : fld 5 19 w = rd := fld_at d4
  have f1 : fld 6 13 w = s1 := fld_at d3
  have f2 : fld 6 6 w = s2 := fld_at d1
  have f3 : fld 6 0 w = 0#6 := fld_num d0
  have f4 : fld 1 12 w = 0#1 := fld_num d2
  clear hw d0 d1 d2 d3 d4
  simp only [Bool.and_eq_true] at hwf
  obtain ⟨w1, w2⟩ := hwf
  have hm : decodeControl w ⟨none, none⟩ = (if fld 1 12 w = 0#1 then decRems w ⟨none, none⟩ else decRemsImm w ⟨none, none⟩) := by unfold decodeControl; rw [show w / 16777216 % 256 = 9 from hop]; rfl
  show decodeControl w ⟨none, none⟩ = _
  rw [hm]
  simp only [f3, f4, if_true, reduceCtorEq, Option.isSome, Bool.false_eq_true, if_false, BitVec.reduceEq, ↓reduceIte]
  unfold decRems
  simp only [need, f0, f1, f2, f3, f4, w1, w2, if_true, decide_true, Option.isNone, Option.isSome, Bool.and_self, Option.getD]
  rfl

theorem decodeLane_remsImm (rd : CReg) (s1 : CSrc) (imm : Imm 12)
    (hwf : (decide (s1.toNat < 36)) = true) (w : Nat) (hw : 150999040 + rd.toNat * 524288 + s1.toNat * 8192 + imm.low.toNat * 1 = w) :
    decodeLane .c w ⟨imm.high, none⟩ = .ok (.remsImm rd s1 imm) := by
  have d0 : w / 2 ^ 0 = (((9 * 2 ^ 5 + rd.toNat) * 2 ^ 6 + s1.toNat) * 2 ^ 1 + 1) * 2 ^ 12 + imm.low.toNat := by omega
  have d1 := div_next d0 imm.low.isLt
  have d2 := div_next d1 (by decide)
  have d3 := div_next d2 s1.isLt
  have hop := congrArg (· % 256) (div_next d3 rd.isLt)
  have f0 : fld 5 19 w = rd := fld_at d3
  have f1 : fld 6 13 w = s1 := fld_at d2
  have f2 : fld 12 0 w = imm.low := fld_at d0
  have f3 : fld 1 12 w = 1#1 := fld_num d1
  clear hw d0 d1 d2 d3
  have hm : decodeControl w ⟨imm.high, none⟩ = (if fld 1 12 w = 0#1 then decRems w ⟨imm.high, none⟩ else decRemsImm w ⟨imm.high, none⟩) := by unfold decodeControl; rw [show w / 16777216 % 256 = 9 from hop]; rfl
  show decodeControl w ⟨imm.high, none⟩ = _
  rw [hm]
  simp only [f3, if_true, reduceCtorEq, Option.isSome, Bool.false_eq_true, if_false, BitVec.reduceEq, ↓reduceIte]
  unfold decRemsImm
  simp only [need, f0, f1, f2, f3, hwf, if_true, decide_true, Option.isNone, Option.isSome, Bool.and_self, Option.getD]
  rfl

theorem decodeLane_and (rd : CReg) (s1 : CSrc) (s2 : CSrc)
    (hwf : (decide (s1.toNat < 36) && decide (s2.toNat < 36)) = true) (w : Nat) (hw : 167772160 + rd.toNat * 524288 + s1.toNat * 8192 + s2.toNat * 64 = w) :
    decodeLane .c w ⟨none, none⟩ = .ok (.and rd s1 s2) := by
  have d0 : w / 2 ^ 0 = ((((10 * 2 ^ 5 + rd.toNat) * 2 ^ 6 + s1.toNat) * 2 ^ 1 + 0) * 2 ^ 6 + s2.toNat) * 2 ^ 6 + 0 := by omega
  have d1 := div_next d0 (by decide)
  have d2 := div_next d1 s2.isLt
  have d3 := div_next d2 (by decide)
  have d4 := div_next d3 s1.isLt
  have hop := congrArg (· % 256) (div_next d4 rd.isLt)
  have f0 : fld 5 19 w = rd := fld_at d4
  have f1 : fld 6 13 w = s1 := fld_at d3
  have f2 : fld 6 6 w = s2 := fld_at d1
  have f3 : fld 6 0 w = 0#6 := fld_num d0
  have f4 : fld 1 12 w = 0#1 := fld_num d2
  clear hw d0 d1 d2 d3 d4
  simp only [Bool.and_eq_true] at hwf
  obtain ⟨w1, w2⟩ := hwf
  have hm : decodeControl w ⟨none, none⟩ = (if fld 1 12 w = 0#1 then decAnd w ⟨none, none⟩ else decAndImm w ⟨none, none⟩) := by unfold decodeControl; rw [show w / 16777216 % 256 = 10 from hop]; rfl
  show decodeControl w ⟨none, none⟩ = _
  rw [hm]
  simp only [f3, f4, if_true, reduceCtorEq, Option.isSome, Bool.false_eq_true, if_false, BitVec.reduceEq, ↓reduceIte]
  unfold decAnd
  simp only [need, f0, f1, f2, f3, f4, w1, w2, if_true, decide_true, Option.isNone, Option.isSome, Bool.and_self, Option.getD]
  rfl

theorem decodeLane_andImm (rd : CReg) (s1 : CSrc) (imm : Imm 12)
    (hwf : (decide (s1.toNat < 36)) = true) (w : Nat) (hw : 167776256 + rd.toNat * 524288 + s1.toNat * 8192 + imm.low.toNat * 1 = w) :
    decodeLane .c w ⟨imm.high, none⟩ = .ok (.andImm rd s1 imm) := by
  have d0 : w / 2 ^ 0 = (((10 * 2 ^ 5 + rd.toNat) * 2 ^ 6 + s1.toNat) * 2 ^ 1 + 1) * 2 ^ 12 + imm.low.toNat := by omega
  have d1 := div_next d0 imm.low.isLt
  have d2 := div_next d1 (by decide)
  have d3 := div_next d2 s1.isLt
  have hop := congrArg (· % 256) (div_next d3 rd.isLt)
  have f0 : fld 5 19 w = rd := fld_at d3
  have f1 : fld 6 13 w = s1 := fld_at d2
  have f2 : fld 12 0 w = imm.low := fld_at d0
  have f3 : fld 1 12 w = 1#1 := fld_num d1
  clear hw d0 d1 d2 d3
  have hm : decodeControl w ⟨imm.high, none⟩ = (if fld 1 12 w = 0#1 then decAnd w ⟨imm.high, none⟩ else decAndImm w ⟨imm.high, none⟩) := by unfold decodeControl; rw [show w / 16777216 % 256 = 10 from hop]; rfl
  show decodeControl w ⟨imm.high, none⟩ = _
  rw [hm]
  simp only [f3, if_true, reduceCtorEq, Option.isSome, Bool.false_eq_true, if_false, BitVec.reduceEq, ↓reduceIte]
  unfold decAndImm
  simp only [need, f0, f1, f2, f3, hwf, if_true, decide_true, Option.isNone, Option.isSome, Bool.and_self, Option.getD]
  rfl

theorem decodeLane_or (rd : CReg) (s1 : CSrc) (s2 : CSrc)
    (hwf : (decide (s1.toNat < 36) && decide (s2.toNat < 36)) = true) (w : Nat) (hw : 184549376 + rd.toNat * 524288 + s1.toNat * 8192 + s2.toNat * 64 = w) :
    decodeLane .c w ⟨none, none⟩ = .ok (.or rd s1 s2) := by
  have d0 : w / 2 ^ 0 = ((((11 * 2 ^ 5 + rd.toNat) * 2 ^ 6 + s1.toNat) * 2 ^ 1 + 0) * 2 ^ 6 + s2.toNat) * 2 ^ 6 + 0 := by omega
  have d1 := div_next d0 (by decide)
  have d2 := div_next d1 s2.isLt
  have d3 := div_next d2 (by decide)
  have d4 := div_next d3 s1.isLt
  have hop := congrArg (· % 256) (div_next d4 rd.isLt)
  have f0 : fld 5 19 w = rd := fld_at d4
  have f1 : fld 6 13 w = s1 := fld_at d3
  have f2 : fld 6 6 w = s2 := fld_at d1
  have f3 : fld 6 0 w = 0#6 := fld_num d0
  have f4 : fld 1 12 w = 0#1 := fld_num d2
  clear hw d0 d1 d2 d3 d4
  simp only [Bool.and_eq_true] at hwf
  obtain ⟨w1, w2⟩ := hwf
  have hm : decodeControl w ⟨none, none⟩ = (if fld 1 12 w = 0#1 then decOr w ⟨none, none⟩ else decOrImm w ⟨none, none⟩) := by unfold decodeControl; rw [show w / 16777216 % 256 = 11 from hop]; rfl
  show decodeControl w ⟨none, none⟩ = _
  rw [hm]
  simp only [f3, f4, if_true, reduceCtorEq, Option.isSome, Bool.false_eq_true, if_false, BitVec.reduceEq, ↓reduceIte]
  unfold decOr
  simp only [need, f0, f1, f2, f3, f4, w1, w2, if_true, decide_true, Option.isNone, Option.isSome, Bool.and_self, Option.getD]
  rfl

theorem decodeLane_orImm (rd : CReg) (s1 : CSrc) (imm : Imm 12)
    (hwf : (decide (s1.toNat < 36)) = true) (w : Nat) (hw : 184553472 + rd.toNat * 524288 + s1.toNat * 8192 + imm.low.toNat * 1 = w) :
    decodeLane .c w ⟨imm.high, none⟩ = .ok (.orImm rd s1 imm) := by
  have d0 : w / 2 ^ 0 = (((11 * 2 ^ 5 + rd.toNat) * 2 ^ 6 + s1.toNat) * 2 ^ 1 + 1) * 2 ^ 12 + imm.low.toNat := by omega
  have d1 := div_next d0 imm.low.isLt
  have d2 := div_next d1 (by decide)
  have d3 := div_next d2 s1.isLt
  have hop := congrArg (· % 256) (div_next d3 rd.isLt)
  have f0 : fld 5 19 w = rd := fld_at d3
  have f1 : fld 6 13 w = s1 := fld_at d2
  have f2 : fld 12 0 w = imm.low := fld_at d0
  have f3 : fld 1 12 w = 1#1 := fld_num d1
  clear hw d0 d1 d2 d3
  have hm : decodeControl w ⟨imm.high, none⟩ = (if fld 1 12 w = 0#1 then decOr w ⟨imm.high, none⟩ else decOrImm w ⟨imm.high, none⟩) := by unfold decodeControl; rw [show w / 16777216 % 256 = 11 from hop]; rfl
  show decodeControl w ⟨imm.high, none⟩ = _
  rw [hm]
  simp only [f3, if_true, reduceCtorEq, Option.isSome, Bool.false_eq_true, if_false, BitVec.reduceEq, ↓reduceIte]
  unfold decOrImm
  simp only [need, f0, f1, f2, f3, hwf, if_true, decide_true, Option.isNone, Option.isSome, Bool.and_self, Option.getD]
  rfl

theorem decodeLane_xor (rd : CReg) (s1 : CSrc) (s2 : CSrc)
    (hwf : (decide (s1.toNat < 36) && decide (s2.toNat < 36)) = true) (w : Nat) (hw : 201326592 + rd.toNat * 524288 + s1.toNat * 8192 + s2.toNat * 64 = w) :
    decodeLane .c w ⟨none, none⟩ = .ok (.xor rd s1 s2) := by
  have d0 : w / 2 ^ 0 = ((((12 * 2 ^ 5 + rd.toNat) * 2 ^ 6 + s1.toNat) * 2 ^ 1 + 0) * 2 ^ 6 + s2.toNat) * 2 ^ 6 + 0 := by omega
  have d1 := div_next d0 (by decide)
  have d2 := div_next d1 s2.isLt
  have d3 := div_next d2 (by decide)
  have d4 := div_next d3 s1.isLt
  have hop := congrArg (· % 256) (div_next d4 rd.isLt)
  have f0 : fld 5 19 w = rd := fld_at d4
  have f1 : fld 6 13 w = s1 := fld_at d3
  have f2 : fld 6 6 w = s2 := fld_at d1
  have f3 : fld 6 0 w = 0#6 := fld_num d0
  have f4 : fld 1 12 w = 0#1 := fld_num d2
  clear hw d0 d1 d2 d3 d4
  simp only [Bool.and_eq_true] at hwf
  obtain ⟨w1, w2⟩ := hwf
  have hm : decodeControl w ⟨none, none⟩ = (if fld 1 12 w = 0#1 then decXor w ⟨none, none⟩ else decXorImm w ⟨none, none⟩) := by unfold decodeControl; rw [show w / 16777216 % 256 = 12 from hop]; rfl
  show decodeControl w ⟨none, none⟩ = _
  rw [hm]
  simp only [f3, f4, if_true, reduceCtorEq, Option.isSome, Bool.false_eq_true, if_false, BitVec.reduceEq, ↓reduceIte]
  unfold decXor
  simp only [need, f0, f1, f2, f3, f4, w1, w2, if_true, decide_true, Option.isNone, Option.isSome, Bool.and_self, Option.getD]
  rfl

theorem decodeLane_xorImm (rd : CReg) (s1 : CSrc) (imm : Imm 12)
    (hwf : (decide (s1.toNat < 36)) = true) (w : Nat) (hw : 201330688 + rd.toNat * 524288 + s1.toNat * 8192 + imm.low.toNat * 1 = w) :
    decodeLane .c w ⟨imm.high, none⟩ = .ok (.xorImm rd s1 imm) := by
  have d0 : w / 2 ^ 0 = (((12 * 2 ^ 5 + rd.toNat) * 2 ^ 6 + s1.toNat) * 2 ^ 1 + 1) * 2 ^ 12 + imm.low.toNat := by omega
  have d1 := div_next d0 imm.low.isLt
  have d2 := div_next d1 (by decide)
  have d3 := div_next d2 s1.isLt
  have hop := congrArg (· % 256) (div_next d3 rd.isLt)
  have f0 : fld 5 19 w = rd := fld_at d3
  have f1 : fld 6 13 w = s1 := fld_at d2
  have f2 : fld 12 0 w = imm.low := fld_at d0
  have f3 : fld 1 12 w = 1#1 := fld_num d1
  clear hw d0 d1 d2 d3
  have hm : decodeControl w ⟨imm.high, none⟩ = (if fld 1 12 w = 0#1 then decXor w ⟨imm.high, none⟩ else decXorImm w ⟨imm.high, none⟩) := by unfold decodeControl; rw [show w / 16777216 % 256 = 12 from hop]; rfl
  show decodeControl w ⟨imm.high, none⟩ = _
  rw [hm]
  simp only [f3, if_true, reduceCtorEq, Option.isSome, Bool.false_eq_true, if_false, BitVec.reduceEq, ↓reduceIte]
  unfold decXorImm
  simp only [need, f0, f1, f2, f3, hwf, if_true, decide_true, Option.isNone, Option.isSome, Bool.and_self, Option.getD]
  rfl

theorem decodeLane_andn (rd : CReg) (s1 : CSrc) (s2 : CSrc)
    (hwf : (decide (s1.toNat < 36) && decide (s2.toNat < 36)) = true) (w : Nat) (hw : 218103808 + rd.toNat * 524288 + s1.toNat * 8192 + s2.toNat * 64 = w) :
    decodeLane .c w ⟨none, none⟩ = .ok (.andn rd s1 s2) := by
  have d0 : w / 2 ^ 0 = ((((13 * 2 ^ 5 + rd.toNat) * 2 ^ 6 + s1.toNat) * 2 ^ 1 + 0) * 2 ^ 6 + s2.toNat) * 2 ^ 6 + 0 := by omega
  have d1 := div_next d0 (by decide)
  have d2 := div_next d1 s2.isLt
  have d3 := div_next d2 (by decide)
  have d4 := div_next d3 s1.isLt
  have hop := congrArg (· % 256) (div_next d4 rd.isLt)
  have f0 : fld 5 19 w = rd := fld_at d4
  have f1 : fld 6 13 w = s1 := fld_at d3
  have f2 : fld 6 6 w = s2 := fld_at d1
  have f3 : fld 6 0 w = 0#6 := fld_num d0
  have f4 : fld 1 12 w = 0#1 := fld_num d2
  clear hw d0 d1 d2 d3 d4
  simp only [Bool.and_eq_true] at hwf
  obtain ⟨w1, w2⟩ := hwf
  have hm : decodeControl w ⟨none, none⟩ = (if fld 1 12 w = 0#1 then decAndn w ⟨none, none⟩ else decAndnImm w ⟨none, none⟩) := by unfold decodeControl; rw [show w / 16777216 % 256 = 13 from hop]; rfl
  show decodeControl w ⟨none, none⟩ = _
  rw [hm]
  simp only [f3, f4, if_true, reduceCtorEq, Option.isSome, Bool.false_eq_true, if_false, BitVec.reduceEq, ↓reduceIte]
  unfold decAndn
  simp only [need, f0, f1, f2, f3, f4, w1, w2, if_true, decide_true, Option.isNone, Option.isSome, Bool.and_self, Option.getD]
  rfl

theorem decodeLane_andnImm (rd : CReg) (s1 : CSrc) (imm : Imm 12)
    (hwf : (decide (s1.toNat < 36)) = true) (w : Nat) (hw : 218107904 + rd.toNat * 524288 + s1.toNat * 8192 + imm.low.toNat * 1 = w) :
    decodeLane .c w ⟨imm.high, none⟩ = .ok (.andnImm rd s1 imm) := by
  have d0 : w / 2 ^ 0 = (((13 * 2 ^ 5 + rd.toNat) * 2 ^ 6 + s1.toNat) * 2 ^ 1 + 1) * 2 ^ 12 + imm.low.toNat := by omega
  have d1 := div_next d0 imm.low.isLt
  have d2 := div_next d1 (by decide)
  have d3 := div_next d2 s1.isLt
  have hop := congrArg (· % 256) (div_next d3 rd.isLt)
  have f0 : fld 5 19 w = rd := fld_at d3
  have f1 : fld 6 13 w = s1 := fld_at d2
  have f2 : fld 12 0 w = imm.low := fld_at d0
  have f3 : fld 1 12 w = 1#1 := fld_num d1
  clear hw d0 d1 d2 d3
  have hm : decodeControl w ⟨imm.high, none⟩ = (if fld 1 12 w = 0#1 then decAndn w ⟨imm.high, none⟩ else decAndnImm w ⟨imm.high, none⟩) := by unfold decodeControl; rw [show w / 16777216 % 256 = 13 from hop]; rfl
  show decodeControl w ⟨imm.high, none⟩ = _
  rw [hm]
  simp only [f3, if_true, reduceCtorEq, Option.isSome, Bool.false_eq_true, if_false, BitVec.reduceEq, ↓reduceIte]
  unfold decAndnImm
  simp only [need, f0, f1, f2, f3, hwf, if_true, decide_true, Option.isNone, Option.isSome, Bool.and_self, Option.getD]
  rfl

theorem decodeLane_shl (rd : CReg) (s1 : CSrc) (s2 : CSrc)
    (hwf : (decide (s1.toNat < 36) && decide (s2.toNat < 36)) = true) (w : Nat) (hw : 234881024 + rd.toNat * 524288 + s1.toNat * 8192 + s2.toNat * 64 = w) :
    decodeLane .c w ⟨none, none⟩ = .ok (.shl rd s1 s2) := by
  have d0 : w / 2 ^ 0 = ((((14 * 2 ^ 5 + rd.toNat) * 2 ^ 6 + s1.toNat) * 2 ^ 1 + 0) * 2 ^ 6 + s2.toNat) * 2 ^ 6 + 0 := by omega
  have d1 := div_next d0 (by decide)
  have d2 := div_next d1 s2.isLt
  have d3 := div_next d2 (by decide)
  have d4 := div_next d3 s1.isLt
  have hop := congrArg (· % 256) (div_next d4 rd.isLt)
  have f0 : fld 5 19 w = rd := fld_at d4
  have f1 : fld 6 13 w = s1 := fld_at d3
  have f2 : fld 6 6 w = s2 := fld_at d1
  have f3 : fld 6 0 w = 0#6 := fld_num d0
  have f4 : fld 1 12 w = 0#1 := fld_num d2
  clear hw d0 d1 d2 d3 d4
  simp only [Bool.and_eq_true] at hwf
  obtain ⟨w1, w2⟩ := hwf
  have hm : decodeControl w ⟨none, none⟩ = (if fld 1 12 w = 0#1 then decShl w ⟨none, none⟩ else decShlImm w ⟨none, none⟩) := by unfold decodeControl; rw [show w / 16777216 % 256 = 14 from hop]; rfl
  show decodeControl w ⟨none, none⟩ = _
  rw [hm]
  simp only [f3, f4, if_true, reduceCtorEq, Option.isSome, Bool.false_eq_true, if_false, BitVec.reduceEq, ↓reduceIte]
  unfold decShl
  simp only [need, f0, f1, f2, f3, f4, w1, w2, if_true, decide_true, Option.isNone, Option.isSome, Bool.and_self, Option.getD]
  rfl

theorem decodeLane_shlImm (rd : CReg) (s1 : CSrc) (imm : Imm 12)
    (hwf : (decide (s1.toNat < 36)) = true) (w : Nat) (hw : 234885120 + rd.toNat * 524288 + s1.toNat * 8192 + imm.low.toNat * 1 = w) :
    decodeLane .c w ⟨imm.high, none⟩ = .ok (.shlImm rd s1 imm) := by
  have d0 : w / 2 ^ 0 = (((14 * 2 ^ 5 + rd.toNat) * 2 ^ 6 + s1.toNat) * 2 ^ 1 + 1) * 2 ^ 12 + imm.low.toNat := by omega
  have d1 := div_next d0 imm.low.isLt
  have d2 := div_next d1 (by decide)
  have d3 := div_next d2 s1.isLt
  have hop := congrArg (· % 256) (div_next d3 rd.isLt)
  have f0 : fld 5 19 w = rd := fld_at d3
  have f1 : fld 6 13 w = s1 := fld_at d2
  have f2 : fld 12 0 w = imm.low := fld_at d0
  have f3 : fld 1 12 w = 1#1 := fld_num d1
  clear hw d0 d1 d2 d3
  have hm : decodeControl w ⟨imm.high, none⟩ = (if fld 1 12 w = 0#1 then decShl w ⟨imm.high, none⟩ else decShlImm w ⟨imm.high, none⟩) := by unfold decodeControl; rw [show w / 16777216 % 256 = 14 from hop]; rfl
  show decodeControl w ⟨imm.high, none⟩ = _
  rw [hm]
  simp only [f3, if_true, reduceCtorEq, Option.isSome, Bool.false_eq_true, if_false, BitVec.reduceEq, ↓reduceIte]
  unfold decShlImm
  simp only [need, f0, f1, f2, f3, hwf, if_true, decide_true, Option.isNone, Option.isSome, Bool.and_self, Option.getD]
  rfl

theorem decodeLane_shr (rd : CReg) (s1 : CSrc) (s2 : CSrc)
    (hwf : (decide (s1.toNat < 36) && decide (s2.toNat < 36)) = true) (w : Nat) (hw : 251658240 + rd.toNat * 524288 + s1.toNat * 8192 + s2.toNat * 64 = w) :
    decodeLane .c w ⟨none, none⟩ = .ok (.shr rd s1 s2) := by
  have d0 : w / 2 ^ 0 = ((((15 * 2 ^ 5 + rd.toNat) * 2 ^ 6 + s1.toNat) * 2 ^ 1 + 0) * 2 ^ 6 + s2.toNat) * 2 ^ 6 + 0 := by omega
  have d1 := div_next d0 (by decide)
  have d2 := div_next d1 s2.isLt
  have d3 := div_next d2 (by decide)
  have d4 := div_next d3 s1.isLt
  have hop := congrArg (· % 256) (div_next d4 rd.isLt)
  have f0 : fld 5 19 w = rd := fld_at d4
  have f1 : fld 6 13 w = s1 := fld_at d3
  have f2 : fld 6 6 w = s2 := fld_at d1
  have f3 : fld 6 0 w = 0#6 := fld_num d0
  have f4 : fld 1 12 w = 0#1 := fld_num d2
  clear hw d0 d1 d2 d3 d4
  simp only [Bool.and_eq_true] at hwf
  obtain ⟨w1, w2⟩ := hwf
  have hm : decodeControl w ⟨none, none⟩ = (if fld 1 12 w = 0#1 then decShr w ⟨none, none⟩ else decShrImm w ⟨none, none⟩) := by unfold decodeControl; rw [show w / 16777216 % 256 = 15 from hop]; rfl
  show decodeControl w ⟨none, none⟩ = _
  rw [hm]
  simp only [f3, f4, if_true, reduceCtorEq, Option.isSome, Bool.false_eq_true, if_false, BitVec.reduceEq, ↓reduceIte]
  unfold decShr
  simp only [need, f0, f1, f2, f3, f4, w1, w2, if_true, decide_true, Option.isNone, Option.isSome, Bool.and_self, Option.getD]
  rfl

theorem decodeLane_shrImm (rd : CReg) (s1 : CSrc) (imm : Imm 12)
    (hwf : (decide (s1.toNat < 36)) = true) (w : Nat) (hw : 251662336 + rd.toNat * 524288 + s1.toNat * 8192 + imm.low.toNat * 1 = w) :
    decodeLane .c w ⟨imm.high, none⟩ = .ok (.shrImm rd s1 imm) := by
  have d0 : w / 2 ^ 0 = (((15 * 2 ^ 5 + rd.toNat) * 2 ^ 6 + s1.toNat) * 2 ^ 1 + 1) * 2 ^ 12 + imm.low.toNat := by omega
  have d1 := div_next d0 imm.low.isLt
  have d2 := div_next d1 (by decide)
  have d3 := div_next d2 s1.isLt
  have hop := congrArg (· % 256) (div_next d3 rd.isLt)
  have f0 : fld 5 19 w = rd := fld_at d3
  have f1 : fld 6 13 w = s1 := fld_at d2
  have f2 : fld 12 0 w = imm.low := fld_at d0
  have f3 : fld 1 12 w = 1#1 := fld_num d1
  clear hw d0 d1 d2 d3
  have hm : decodeControl w ⟨imm.high, none⟩ = (if fld 1 12 w = 0#1 then decShr w ⟨imm.high, none⟩ else decShrImm w ⟨imm.high, none⟩) := by unfold decodeControl; rw [show w / 16777216 % 256 = 15 from hop]; rfl
  show decodeControl w ⟨imm.high, none⟩ = _
  rw [hm]
  simp only [f3, if_true, reduceCtorEq, Option.isSome, Bool.false_eq_true, if_false, BitVec.reduceEq, ↓reduceIte]
  unfold decShrImm
  simp only [need, f0, f1, f2, f3, hwf, if_true, decide_true, Option.isNone, Option.isSome, Bool.and_self, Option.getD]
  rfl

theorem decodeLane_sar (rd : CReg) (s1 : CSrc) (s2 : CSrc)
    (hwf : (decide (s1.toNat < 36) && decide (s2.toNat < 36)) = true) (w : Nat) (hw : 268435456 + rd.toNat * 524288 + s1.toNat * 8192 + s2.toNat * 64 = w) :
    decodeLane .c w ⟨none, none⟩ = .ok (.sar rd s1 s2) := by
  have d0 : w / 2 ^ 0 = ((((16 * 2 ^ 5 + rd.toNat) * 2 ^ 6 + s1.toNat) * 2 ^ 1 + 0) * 2 ^ 6 + s2.toNat) * 2 ^ 6 + 0 := by omega
  have d1 := div_next d0 (by decide)
  have d2 := div_next d1 s2.isLt
  have d3 := div_next d2 (by decide)
  have d4 := div_next d3 s1.isLt
  have hop := congrArg (· % 256) (div_next d4 rd.isLt)
  have f0 : fld 5 19 w = rd := fld_at d4
  have f1 : fld 6 13 w = s1 := fld_at d3
  have f2 : fld 6 6 w = s2 := fld_at d1
  have f3 : fld 6 0 w = 0#6 := fld_num d0
  have f4 : fld 1 12 w = 0#1 := fld_num d2
  clear hw d0 d1 d2 d3 d4
  simp only [Bool.and_eq_true] at hwf
  obtain ⟨w1, w2⟩ := hwf
  have hm : decodeControl w ⟨none, none⟩ = (if fld 1 12 w = 0#1 then decSar w ⟨none, none⟩ else decSarImm w ⟨none, none⟩) := by unfold decodeControl; rw [show w / 16777216 % 256 = 16 from hop]; rfl
  show decodeControl w ⟨none, none⟩ = _
  rw [hm]
  simp only [f3, f4, if_true, reduceCtorEq, Option.isSome, Bool.false_eq_true, if_false, BitVec.reduceEq, ↓reduceIte]
  unfold decSar
  simp only [need, f0, f1, f2, f3, f4, w1, w2, if_true, decide_true, Option.isNone, Option.isSome, Bool.and_self, Option.getD]
  rfl

theorem decodeLane_sarImm (rd : CReg) (s1 : CSrc) (imm : Imm 12)
    (hwf : (decide (s1.toNat < 36)) = true) (w : Nat) (hw : 268439552 + rd.toNat * 524288 + s1.toNat * 8192 + imm.low.toNat * 1 = w) :
    decodeLane .c w ⟨imm.high, none⟩ = .ok (.sarImm rd s1 imm) := by
  have d0 : w / 2 ^ 0 = (((16 * 2 ^ 5 + rd.toNat) * 2 ^ 6 + s1.toNat) * 2 ^ 1 + 1) * 2 ^ 12 + imm.low.toNat := by omega
  have d1 := div_next d0 imm.low.isLt
  have d2 := div_next d1 (by decide)
  have d3 := div_next d2 s1.isLt
  have hop := congrArg (· % 256) (div_next d3 rd.isLt)
  have f0 : fld 5 19 w = rd := fld_at d3
  have f1 : fld 6 13 w = s1 := fld_at d2
  have f2 : fld 12 0 w = imm.low := fld_at d0
  have f3 : fld 1 12 w = 1#1 := fld_num d1
  clear hw d0 d1 d2 d3
  have hm : decodeControl w ⟨imm.high, none⟩ = (if fld 1 12 w = 0#1 then decSar w ⟨imm.high, none⟩ else decSarImm w ⟨imm.high, none⟩) := by unfold decodeControl; rw [show w / 16777216 % 256 = 16 from hop]; rfl
  show decodeControl w ⟨imm.high, none⟩ = _
  rw [hm]
  simp only [f3, if_true, reduceCtorEq, Option.isSome, Bool.false_eq_true, if_false, BitVec.reduceEq, ↓reduceIte]
  unfold decSarImm
  simp only [need, f0, f1, f2, f3, hwf, if_true, decide_true, Option.isNone, Option.isSome, Bool.and_self, Option.getD]
  rfl

theorem decodeLane_rotl (rd : CReg) (s1 : CSrc) (s2 : CSrc)
    (hwf : (decide (s1.toNat < 36) && decide (s2.toNat < 36)) = true) (w : Nat) (hw : 285212672 + rd.toNat * 524288 + s1.toNat * 8192 + s2.toNat * 64 = w) :
    decodeLane .c w ⟨none, none⟩ = .ok (.rotl rd s1 s2) := by
  have d0 : w / 2 ^ 0 = ((((17 * 2 ^ 5 + rd.toNat) * 2 ^ 6 + s1.toNat) * 2 ^ 1 + 0) * 2 ^ 6 + s2.toNat) * 2 ^ 6 + 0 := by omega
  have d1 := div_next d0 (by decide)
  have d2 := div_next d1 s2.isLt
  have d3 := div_next d2 (by decide)
  have d4 := div_next d3 s1.isLt
  have hop := congrArg (· % 256) (div_next d4 rd.isLt)
  have f0 : fld 5 19 w = rd := fld_at d4
  have f1 : fld 6 13 w = s1 := fld_at d3
  have f2 : fld 6 6 w = s2 := fld_at d1
  have f3 : fld 6 0 w = 0#6 := fld_num d0
  have f4 : fld 1 12 w = 0#1 := fld_num d2
  clear hw d0 d1 d2 d3 d4
  simp only [Bool.and_eq_true] at hwf
  obtain ⟨w1, w2⟩ := hwf
  have hm : decodeControl w ⟨none, none⟩ = (if fld 1 12 w = 0#1 then decRotl w ⟨none, none⟩ else decRotlImm w ⟨none, none⟩) := by unfold decodeControl; rw [show w / 16777216 % 256 = 17 from hop]; rfl
  show decodeControl w ⟨none, none⟩ = _
  rw [hm]
  simp only [f3, f4, if_true, reduceCtorEq, Option.isSome, Bool.false_eq_true, if_false, BitVec.reduceEq, ↓reduceIte]
  unfold decRotl
  simp only [need, f0, f1, f2, f3, f4, w1, w2, if_true, decide_true, Option.isNone, Option.isSome, Bool.and_self, Option.getD]
  rfl

theorem decodeLane_rotlImm (rd : CReg) (s1 : CSrc) (imm : Imm 12)
    (hwf : (decide (s1.toNat < 36)) = true) (w : Nat) (hw : 285216768 + rd.toNat * 524288 + s1.toNat * 8192 + imm.low.toNat * 1 = w) :
    decodeLane .c w ⟨imm.high, none⟩ = .ok (.rotlImm rd s1 imm) := by
  have d0 : w / 2 ^ 0 = (((17 * 2 ^ 5 + rd.toNat) * 2 ^ 6 + s1.toNat) * 2 ^ 1 + 1) * 2 ^ 12 + imm.low.toNat := by omega
  have d1 := div_next d0 imm.low.isLt
  have d2 := div_next d1 (by decide)
  have d3 := div_next d2 s1.isLt
  have hop := congrArg (· % 256) (div_next d3 rd.isLt)
  have f0 : fld 5 19 w = rd := fld_at d3
  have f1 : fld 6 13 w = s1 := fld_at d2
  have f2 : fld 12 0 w = imm.low := fld_at d0
  have f3 : fld 1 12 w = 1#1 := fld_num d1
  clear hw d0 d1 d2 d3
  have hm : decodeControl w ⟨imm.high, none⟩ = (if fld 1 12 w = 0#1 then decRotl w ⟨imm.high, none⟩ else decRotlImm w ⟨imm.high, none⟩) := by unfold decodeControl; rw [show w / 16777216 % 256 = 17 from hop]; rfl
  show decodeControl w ⟨imm.high, none⟩ = _
  rw [hm]
  simp only [f3, if_true, reduceCtorEq, Option.isSome, Bool.false_eq_true, if_false, BitVec.reduceEq, ↓reduceIte]
  unfold decRotlImm
  simp only [need, f0, f1, f2, f3, hwf, if_true, decide_true, Option.isNone, Option.isSome, Bool.and_self, Option.getD]
  rfl

theorem decodeLane_min (rd : CReg) (s1 : CSrc) (s2 : CSrc)
    (hwf : (decide (s1.toNat < 36) && decide (s2.toNat < 36)) = true) (w : Nat) (hw : 301989888 + rd.toNat * 524288 + s1.toNat * 8192 + s2.toNat * 64 = w) :
    decodeLane .c w ⟨none, none⟩ = .ok (.min rd s1 s2) := by
  have d0 : w / 2 ^ 0 = ((((18 * 2 ^ 5 + rd.toNat) * 2 ^ 6 + s1.toNat) * 2 ^ 1 + 0) * 2 ^ 6 + s2.toNat) * 2 ^ 6 + 0 := by omega
  have d1 := div_next d0 (by decide)
  have d2 := div_next d1 s2.isLt
  have d3 := div_next d2 (by decide)
  have d4 := div_next d3 s1.isLt
  have hop := congrArg (· % 256) (div_next d4 rd.isLt)
  have f0 : fld 5 19 w = rd := fld_at d4
  have f1 : fld 6 13 w = s1 := fld_at d3
  have f2 : fld 6 6 w = s2 := fld_at d1
  have f3 : fld 6 0 w = 0#6 := fld_num d0
  have f4 : fld 1 12 w = 0#1 := fld_num d2
  clear hw d0 d1 d2 d3 d4
  simp only [Bool.and_eq_true] at hwf
  obtain ⟨w1, w2⟩ := hwf
  have hm : decodeControl w ⟨none, none⟩ = (if fld 1 12 w = 0#1 then decMin w ⟨none, none⟩ else decMinImm w ⟨none, none⟩) := by unfold decodeControl; rw [show w / 16777216 % 256 = 18 from hop]; rfl
  show decodeControl w ⟨none, none⟩ = _
  rw [hm]
  simp only [f3, f4, if_true, reduceCtorEq, Option.isSome, Bool.false_eq_true, if_false, BitVec.reduceEq, ↓reduceIte]
  unfold decMin
  simp only [need, f0, f1, f2, f3, f4, w1, w2, if_true, decide_true, Option.isNone, Option.isSome, Bool.and_self, Option.getD]
  rfl

theorem decodeLane_minImm (rd : CReg) (s1 : CSrc) (imm : Imm 12)
    (hwf : (decide (s1.toNat < 36)) = true) (w : Nat) (hw : 301993984 + rd.toNat * 524288 + s1.toNat * 8192 + imm.low.toNat * 1 = w) :
    decodeLane .c w ⟨imm.high, none⟩ = .ok (.minImm rd s1 imm) := by
  have d0 : w / 2 ^ 0 = (((18 * 2 ^ 5 + rd.toNat) * 2 ^ 6 + s1.toNat) * 2 ^ 1 + 1) * 2 ^ 12 + imm.low.toNat := by omega
  have d1 := div_next d0 imm.low.isLt
  have d2 := div_next d1 (by decide)
  have d3 := div_next d2 s1.isLt
  have hop := congrArg (· % 256) (div_next d3 rd.isLt)
  have f0 : fld 5 19 w = rd := fld_at d3
  have f1 : fld 6 13 w = s1 := fld_at d2
  have f2 : fld 12 0 w = imm.low := fld_at d0
  have f3 : fld 1 12 w = 1#1 := fld_num d1
  clear hw d0 d1 d2 d3
  have hm : decodeControl w ⟨imm.high, none⟩ = (if fld 1 12 w = 0#1 then decMin w ⟨imm.high, none⟩ else decMinImm w ⟨imm.high, none⟩) := by unfold decodeControl; rw [show w / 16777216 % 256 = 18 from hop]; rfl
  show decodeControl w ⟨imm.high, none⟩ = _
  rw [hm]
  simp only [f3, if_true, reduceCtorEq, Option.isSome, Bool.false_eq_true, if_false, BitVec.reduceEq, ↓reduceIte]
  unfold decMinImm
  simp only [need, f0, f1, f2, f3, hwf, if_true, decide_true, Option.isNone, Option.isSome, Bool.and_self, Option.getD]
  rfl

theorem decodeLane_max (rd : CReg) (s1 : CSrc) (s2 : CSrc)
    (hwf : (decide (s1.toNat < 36) && decide (s2.toNat < 36)) = true) (w : Nat) (hw : 318767104 + rd.toNat * 524288 + s1.toNat * 8192 + s2.toNat * 64 = w) :
    decodeLane .c w ⟨none, none⟩ = .ok (.max rd s1 s2) := by
  have d0 : w / 2 ^ 0 = ((((19 * 2 ^ 5 + rd.toNat) * 2 ^ 6 + s1.toNat) * 2 ^ 1 + 0) * 2 ^ 6 + s2.toNat) * 2 ^ 6 + 0 := by omega
  have d1 := div_next d0 (by decide)
  have d2 := div_next d1 s2.isLt
  have d3 := div_next d2 (by decide)
  have d4 := div_next d3 s1.isLt
  have hop := congrArg (· % 256) (div_next d4 rd.isLt)
  have f0 : fld 5 19 w = rd := fld_at d4
  have f1 : fld 6 13 w = s1 := fld_at d3
  have f2 : fld 6 6 w = s2 := fld_at d1
  have f3 : fld 6 0 w = 0#6 := fld_num d0
  have f4 : fld 1 12 w = 0#1 := fld_num d2
  clear hw d0 d1 d2 d3 d4
  simp only [Bool.and_eq_true] at hwf
  obtain ⟨w1, w2⟩ := hwf
  have hm : decodeControl w ⟨none, none⟩ = (if fld 1 12 w = 0#1 then decMax w ⟨none, none⟩ else decMaxImm w ⟨none, none⟩) := by unfold decodeControl; rw [show w / 16777216 % 256 = 19 from hop]; rfl
  show decodeControl w ⟨none, none⟩ = _
  rw [hm]
  simp only [f3, f4, if_true, reduceCtorEq, Option.isSome, Bool.false_eq_true, if_false, BitVec.reduceEq, ↓reduceIte]
  unfold decMax
  simp only [need, f0, f1, f2, f3, f4, w1, w2, if_true, decide_true, Option.isNone, Option.isSome, Bool.and_self, Option.getD]
  rfl

theorem decodeLane_maxImm (rd : CReg) (s1 : CSrc) (imm : Imm 12)
    (hwf : (decide (s1.toNat < 36)) = true) (w : Nat) (hw : 318771200 + rd.toNat * 524288 + s1.toNat * 8192 + imm.low.toNat * 1 = w) :
    decodeLane .c w ⟨imm.high, none⟩ = .ok (.maxImm rd s1 imm) := by
  have d0 : w / 2 ^ 0 = (((19 * 2 ^ 5 + rd.toNat) * 2 ^ 6 + s1.toNat) * 2 ^ 1 + 1) * 2 ^ 12 + imm.low.toNat := by omega
  have d1 := div_next d0 imm.low.isLt
  have d2 := div_next d1 (by decide)
  have d3 := div_next d2 s1.isLt
  have hop := congrArg (· % 256) (div_next d3 rd.isLt)
  have f0 : fld 5 19 w = rd := fld_at d3
  have f1 : fld 6 13 w = s1 := fld_at d2
  have f2 : fld 12 0 w = imm.low := fld_at d0
  have f3 : fld 1 12 w = 1#1 := fld_num d1
  clear hw d0 d1 d2 d3
  have hm : decodeControl w ⟨imm.high, none⟩ = (if fld 1 12 w = 0#1 then decMax w ⟨imm.high, none⟩ else decMaxImm w ⟨imm.high, none⟩) := by unfold decodeControl; rw [show w / 16777216 % 256 = 19 from hop]; rfl
  show decodeControl w ⟨imm.high, none⟩ = _
  rw [hm]
  simp only [f3, if_true, reduceCtorEq, Option.isSome, Bool.false_eq_true, if_false, BitVec.reduceEq, ↓reduceIte]
  unfold decMaxImm
  simp only [need, f0, f1, f2, f3, hwf, if_true, decide_true, Option.isNone, Option.isSome, Bool.and_self, Option.getD]
  rfl

theorem decodeLane_minu (rd : CReg) (s1 : CSrc) (s2 : CSrc)
    (hwf : (decide (s1.toNat < 36) && decide (s2.toNat < 36)) = true) (w : Nat) (hw : 335544320 + rd.toNat * 524288 + s1.toNat * 8192 + s2.toNat * 64 = w) :
    decodeLane .c w ⟨none, none⟩ = .ok (.minu rd s1 s2) := by
  have d0 : w / 2 ^ 0 = ((((20 * 2 ^ 5 + rd.toNat) * 2 ^ 6 + s1.toNat) * 2 ^ 1 + 0) * 2 ^ 6 + s2.toNat) * 2 ^ 6 + 0 := by omega
  have d1 := div_next d0 (by decide)
  have d2 := div_next d1 s2.isLt
  have d3 := div_next d2 (by decide)
  have d4 := div_next d3 s1.isLt
  have hop := congrArg (· % 256) (div_next d4 rd.isLt)
  have f0 : fld 5 19 w = rd := fld_at d4
  have f1 : fld 6 13 w = s1 := fld_at d3
  have f2 : fld 6 6 w = s2 := fld_at d1
  have f3 : fld 6 0 w = 0#6 := fld_num d0
  have f4 : fld 1 12 w = 0#1 := fld_num d2
  clear hw d0 d1 d2 d3 d4
  simp only [Bool.and_eq_true] at hwf
  obtain ⟨w1, w2⟩ := hwf
  have hm : decodeControl w ⟨none, none⟩ = (if fld 1 12 w = 0#1 then decMinu w ⟨none, none⟩ else decMinuImm w ⟨none, none⟩) := by unfold decodeControl; rw [show w / 16777216 % 256 = 20 from hop]; rfl
  show decodeControl w ⟨none, none⟩ = _
  rw [hm]
  simp only [f3, f4, if_true, reduceCtorEq, Option.isSome, Bool.false_eq_true, if_false, BitVec.reduceEq, ↓reduceIte]
  unfold decMinu
  simp only [need, f0, f1, f2, f3, f4, w1, w2, if_true, decide_true, Option.isNone, Option.isSome, Bool.and_self, Option.getD]
  rfl

theorem decodeLane_minuImm (rd : CReg) (s1 : CSrc) (imm : Imm 12)
    (hwf : (decide (s1.toNat < 36)) = true) (w : Nat) (hw : 335548416 + rd.toNat * 524288 + s1.toNat * 8192 + imm.low.toNat * 1 = w) :
    decodeLane .c w ⟨imm.high, none⟩ = .ok (.minuImm rd s1 imm) := by
  have d0 : w / 2 ^ 0 = (((20 * 2 ^ 5 + rd.toNat) * 2 ^ 6 + s1.toNat) * 2 ^ 1 + 1) * 2 ^ 12 + imm.low.toNat := by omega
  have d1 := div_next d0 imm.low.isLt
  have d2 := div_next d1 (by decide)
  have d3 := div_next d2 s1.isLt
  have hop := congrArg (· % 256) (div_next d3 rd.isLt)
  have f0 : fld 5 19 w = rd := fld_at d3
  have f1 : fld 6 13 w = s1 := fld_at d2
  have f2 : fld 12 0 w = imm.low := fld_at d0
  have f3 : fld 1 12 w = 1#1 := fld_num d1
  clear hw d0 d1 d2 d3
  have hm : decodeControl w ⟨imm.high, none⟩ = (if fld 1 12 w = 0#1 then decMinu w ⟨imm.high, none⟩ else decMinuImm w ⟨imm.high, none⟩) := by unfold decodeControl; rw [show w / 16777216 % 256 = 20 from hop]; rfl
  show decodeControl w ⟨imm.high, none⟩ = _
  rw [hm]
  simp only [f3, if_true, reduceCtorEq, Option.isSome, Bool.false_eq_true, if_false, BitVec.reduceEq, ↓reduceIte]
  unfold decMinuImm
  simp only [need, f0, f1, f2, f3, hwf, if_true, decide_true, Option.isNone, Option.isSome, Bool.and_self, Option.getD]
  rfl

theorem decodeLane_maxu (rd : CReg) (s1 : CSrc) (s2 : CSrc)
    (hwf : (decide (s1.toNat < 36) && decide (s2.toNat < 36)) = true) (w : Nat) (hw : 352321536 + rd.toNat * 524288 + s1.toNat * 8192 + s2.toNat * 64 = w) :
    decodeLane .c w ⟨none, none⟩ = .ok (.maxu rd s1 s2) := by
  have d0 : w / 2 ^ 0 = ((((21 * 2 ^ 5 + rd.toNat) * 2 ^ 6 + s1.toNat) * 2 ^ 1 + 0) * 2 ^ 6 + s2.toNat) * 2 ^ 6 + 0 := by omega
  have d1 := div_next d0 (by decide)
  have d2 := div_next d1 s2.isLt
  have d3 := div_next d2 (by decide)
  have d4 := div_next d3 s1.isLt
  have hop := congrArg (· % 256) (div_next d4 rd.isLt)
  have f0 : fld 5 19 w = rd := fld_at d4
  have f1 : fld 6 13 w = s1 := fld_at d3
  have f2 : fld 6 6 w = s2 := fld_at d1
  have f3 : fld 6 0 w = 0#6 := fld_num d0
  have f4 : fld 1 12 w = 0#1 := fld_num d2
  clear hw d0 d1 d2 d3 d4
  simp only [Bool.and_eq_true] at hwf
  obtain ⟨w1, w2⟩ := hwf
  have hm : decodeControl w ⟨none, none⟩ = (if fld 1 12 w = 0#1 then decMaxu w ⟨none, none⟩ else decMaxuImm w ⟨none, none⟩) := by unfold decodeControl; rw [show w / 16777216 % 256 = 21 from hop]; rfl
  show decodeControl w ⟨none, none⟩ = _
  rw [hm]
  simp only [f3, f4, if_true, reduceCtorEq, Option.isSome, Bool.false_eq_true, if_false, BitVec.reduceEq, ↓reduceIte]
  unfold decMaxu
  simp only [need, f0, f1, f2, f3, f4, w1, w2, if_true, decide_true, Option.isNone, Option.isSome, Bool.and_self, Option.getD]
  rfl

theorem decodeLane_maxuImm (rd : CReg) (s1 : CSrc) (imm : Imm 12)
    (hwf : (decide (s1.toNat < 36)) = true) (w : Nat) (hw : 352325632 + rd.toNat * 524288 + s1.toNat * 8192 + imm.low.toNat * 1 = w) :
    decodeLane .c w ⟨imm.high, none⟩ = .ok (.maxuImm rd s1 imm) := by
  have d0 : w / 2 ^ 0 = (((21 * 2 ^ 5 + rd.toNat) * 2 ^ 6 + s1.toNat) * 2 ^ 1 + 1) * 2 ^ 12 + imm.low.toNat := by omega
  have d1 := div_next d0 imm.low.isLt
  have d2 := div_next d1 (by decide)
  have d3 := div_next d2 s1.isLt
  have hop := congrArg (· % 256) (div_next d3 rd.isLt)
  have f0 : fld 5 19 w = rd := fld_at d3
  have f1 : fld 6 13 w = s1 := fld_at d2
  have f2 : fld 12 0 w = imm.low := fld_at d0
  have f3 : fld 1 12 w = 1#1 := fld_num d1
  clear hw d0 d1 d2 d3
  have hm : decodeControl w ⟨imm.high, none⟩ = (if fld 1 12 w = 0#1 then decMaxu w ⟨imm.high, none⟩ else decMaxuImm w ⟨imm.high, none⟩) := by unfold decodeControl; rw [show w / 16777216 % 256 = 21 from hop]; rfl
  show decodeControl w ⟨imm.high, none⟩ = _
  rw [hm]
  simp only [f3, if_true, reduceCtorEq, Option.isSome, Bool.false_eq_true, if_false, BitVec.reduceEq, ↓reduceIte]
  unfold decMaxuImm
  simp only [need, f0, f1, f2, f3, hwf, if_true, decide_true, Option.isNone, Option.isSome, Bool.and_self, Option.getD]
  rfl

theorem decodeLane_clz (rd : CReg) (s1 : CSrc)
    (hwf : (decide (s1.toNat < 36)) = true) (w : Nat) (hw : 369098752 + rd.toNat * 524288 + s1.toNat * 8192 = w) :
    decodeLane .c w ⟨none, none⟩ = .ok (.clz rd s1) := by
  have d0 : w / 2 ^ 0 = ((22 * 2 ^ 5 + rd.toNat) * 2 ^ 6 + s1.toNat) * 2 ^ 13 + 0 := by omega
  have d1 := div_next d0 (by decide)
  have d2 := div_next d1 s1.isLt
  have hop := congrArg (· % 256) (div_next d2 rd.isLt)
  have f0 : fld 5 19 w = rd := fld_at d2
  have f1 : fld 6 13 w = s1 := fld_at d1
  have f2 : fld 13 0 w = 0#13 := fld_num d0
  clear hw d0 d1 d2
  have hm : decodeControl w ⟨none, none⟩ = (decClz w ⟨none, none⟩) := by unfold decodeControl; rw [show w / 16777216 % 256 = 22 from hop]; rfl
  show decodeControl w ⟨none, none⟩ = _
  rw [hm]
  unfold decClz
  simp only [need, f0, f1, f2, hwf, if_true, decide_true, Option.isNone, Option.isSome, Bool.and_self, Option.getD]
  rfl

theorem decodeLane_ctz (rd : CReg) (s1 : CSrc)
    (hwf : (decide (s1.toNat < 36)) = true) (w : Nat) (hw : 385875968 + rd.toNat * 524288 + s1.toNat * 8192 = w) :
    decodeLane .c w ⟨none, none⟩ = .ok (.ctz rd s1) := by
  have d0 : w / 2 ^ 0 = ((23 * 2 ^ 5 + rd.toNat) * 2 ^ 6 + s1.toNat) * 2 ^ 13 + 0 := by omega
  have d1 := div_next d0 (by decide)
  have d2 := div_next d1 s1.isLt
  have hop := congrArg (· % 256) (div_next d2 rd.isLt)
  have f0 : fld 5 19 w = rd := fld_at d2
  have f1 : fld 6 13 w = s1 := fld_at d1
  have f2 : fld 13 0 w = 0#13 := fld_num d0
  clear hw d0 d1 d2
  have hm : decodeControl w ⟨none, none⟩ = (decCtz w ⟨none, none⟩) := by unfold decodeControl; rw [show w / 16777216 % 256 = 23 from hop]; rfl
  show decodeControl w ⟨none, none⟩ = _
  rw [hm]
  unfold decCtz
  simp only [need, f0, f1, f2, hwf, if_true, decide_true, Option.isNone, Option.isSome, Bool.and_self, Option.getD]
  rfl

theorem decodeLane_popc (rd : CReg) (s1 : CSrc)
    (hwf : (decide (s1.toNat < 36)) = true) (w : Nat) (hw : 402653184 + rd.toNat * 524288 + s1.toNat * 8192 = w) :
    decodeLane .c w ⟨none, none⟩ = .ok (.popc rd s1) := by
  have d0 : w / 2 ^ 0 = ((24 * 2 ^ 5 + rd.toNat) * 2 ^ 6 + s1.toNat) * 2 ^ 13 + 0 := by omega
  have d1 := div_next d0 (by decide)
  have d2 := div_next d1 s1.isLt
  have hop := congrArg (· % 256) (div_next d2 rd.isLt)
  have f0 : fld 5 19 w = rd := fld_at d2
  have f1 : fld 6 13 w = s1 := fld_at d1
  have f2 : fld 13 0 w = 0#13 := fld_num d0
  clear hw d0 d1 d2
  have hm : decodeControl w ⟨none, none⟩ = (decPopc w ⟨none, none⟩) := by unfold decodeControl; rw [show w / 16777216 % 256 = 24 from hop]; rfl
  show decodeControl w ⟨none, none⟩ = _
  rw [hm]
  unfold decPopc
  simp only [need, f0, f1, f2, hwf, if_true, decide_true, Option.isNone, Option.isSome, Bool.and_self, Option.getD]
  rfl

theorem decodeLane_sext (rd : CReg) (s1 : CSrc) (s2 : CSrc)
    (hwf : (decide (s1.toNat < 36) && decide (s2.toNat < 36)) = true) (w : Nat) (hw : 419430400 + rd.toNat * 524288 + s1.toNat * 8192 + s2.toNat * 64 = w) :
    decodeLane .c w ⟨none, none⟩ = .ok (.sext rd s1 s2) := by
  have d0 : w / 2 ^ 0 = ((((25 * 2 ^ 5 + rd.toNat) * 2 ^ 6 + s1.toNat) * 2 ^ 1 + 0) * 2 ^ 6 + s2.toNat) * 2 ^ 6 + 0 := by omega
  have d1 := div_next d0 (by decide)
  have d2 := div_next d1 s2.isLt
  have d3 := div_next d2 (by decide)
  have d4 := div_next d3 s1.isLt
  have hop := congrArg (· % 256) (div_next d4 rd.isLt)
  have f0 : fld 5 19 w = rd := fld_at d4
  have f1 : fld 6 13 w = s1 := fld_at d3
  have f2 : fld 6 6 w = s2 := fld_at d1
  have f3 : fld 6 0 w = 0#6 := fld_num d0
  have f4 : fld 1 12 w = 0#1 := fld_num d2
  clear hw d0 d1 d2 d3 d4
  simp only [Bool.and_eq_true] at hwf
  obtain ⟨w1, w2⟩ := hwf
  have hm : decodeControl w ⟨none, none⟩ = (if fld 1 12 w = 0#1 then decSext w ⟨none, none⟩ else decSextImm w ⟨none, none⟩) := by unfold decodeControl; rw [show w / 16777216 % 256 = 25 from hop]; rfl
  show decodeControl w ⟨none, none⟩ = _
  rw [hm]
  simp only [f3, f4, if_true, reduceCtorEq, Option.isSome, Bool.false_eq_true, if_false, BitVec.reduceEq, ↓reduceIte]
  unfold decSext
  simp only [need, f0, f1, f2, f3, f4, w1, w2, if_true, decide_true, Option.isNone, Option.isSome, Bool.and_self, Option.getD]
  rfl

theorem decodeLane_sextImm (rd : CReg) (s1 : CSrc) (imm : Imm 12)
    (hwf : (decide (s1.toNat < 36)) = true) (w : Nat) (hw : 419434496 + rd.toNat * 524288 + s1.toNat * 8192 + imm.low.toNat * 1 = w) :
    decodeLane .c w ⟨imm.high, none⟩ = .ok (.sextImm rd s1 imm) := by
  have d0 : w / 2 ^ 0 = (((25 * 2 ^ 5 + rd.toNat) * 2 ^ 6 + s1.toNat) * 2 ^ 1 + 1) * 2 ^ 12 + imm.low.toNat := by omega
  have d1 := div_next d0 imm.low.isLt
  have d2 := div_next d1 (by decide)
  have d3 := div_next d2 s1.isLt
  have hop := congrArg (· % 256) (div_next d3 rd.isLt)
  have f0 : fld 5 19 w = rd := fld_at d3
  have f1 : fld 6 13 w = s1 := fld_at d2
  have f2 : fld 12 0 w = imm.low := fld_at d0
  have f3 : fld 1 12 w = 1#1 := fld_num d1
  clear hw d0 d1 d2 d3
  have hm : decodeControl w ⟨imm.high, none⟩ = (if fld 1 12 w = 0#1 then decSext w ⟨imm.high, none⟩ else decSextImm w ⟨imm.high, none⟩) := by unfold decodeControl; rw [show w / 16777216 % 256 = 25 from hop]; rfl
  show decodeControl w ⟨imm.high, none⟩ = _
  rw [hm]
  simp only [f3, if_true, reduceCtorEq, Option.isSome, Bool.false_eq_true, if_false, BitVec.reduceEq, ↓reduceIte]
  unfold decSextImm
  simp only [need, f0, f1, f2, f3, hwf, if_true, decide_true, Option.isNone, Option.isSome, Bool.and_self, Option.getD]
  rfl

theorem decodeLane_zext (rd : CReg) (s1 : CSrc) (s2 : CSrc)
    (hwf : (decide (s1.toNat < 36) && decide (s2.toNat < 36)) = true) (w : Nat) (hw : 436207616 + rd.toNat * 524288 + s1.toNat * 8192 + s2.toNat * 64 = w) :
    decodeLane .c w ⟨none, none⟩ = .ok (.zext rd s1 s2) := by
  have d0 : w / 2 ^ 0 = ((((26 * 2 ^ 5 + rd.toNat) * 2 ^ 6 + s1.toNat) * 2 ^ 1 + 0) * 2 ^ 6 + s2.toNat) * 2 ^ 6 + 0 := by omega
  have d1 := div_next d0 (by decide)
  have d2 := div_next d1 s2.isLt
  have d3 := div_next d2 (by decide)
  have d4 := div_next d3 s1.isLt
  have hop := congrArg (· % 256) (div_next d4 rd.isLt)
  have f0 : fld 5 19 w = rd := fld_at d4
  have f1 : fld 6 13 w = s1 := fld_at d3
  have f2 : fld 6 6 w = s2 := fld_at d1
  have f3 : fld 6 0 w = 0#6 := fld_num d0
  have f4 : fld 1 12 w = 0#1 := fld_num d2
  clear hw d0 d1 d2 d3 d4
  simp only [Bool.and_eq_true] at hwf
  obtain ⟨w1, w2⟩ := hwf
  have hm : decodeControl w ⟨none, none⟩ = (if fld 1 12 w = 0#1 then decZext w ⟨none, none⟩ else decZextImm w ⟨none, none⟩) := by unfold decodeControl; rw [show w / 16777216 % 256 = 26 from hop]; rfl
  show decodeControl w ⟨none, none⟩ = _
  rw [hm]
  simp only [f3, f4, if_true, reduceCtorEq, Option.isSome, Bool.false_eq_true, if_false, BitVec.reduceEq, ↓reduceIte]
  unfold decZext
  simp only [need, f0, f1, f2, f3, f4, w1, w2, if_true, decide_true, Option.isNone, Option.isSome, Bool.and_self, Option.getD]
  rfl

theorem decodeLane_zextImm (rd : CReg) (s1 : CSrc) (imm : Imm 12)
    (hwf : (decide (s1.toNat < 36)) = true) (w : Nat) (hw : 436211712 + rd.toNat * 524288 + s1.toNat * 8192 + imm.low.toNat * 1 = w) :
    decodeLane .c w ⟨imm.high, none⟩ = .ok (.zextImm rd s1 imm) := by
  have d0 : w / 2 ^ 0 = (((26 * 2 ^ 5 + rd.toNat) * 2 ^ 6 + s1.toNat) * 2 ^ 1 + 1) * 2 ^ 12 + imm.low.toNat := by omega
  have d1 := div_next d0 imm.low.isLt
  have d2 := div_next d1 (by decide)
  have d3 := div_next d2 s1.isLt
  have hop := congrArg (· % 256) (div_next d3 rd.isLt)
  have f0 : fld 5 19 w = rd := fld_at d3
  have f1 : fld 6 13 w = s1 := fld_at d2
  have f2 : fld 12 0 w = imm.low := fld_at d0
  have f3 : fld 1 12 w = 1#1 := fld_num d1
  clear hw d0 d1 d2 d3
  have hm : decodeControl w ⟨imm.high, none⟩ = (if fld 1 12 w = 0#1 then decZext w ⟨imm.high, none⟩ else decZextImm w ⟨imm.high, none⟩) := by unfold decodeControl; rw [show w / 16777216 % 256 = 26 from hop]; rfl
  show decodeControl w ⟨imm.high, none⟩ = _
  rw [hm]
  simp only [f3, if_true, reduceCtorEq, Option.isSome, Bool.false_eq_true, if_false, BitVec.reduceEq, ↓reduceIte]
  unfold decZextImm
  simp only [need, f0, f1, f2, f3, hwf, if_true, decide_true, Option.isNone, Option.isSome, Bool.and_self, Option.getD]
  rfl

theorem decodeLane_sel (rd : CReg) (s1 : CSrc) (s2 : CSrc) (s3 : CSrc)
    (hwf : (decide (s1.toNat < 36) && decide (s2.toNat < 36) && decide (s3.toNat < 36)) = true) (w : Nat) (hw : 452984832 + rd.toNat * 524288 + s1.toNat * 8192 + s2.toNat * 64 + s3.toNat * 1 = w) :
    decodeLane .c w ⟨none, none⟩ = .ok (.sel rd s1 s2 s3) := by
  have d0 : w / 2 ^ 0 = ((((27 * 2 ^ 5 + rd.toNat) * 2 ^ 6 + s1.toNat) * 2 ^ 1 + 0) * 2 ^ 6 + s2.toNat) * 2 ^ 6 + s3.toNat := by omega
  have d1 := div_next d0 s3.isLt
  have d2 := div_next d1 s2.isLt
  have d3 := div_next d2 (by decide)
  have d4 := div_next d3 s1.isLt
  have hop := congrArg (· % 256) (div_next d4 rd.isLt)
  have f0 : fld 5 19 w = rd := fld_at d4
  have f1 : fld 6 13 w = s1 := fld_at d3
  have f2 : fld 6 6 w = s2 := fld_at d1
  have f3 : fld 6 0 w = s3 := fld_at d0
  have f4 : fld 1 12 w = 0#1 := fld_num d2
  clear hw d0 d1 d2 d3 d4
  simp only [Bool.and_eq_true] at hwf
  obtain ⟨⟨w1, w2⟩, w3⟩ := hwf
  have hm : decodeControl w ⟨none, none⟩ = (decSel w ⟨none, none⟩) := by unfold decodeControl; rw [show w / 16777216 % 256 = 27 from hop]; rfl
  show decodeControl w ⟨none, none⟩ = _
  rw [hm]
  unfold decSel
  simp only [need, f0, f1, f2, f3, f4, w1, w2, w3, if_true, decide_true, Option.isNone, Option.isSome, Bool.and_self, Option.getD]
  rfl

theorem decodeLane_cmp (rd : CReg) (s1 : CSrc) (s2 : CSrc) (cond : Cond)
    (hwf : (decide (s1.toNat < 36) && decide (s2.toNat < 36)) = true) (w : Nat) (hw : 469762048 + rd.toNat * 524288 + s1.toNat * 8192 + s2.toNat * 64 + cond.toNat * 1 = w) :
    decodeLane .c w ⟨none, none⟩ = .ok (.cmp rd s1 s2 cond) := by
  have d0 : w / 2 ^ 0 = ((((((28 * 2 ^ 5 + rd.toNat) * 2 ^ 6 + s1.toNat) * 2 ^ 1 + 0) * 2 ^ 6 + s2.toNat) * 2 ^ 2 + 0) * 2 ^ 1 + 0) * 2 ^ 3 + cond.toNat := by omega
  have d1 := div_next d0 (Cond.toNat_lt cond)
  have d2 := div_next d1 (by decide)
  have d3 := div_next d2 (by decide)
  have d4 := div_next d3 s2.isLt
  have d5 := div_next d4 (by decide)
  have d6 := div_next d5 s1.isLt
  have hop := congrArg (· % 256) (div_next d6 rd.isLt)
  have f0 : fld 5 19 w = rd := fld_at d6
  have f1 : fld 6 13 w = s1 := fld_at d5
  have f2 : fld 6 6 w = s2 := fld_at d3
  have f3 : Cond.ofNat? (fld 4 0 w).toNat = some cond := fld_cond (by omega) (by decide)
  have f4 : fld 2 4 w = 0#2 := fld_num d2
  have f5 : fld 1 12 w = 0#1 := fld_num d4
  clear hw d0 d1 d2 d3 d4 d5 d6
  simp only [Bool.and_eq_true] at hwf
  obtain ⟨w1, w2⟩ := hwf
  have hm : decodeControl w ⟨none, none⟩ = (decCmp w ⟨none, none⟩) := by unfold decodeControl; rw [show w / 16777216 % 256 = 28 from hop]; rfl
  show decodeControl w ⟨none, none⟩ = _
  rw [hm]
  unfold decCmp
  simp only [need, f0, f1, f2, f3, f4, f5, w1, w2, if_true, decide_true, Option.isNone, Option.isSome, Bool.and_self, Option.getD]
  rfl

theorem decodeLane_li (rd : CReg) (imm : Imm 19)
    (hwf : (true) = true) (w : Nat) (hw : 486539264 + rd.toNat * 524288 + imm.low.toNat * 1 = w) :
    decodeLane .c w ⟨imm.high, none⟩ = .ok (.li rd imm) := by
  have d0 : w / 2 ^ 0 = (29 * 2 ^ 5 + rd.toNat) * 2 ^ 19 + imm.low.toNat := by omega
  have d1 := div_next d0 imm.low.isLt
  have hop := congrArg (· % 256) (div_next d1 rd.isLt)
  have f0 : fld 5 19 w = rd := fld_at d1
  have f1 : fld 19 0 w = imm.low := fld_at d0
  clear hw d0 d1
  have hm : decodeControl w ⟨imm.high, none⟩ = (decLi w ⟨imm.high, none⟩) := by unfold decodeControl; rw [show w / 16777216 % 256 = 29 from hop]; rfl
  show decodeControl w ⟨imm.high, none⟩ = _
  rw [hm]
  unfold decLi
  simp only [need, f0, f1, if_true, decide_true, Option.isNone, Option.isSome, Bool.and_self, Option.getD]
  rfl

theorem decodeLane_b (off : Imm 24)
    (hwf : (true) = true) (w : Nat) (hw : 536870912 + off.low.toNat * 1 = w) :
    decodeLane .c w ⟨off.high, none⟩ = .ok (.b off) := by
  have d0 : w / 2 ^ 0 = 32 * 2 ^ 24 + off.low.toNat := by omega
  have hop := congrArg (· % 256) (div_next d0 off.low.isLt)
  have f0 : fld 24 0 w = off.low := fld_at d0
  clear hw d0
  have hm : decodeControl w ⟨off.high, none⟩ = (decB w ⟨off.high, none⟩) := by unfold decodeControl; rw [show w / 16777216 % 256 = 32 from hop]; rfl
  show decodeControl w ⟨off.high, none⟩ = _
  rw [hm]
  unfold decB
  simp only [need, f0, if_true, decide_true, Option.isNone, Option.isSome, Bool.and_self, Option.getD]
  rfl

theorem decodeLane_bc (cond : Cond) (s1 : CSrc) (s2 : CSrc) (off : Imm 8)
    (hwf : (decide (s1.toNat < 36) && decide (s2.toNat < 36)) = true) (w : Nat) (hw : 553648128 + cond.toNat * 1048576 + s1.toNat * 16384 + s2.toNat * 256 + off.low.toNat * 1 = w) :
    decodeLane .c w ⟨off.high, none⟩ = .ok (.bc cond s1 s2 off) := by
  have d0 : w / 2 ^ 0 = ((((33 * 2 ^ 1 + 0) * 2 ^ 3 + cond.toNat) * 2 ^ 6 + s1.toNat) * 2 ^ 6 + s2.toNat) * 2 ^ 8 + off.low.toNat := by omega
  have d1 := div_next d0 off.low.isLt
  have d2 := div_next d1 s2.isLt
  have d3 := div_next d2 s1.isLt
  have d4 := div_next d3 (Cond.toNat_lt cond)
  have hop := congrArg (· % 256) (div_next d4 (by decide))
  have f0 : Cond.ofNat? (fld 4 20 w).toNat = some cond := fld_cond (by omega) (by decide)
  have f1 : fld 6 14 w = s1 := fld_at d2
  have f2 : fld 6 8 w = s2 := fld_at d1
  have f3 : fld 8 0 w = off.low := fld_at d0
  clear hw d0 d1 d2 d3 d4
  simp only [Bool.and_eq_true] at hwf
  obtain ⟨w1, w2⟩ := hwf
  have hm : decodeControl w ⟨off.high, none⟩ = (decBc w ⟨off.high, none⟩) := by unfold decodeControl; rw [show w / 16777216 % 256 = 33 from hop]; rfl
  show decodeControl w ⟨off.high, none⟩ = _
  rw [hm]
  unfold decBc
  simp only [need, f0, f1, f2, f3, w1, w2, if_true, decide_true, Option.isNone, Option.isSome, Bool.and_self, Option.getD]
  rfl

theorem decodeLane_br (s1 : CSrc)
    (hwf : (decide (s1.toNat < 36)) = true) (w : Nat) (hw : 570425344 + s1.toNat * 8192 = w) :
    decodeLane .c w ⟨none, none⟩ = .ok (.br s1) := by
  have d0 : w / 2 ^ 0 = ((34 * 2 ^ 5 + 0) * 2 ^ 6 + s1.toNat) * 2 ^ 13 + 0 := by omega
  have d1 := div_next d0 (by decide)
  have d2 := div_next d1 s1.isLt
  have hop := congrArg (· % 256) (div_next d2 (by decide))
  have f0 : fld 6 13 w = s1 := fld_at d1
  have f1 : fld 13 0 w = 0#13 := fld_num d0
  have f2 : fld 5 19 w = 0#5 := fld_num d2
  clear hw d0 d1 d2
  have hm : decodeControl w ⟨none, none⟩ = (decBr w ⟨none, none⟩) := by unfold decodeControl; rw [show w / 16777216 % 256 = 34 from hop]; rfl
  show decodeControl w ⟨none, none⟩ = _
  rw [hm]
  unfold decBr
  simp only [need, f0, f1, f2, hwf, if_true, decide_true, Option.isNone, Option.isSome, Bool.and_self, Option.getD]
  rfl

theorem decodeLane_call (off : Imm 24)
    (hwf : (true) = true) (w : Nat) (hw : 587202560 + off.low.toNat * 1 = w) :
    decodeLane .c w ⟨off.high, none⟩ = .ok (.call off) := by
  have d0 : w / 2 ^ 0 = 35 * 2 ^ 24 + off.low.toNat := by omega
  have hop := congrArg (· % 256) (div_next d0 off.low.isLt)
  have f0 : fld 24 0 w = off.low := fld_at d0
  clear hw d0
  have hm : decodeControl w ⟨off.high, none⟩ = (decCall w ⟨off.high, none⟩) := by unfold decodeControl; rw [show w / 16777216 % 256 = 35 from hop]; rfl
  show decodeControl w ⟨off.high, none⟩ = _
  rw [hm]
  unfold decCall
  simp only [need, f0, if_true, decide_true, Option.isNone, Option.isSome, Bool.and_self, Option.getD]
  rfl

theorem decodeLane_callr (s1 : CSrc)
    (hwf : (decide (s1.toNat < 36)) = true) (w : Nat) (hw : 603979776 + s1.toNat * 8192 = w) :
    decodeLane .c w ⟨none, none⟩ = .ok (.callr s1) := by
  have d0 : w / 2 ^ 0 = ((36 * 2 ^ 5 + 0) * 2 ^ 6 + s1.toNat) * 2 ^ 13 + 0 := by omega
  have d1 := div_next d0 (by decide)
  have d2 := div_next d1 s1.isLt
  have hop := congrArg (· % 256) (div_next d2 (by decide))
  have f0 : fld 6 13 w = s1 := fld_at d1
  have f1 : fld 13 0 w = 0#13 := fld_num d0
  have f2 : fld 5 19 w = 0#5 := fld_num d2
  clear hw d0 d1 d2
  have hm : decodeControl w ⟨none, none⟩ = (decCallr w ⟨none, none⟩) := by unfold decodeControl; rw [show w / 16777216 % 256 = 36 from hop]; rfl
  show decodeControl w ⟨none, none⟩ = _
  rw [hm]
  unfold decCallr
  simp only [need, f0, f1, f2, hwf, if_true, decide_true, Option.isNone, Option.isSome, Bool.and_self, Option.getD]
  rfl

theorem decodeLane_ret
    (hwf : (true) = true) (w : Nat) (hw : 620756992 = w) :
    decodeLane .c w ⟨none, none⟩ = .ok (.ret) := by
  have d0 : w / 2 ^ 0 = 37 * 2 ^ 24 + 0 := by omega
  have hop := congrArg (· % 256) (div_next d0 (by decide))
  have f0 : fld 24 0 w = 0#24 := fld_num d0
  clear hw d0
  have hm : decodeControl w ⟨none, none⟩ = (decRet w ⟨none, none⟩) := by unfold decodeControl; rw [show w / 16777216 % 256 = 37 from hop]; rfl
  show decodeControl w ⟨none, none⟩ = _
  rw [hm]
  unfold decRet
  simp only [need, f0, if_true, decide_true, Option.isNone, Option.isSome, Bool.and_self, Option.getD]
  rfl

theorem decodeLane_frame (f : BitVec 7)
    (hwf : (true) = true) (w : Nat) (hw : 637534208 + f.toNat * 1 = w) :
    decodeLane .c w ⟨none, none⟩ = .ok (.frame f) := by
  have d0 : w / 2 ^ 0 = (38 * 2 ^ 17 + 0) * 2 ^ 7 + f.toNat := by omega
  have d1 := div_next d0 f.isLt
  have hop := congrArg (· % 256) (div_next d1 (by decide))
  have f0 : fld 7 0 w = f := fld_at d0
  have f1 : fld 17 7 w = 0#17 := fld_num d1
  clear hw d0 d1
  have hm : decodeControl w ⟨none, none⟩ = (decFrame w ⟨none, none⟩) := by unfold decodeControl; rw [show w / 16777216 % 256 = 38 from hop]; rfl
  show decodeControl w ⟨none, none⟩ = _
  rw [hm]
  unfold decFrame
  simp only [need, f0, f1, if_true, decide_true, Option.isNone, Option.isSome, Bool.and_self, Option.getD]
  rfl

theorem decodeLane_ld (rt : CReg) (s1 : CSrc) (sz : BitVec 2) (sg : Bool) (off : Imm 9)
    (hwf : (decide (s1.toNat < 36) && decide (¬ (sz = 3#2 ∧ sg = true))) = true) (w : Nat) (hw : 671088640 + rt.toNat * 262144 + s1.toNat * 4096 + sz.toNat * 1024 + sg.toNat * 512 + off.low.toNat * 1 = w) :
    decodeLane .c w ⟨off.high, none⟩ = .ok (.ld rt s1 sz sg off) := by
  have d0 : w / 2 ^ 0 = (((((40 * 2 ^ 1 + 0) * 2 ^ 5 + rt.toNat) * 2 ^ 6 + s1.toNat) * 2 ^ 2 + sz.toNat) * 2 ^ 1 + sg.toNat) * 2 ^ 9 + off.low.toNat := by omega
  have d1 := div_next d0 off.low.isLt
  have d2 := div_next d1 (Bool.toNat_lt sg)
  have d3 := div_next d2 sz.isLt
  have d4 := div_next d3 s1.isLt
  have d5 := div_next d4 rt.isLt
  have hop := congrArg (· % 256) (div_next d5 (by decide))
  have f0 : fld 5 18 w = rt := fld_at d4
  have f1 : fld 6 12 w = s1 := fld_at d3
  have f2 : fld 2 10 w = sz := fld_at d2
  have f3 : decide (fld 1 9 w = 1#1) = sg := fld_bool (mod_at d1 (Bool.toNat_lt sg))
  have f4 : fld 9 0 w = off.low := fld_at d0
  have f5 : fld 1 23 w = 0#1 := fld_num d5
  clear hw d0 d1 d2 d3 d4 d5
  simp only [Bool.and_eq_true] at hwf
  obtain ⟨w1, w2⟩ := hwf
  have hm : decodeControl w ⟨off.high, none⟩ = (decLd w ⟨off.high, none⟩) := by unfold decodeControl; rw [show w / 16777216 % 256 = 40 from hop]; rfl
  show decodeControl w ⟨off.high, none⟩ = _
  rw [hm]
  unfold decLd
  simp only [need, f0, f1, f2, f3, f4, f5, w1, w2, if_true, decide_true, Option.isNone, Option.isSome, Bool.and_self, Option.getD]
  rfl

theorem decodeLane_st (rt : CSrc) (s1 : CSrc) (sz : BitVec 2) (off : Imm 9)
    (hwf : (decide (rt.toNat < 36) && decide (s1.toNat < 36)) = true) (w : Nat) (hw : 687865856 + rt.toNat * 262144 + s1.toNat * 4096 + sz.toNat * 1024 + off.low.toNat * 1 = w) :
    decodeLane .c w ⟨off.high, none⟩ = .ok (.st rt s1 sz off) := by
  have d0 : w / 2 ^ 0 = ((((41 * 2 ^ 6 + rt.toNat) * 2 ^ 6 + s1.toNat) * 2 ^ 2 + sz.toNat) * 2 ^ 1 + 0) * 2 ^ 9 + off.low.toNat := by omega
  have d1 := div_next d0 off.low.isLt
  have d2 := div_next d1 (by decide)
  have d3 := div_next d2 sz.isLt
  have d4 := div_next d3 s1.isLt
  have hop := congrArg (· % 256) (div_next d4 rt.isLt)
  have f0 : fld 6 18 w = rt := fld_at d4
  have f1 : fld 6 12 w = s1 := fld_at d3
  have f2 : fld 2 10 w = sz := fld_at d2
  have f3 : fld 9 0 w = off.low := fld_at d0
  have f4 : fld 1 9 w = 0#1 := fld_num d1
  clear hw d0 d1 d2 d3 d4
  simp only [Bool.and_eq_true] at hwf
  obtain ⟨w1, w2⟩ := hwf
  have hm : decodeControl w ⟨off.high, none⟩ = (decSt w ⟨off.high, none⟩) := by unfold decodeControl; rw [show w / 16777216 % 256 = 41 from hop]; rfl
  show decodeControl w ⟨off.high, none⟩ = _
  rw [hm]
  unfold decSt
  simp only [need, f0, f1, f2, f3, f4, w1, w2, if_true, decide_true, Option.isNone, Option.isSome, Bool.and_self, Option.getD]
  rfl

theorem decodeLane_amoAdd (rd : CReg) (s1 : CSrc) (s2 : CSrc) (scope : Scope) (wide : Bool)
    (hwf : (decide (s1.toNat < 36) && decide (s2.toNat < 36)) = true) (w : Nat) (hw : 704643072 + rd.toNat * 524288 + s1.toNat * 8192 + s2.toNat * 128 + scope.toNat * 16 + wide.toNat * 8 = w) :
    decodeLane .c w ⟨none, none⟩ = .ok (.amoAdd rd s1 s2 scope wide) := by
  have d0 : w / 2 ^ 0 = (((((42 * 2 ^ 5 + rd.toNat) * 2 ^ 6 + s1.toNat) * 2 ^ 6 + s2.toNat) * 2 ^ 3 + scope.toNat) * 2 ^ 1 + wide.toNat) * 2 ^ 3 + 0 := by omega
  have d1 := div_next d0 (by decide)
  have d2 := div_next d1 (Bool.toNat_lt wide)
  have d3 := div_next d2 (Scope.toNat_lt scope)
  have d4 := div_next d3 s2.isLt
  have d5 := div_next d4 s1.isLt
  have hop := congrArg (· % 256) (div_next d5 rd.isLt)
  have f0 : fld 5 19 w = rd := fld_at d5
  have f1 : fld 6 13 w = s1 := fld_at d4
  have f2 : fld 6 7 w = s2 := fld_at d3
  have f3 : Scope.ofNat? (fld 3 4 w).toNat = some scope := fld_scope (mod_at d2 (Scope.toNat_lt scope)) (by decide)
  have f4 : decide (fld 1 3 w = 1#1) = wide := fld_bool (mod_at d1 (Bool.toNat_lt wide))
  have f5 : fld 3 0 w = 0#3 := fld_num d0
  clear hw d0 d1 d2 d3 d4 d5
  simp only [Bool.and_eq_true] at hwf
  obtain ⟨w1, w2⟩ := hwf
  have hm : decodeControl w ⟨none, none⟩ = (decAmoAdd w ⟨none, none⟩) := by unfold decodeControl; rw [show w / 16777216 % 256 = 42 from hop]; rfl
  show decodeControl w ⟨none, none⟩ = _
  rw [hm]
  unfold decAmoAdd
  simp only [need, f0, f1, f2, f3, f4, f5, w1, w2, if_true, decide_true, Option.isNone, Option.isSome, Bool.and_self, Option.getD]
  rfl

theorem decodeLane_amoAnd (rd : CReg) (s1 : CSrc) (s2 : CSrc) (scope : Scope) (wide : Bool)
    (hwf : (decide (s1.toNat < 36) && decide (s2.toNat < 36)) = true) (w : Nat) (hw : 721420288 + rd.toNat * 524288 + s1.toNat * 8192 + s2.toNat * 128 + scope.toNat * 16 + wide.toNat * 8 = w) :
    decodeLane .c w ⟨none, none⟩ = .ok (.amoAnd rd s1 s2 scope wide) := by
  have d0 : w / 2 ^ 0 = (((((43 * 2 ^ 5 + rd.toNat) * 2 ^ 6 + s1.toNat) * 2 ^ 6 + s2.toNat) * 2 ^ 3 + scope.toNat) * 2 ^ 1 + wide.toNat) * 2 ^ 3 + 0 := by omega
  have d1 := div_next d0 (by decide)
  have d2 := div_next d1 (Bool.toNat_lt wide)
  have d3 := div_next d2 (Scope.toNat_lt scope)
  have d4 := div_next d3 s2.isLt
  have d5 := div_next d4 s1.isLt
  have hop := congrArg (· % 256) (div_next d5 rd.isLt)
  have f0 : fld 5 19 w = rd := fld_at d5
  have f1 : fld 6 13 w = s1 := fld_at d4
  have f2 : fld 6 7 w = s2 := fld_at d3
  have f3 : Scope.ofNat? (fld 3 4 w).toNat = some scope := fld_scope (mod_at d2 (Scope.toNat_lt scope)) (by decide)
  have f4 : decide (fld 1 3 w = 1#1) = wide := fld_bool (mod_at d1 (Bool.toNat_lt wide))
  have f5 : fld 3 0 w = 0#3 := fld_num d0
  clear hw d0 d1 d2 d3 d4 d5
  simp only [Bool.and_eq_true] at hwf
  obtain ⟨w1, w2⟩ := hwf
  have hm : decodeControl w ⟨none, none⟩ = (decAmoAnd w ⟨none, none⟩) := by unfold decodeControl; rw [show w / 16777216 % 256 = 43 from hop]; rfl
  show decodeControl w ⟨none, none⟩ = _
  rw [hm]
  unfold decAmoAnd
  simp only [need, f0, f1, f2, f3, f4, f5, w1, w2, if_true, decide_true, Option.isNone, Option.isSome, Bool.and_self, Option.getD]
  rfl

theorem decodeLane_amoOr (rd : CReg) (s1 : CSrc) (s2 : CSrc) (scope : Scope) (wide : Bool)
    (hwf : (decide (s1.toNat < 36) && decide (s2.toNat < 36)) = true) (w : Nat) (hw : 738197504 + rd.toNat * 524288 + s1.toNat * 8192 + s2.toNat * 128 + scope.toNat * 16 + wide.toNat * 8 = w) :
    decodeLane .c w ⟨none, none⟩ = .ok (.amoOr rd s1 s2 scope wide) := by
  have d0 : w / 2 ^ 0 = (((((44 * 2 ^ 5 + rd.toNat) * 2 ^ 6 + s1.toNat) * 2 ^ 6 + s2.toNat) * 2 ^ 3 + scope.toNat) * 2 ^ 1 + wide.toNat) * 2 ^ 3 + 0 := by omega
  have d1 := div_next d0 (by decide)
  have d2 := div_next d1 (Bool.toNat_lt wide)
  have d3 := div_next d2 (Scope.toNat_lt scope)
  have d4 := div_next d3 s2.isLt
  have d5 := div_next d4 s1.isLt
  have hop := congrArg (· % 256) (div_next d5 rd.isLt)
  have f0 : fld 5 19 w = rd := fld_at d5
  have f1 : fld 6 13 w = s1 := fld_at d4
  have f2 : fld 6 7 w = s2 := fld_at d3
  have f3 : Scope.ofNat? (fld 3 4 w).toNat = some scope := fld_scope (mod_at d2 (Scope.toNat_lt scope)) (by decide)
  have f4 : decide (fld 1 3 w = 1#1) = wide := fld_bool (mod_at d1 (Bool.toNat_lt wide))
  have f5 : fld 3 0 w = 0#3 := fld_num d0
  clear hw d0 d1 d2 d3 d4 d5
  simp only [Bool.and_eq_true] at hwf
  obtain ⟨w1, w2⟩ := hwf
  have hm : decodeControl w ⟨none, none⟩ = (decAmoOr w ⟨none, none⟩) := by unfold decodeControl; rw [show w / 16777216 % 256 = 44 from hop]; rfl
  show decodeControl w ⟨none, none⟩ = _
  rw [hm]
  unfold decAmoOr
  simp only [need, f0, f1, f2, f3, f4, f5, w1, w2, if_true, decide_true, Option.isNone, Option.isSome, Bool.and_self, Option.getD]
  rfl

theorem decodeLane_amoXor (rd : CReg) (s1 : CSrc) (s2 : CSrc) (scope : Scope) (wide : Bool)
    (hwf : (decide (s1.toNat < 36) && decide (s2.toNat < 36)) = true) (w : Nat) (hw : 754974720 + rd.toNat * 524288 + s1.toNat * 8192 + s2.toNat * 128 + scope.toNat * 16 + wide.toNat * 8 = w) :
    decodeLane .c w ⟨none, none⟩ = .ok (.amoXor rd s1 s2 scope wide) := by
  have d0 : w / 2 ^ 0 = (((((45 * 2 ^ 5 + rd.toNat) * 2 ^ 6 + s1.toNat) * 2 ^ 6 + s2.toNat) * 2 ^ 3 + scope.toNat) * 2 ^ 1 + wide.toNat) * 2 ^ 3 + 0 := by omega
  have d1 := div_next d0 (by decide)
  have d2 := div_next d1 (Bool.toNat_lt wide)
  have d3 := div_next d2 (Scope.toNat_lt scope)
  have d4 := div_next d3 s2.isLt
  have d5 := div_next d4 s1.isLt
  have hop := congrArg (· % 256) (div_next d5 rd.isLt)
  have f0 : fld 5 19 w = rd := fld_at d5
  have f1 : fld 6 13 w = s1 := fld_at d4
  have f2 : fld 6 7 w = s2 := fld_at d3
  have f3 : Scope.ofNat? (fld 3 4 w).toNat = some scope := fld_scope (mod_at d2 (Scope.toNat_lt scope)) (by decide)
  have f4 : decide (fld 1 3 w = 1#1) = wide := fld_bool (mod_at d1 (Bool.toNat_lt wide))
  have f5 : fld 3 0 w = 0#3 := fld_num d0
  clear hw d0 d1 d2 d3 d4 d5
  simp only [Bool.and_eq_true] at hwf
  obtain ⟨w1, w2⟩ := hwf
  have hm : decodeControl w ⟨none, none⟩ = (decAmoXor w ⟨none, none⟩) := by unfold decodeControl; rw [show w / 16777216 % 256 = 45 from hop]; rfl
  show decodeControl w ⟨none, none⟩ = _
  rw [hm]
  unfold decAmoXor
  simp only [need, f0, f1, f2, f3, f4, f5, w1, w2, if_true, decide_true, Option.isNone, Option.isSome, Bool.and_self, Option.getD]
  rfl

theorem decodeLane_amoMin (rd : CReg) (s1 : CSrc) (s2 : CSrc) (scope : Scope) (wide : Bool)
    (hwf : (decide (s1.toNat < 36) && decide (s2.toNat < 36)) = true) (w : Nat) (hw : 771751936 + rd.toNat * 524288 + s1.toNat * 8192 + s2.toNat * 128 + scope.toNat * 16 + wide.toNat * 8 = w) :
    decodeLane .c w ⟨none, none⟩ = .ok (.amoMin rd s1 s2 scope wide) := by
  have d0 : w / 2 ^ 0 = (((((46 * 2 ^ 5 + rd.toNat) * 2 ^ 6 + s1.toNat) * 2 ^ 6 + s2.toNat) * 2 ^ 3 + scope.toNat) * 2 ^ 1 + wide.toNat) * 2 ^ 3 + 0 := by omega
  have d1 := div_next d0 (by decide)
  have d2 := div_next d1 (Bool.toNat_lt wide)
  have d3 := div_next d2 (Scope.toNat_lt scope)
  have d4 := div_next d3 s2.isLt
  have d5 := div_next d4 s1.isLt
  have hop := congrArg (· % 256) (div_next d5 rd.isLt)
  have f0 : fld 5 19 w = rd := fld_at d5
  have f1 : fld 6 13 w = s1 := fld_at d4
  have f2 : fld 6 7 w = s2 := fld_at d3
  have f3 : Scope.ofNat? (fld 3 4 w).toNat = some scope := fld_scope (mod_at d2 (Scope.toNat_lt scope)) (by decide)
  have f4 : decide (fld 1 3 w = 1#1) = wide := fld_bool (mod_at d1 (Bool.toNat_lt wide))
  have f5 : fld 3 0 w = 0#3 := fld_num d0
  clear hw d0 d1 d2 d3 d4 d5
  simp only [Bool.and_eq_true] at hwf
  obtain ⟨w1, w2⟩ := hwf
  have hm : decodeControl w ⟨none, none⟩ = (decAmoMin w ⟨none, none⟩) := by unfold decodeControl; rw [show w / 16777216 % 256 = 46 from hop]; rfl
  show decodeControl w ⟨none, none⟩ = _
  rw [hm]
  unfold decAmoMin
  simp only [need, f0, f1, f2, f3, f4, f5, w1, w2, if_true, decide_true, Option.isNone, Option.isSome, Bool.and_self, Option.getD]
  rfl

theorem decodeLane_amoMax (rd : CReg) (s1 : CSrc) (s2 : CSrc) (scope : Scope) (wide : Bool)
    (hwf : (decide (s1.toNat < 36) && decide (s2.toNat < 36)) = true) (w : Nat) (hw : 788529152 + rd.toNat * 524288 + s1.toNat * 8192 + s2.toNat * 128 + scope.toNat * 16 + wide.toNat * 8 = w) :
    decodeLane .c w ⟨none, none⟩ = .ok (.amoMax rd s1 s2 scope wide) := by
  have d0 : w / 2 ^ 0 = (((((47 * 2 ^ 5 + rd.toNat) * 2 ^ 6 + s1.toNat) * 2 ^ 6 + s2.toNat) * 2 ^ 3 + scope.toNat) * 2 ^ 1 + wide.toNat) * 2 ^ 3 + 0 := by omega
  have d1 := div_next d0 (by decide)
  have d2 := div_next d1 (Bool.toNat_lt wide)
  have d3 := div_next d2 (Scope.toNat_lt scope)
  have d4 := div_next d3 s2.isLt
  have d5 := div_next d4 s1.isLt
  have hop := congrArg (· % 256) (div_next d5 rd.isLt)
  have f0 : fld 5 19 w = rd := fld_at d5
  have f1 : fld 6 13 w = s1 := fld_at d4
  have f2 : fld 6 7 w = s2 := fld_at d3
  have f3 : Scope.ofNat? (fld 3 4 w).toNat = some scope := fld_scope (mod_at d2 (Scope.toNat_lt scope)) (by decide)
  have f4 : decide (fld 1 3 w = 1#1) = wide := fld_bool (mod_at d1 (Bool.toNat_lt wide))
  have f5 : fld 3 0 w = 0#3 := fld_num d0
  clear hw d0 d1 d2 d3 d4 d5
  simp only [Bool.and_eq_true] at hwf
  obtain ⟨w1, w2⟩ := hwf
  have hm : decodeControl w ⟨none, none⟩ = (decAmoMax w ⟨none, none⟩) := by unfold decodeControl; rw [show w / 16777216 % 256 = 47 from hop]; rfl
  show decodeControl w ⟨none, none⟩ = _
  rw [hm]
  unfold decAmoMax
  simp only [need, f0, f1, f2, f3, f4, f5, w1, w2, if_true, decide_true, Option.isNone, Option.isSome, Bool.and_self, Option.getD]
  rfl

theorem decodeLane_amoXch (rd : CReg) (s1 : CSrc) (s2 : CSrc) (scope : Scope) (wide : Bool)
    (hwf : (decide (s1.toNat < 36) && decide (s2.toNat < 36)) = true) (w : Nat) (hw : 805306368 + rd.toNat * 524288 + s1.toNat * 8192 + s2.toNat * 128 + scope.toNat * 16 + wide.toNat * 8 = w) :
    decodeLane .c w ⟨none, none⟩ = .ok (.amoXch rd s1 s2 scope wide) := by
  have d0 : w / 2 ^ 0 = (((((48 * 2 ^ 5 + rd.toNat) * 2 ^ 6 + s1.toNat) * 2 ^ 6 + s2.toNat) * 2 ^ 3 + scope.toNat) * 2 ^ 1 + wide.toNat) * 2 ^ 3 + 0 := by omega
  have d1 := div_next d0 (by decide)
  have d2 := div_next d1 (Bool.toNat_lt wide)
  have d3 := div_next d2 (Scope.toNat_lt scope)
  have d4 := div_next d3 s2.isLt
  have d5 := div_next d4 s1.isLt
  have hop := congrArg (· % 256) (div_next d5 rd.isLt)
  have f0 : fld 5 19 w = rd := fld_at d5
  have f1 : fld 6 13 w = s1 := fld_at d4
  have f2 : fld 6 7 w = s2 := fld_at d3
  have f3 : Scope.ofNat? (fld 3 4 w).toNat = some scope := fld_scope (mod_at d2 (Scope.toNat_lt scope)) (by decide)
  have f4 : decide (fld 1 3 w = 1#1) = wide := fld_bool (mod_at d1 (Bool.toNat_lt wide))
  have f5 : fld 3 0 w = 0#3 := fld_num d0
  clear hw d0 d1 d2 d3 d4 d5
  simp only [Bool.and_eq_true] at hwf
  obtain ⟨w1, w2⟩ := hwf
  have hm : decodeControl w ⟨none, none⟩ = (decAmoXch w ⟨none, none⟩) := by unfold decodeControl; rw [show w / 16777216 % 256 = 48 from hop]; rfl
  show decodeControl w ⟨none, none⟩ = _
  rw [hm]
  unfold decAmoXch
  simp only [need, f0, f1, f2, f3, f4, f5, w1, w2, if_true, decide_true, Option.isNone, Option.isSome, Bool.and_self, Option.getD]
  rfl

theorem decodeLane_amoCas (rd : CReg) (s1 : CSrc) (s2 : CSrc) (s3 : CSrc) (scope : Scope) (wide : Bool)
    (hwf : (decide (s1.toNat < 36) && decide (s2.toNat < 36) && decide (s3.toNat < 36)) = true) (w : Nat) (hw : 822083584 + rd.toNat * 524288 + s1.toNat * 8192 + s2.toNat * 128 + scope.toNat * 16 + wide.toNat * 8 = w) :
    decodeLane .c w ⟨none, optE (encE s3.toNat 0 0 0)⟩ = .ok (.amoCas rd s1 s2 s3 scope wide) := by
  have he : ((⟨none, optE (encE s3.toNat 0 0 0)⟩ : Ext)).e2w = s3.toNat * 2097152 + 0 * 16384 + 0 * 128 + 0 := e2w_optE (Nat.lt_of_lt_of_le s3.isLt (by decide)) (by decide) (by decide) (by decide)
  generalize hx : (⟨none, optE (encE s3.toNat 0 0 0)⟩ : Ext) = x at he ⊢
  have hx0 : x.e0 = none := by rw [← hx]
  have d0 : w / 2 ^ 0 = (((((49 * 2 ^ 5 + rd.toNat) * 2 ^ 6 + s1.toNat) * 2 ^ 6 + s2.toNat) * 2 ^ 3 + scope.toNat) * 2 ^ 1 + wide.toNat) * 2 ^ 3 + 0 := by omega
  have d1 := div_next d0 (by decide)
  have d2 := div_next d1 (Bool.toNat_lt wide)
  have d3 := div_next d2 (Scope.toNat_lt scope)
  have d4 := div_next d3 s2.isLt
  have d5 := div_next d4 s1.isLt
  have hop := congrArg (· % 256) (div_next d5 rd.isLt)
  have f0 : fld 5 19 w = rd := fld_at d5
  have f1 : fld 6 13 w = s1 := fld_at d4
  have f2 : fld 6 7 w = s2 := fld_at d3
  have f3 : fld 6 21 x.e2w = s3 := fld_eq (by omega)
  have f4 : Scope.ofNat? (fld 3 4 w).toNat = some scope := fld_scope (mod_at d2 (Scope.toNat_lt scope)) (by decide)
  have f5 : decide (fld 1 3 w = 1#1) = wide := fld_bool (mod_at d1 (Bool.toNat_lt wide))
  have f6 : fld 1 27 x.e2w = 0#1 := fld_lit 0 (by omega)
  have f7 : fld 3 0 w = 0#3 := fld_num d0
  have f8 : fld 7 14 x.e2w = 0#7 := fld_lit 0 (by omega)
  have f9 : fld 7 7 x.e2w = 0#7 := fld_lit 0 (by omega)
  have f10 : fld 7 0 x.e2w = 0#7 := fld_lit 0 (by omega)
  clear hw d0 d1 d2 d3 d4 d5
  simp only [Bool.and_eq_true] at hwf
  obtain ⟨⟨w1, w2⟩, w3⟩ := hwf
  have hm : decodeControl w x = (decAmoCas w x) := by unfold decodeControl; rw [show w / 16777216 % 256 = 49 from hop]; rfl
  show decodeControl w x = _
  rw [hm]
  unfold decAmoCas
  simp only [need, f0, f1, f2, f3, f4, f5, f6, f7, f8, f9, f10, w1, w2, w3, hx0, if_true, decide_true, Option.isNone, Option.isSome, Bool.and_self, Option.getD]
  rfl

theorem decodeLane_acq (rd : CReg) (s1 : CSrc) (s2 : CSrc) (scope : Scope)
    (hwf : (decide (s1.toNat < 36) && decide (s2.toNat < 36)) = true) (w : Nat) (hw : 838860800 + rd.toNat * 524288 + s1.toNat * 8192 + s2.toNat * 128 + scope.toNat * 16 = w) :
    decodeLane .c w ⟨none, none⟩ = .ok (.acq rd s1 s2 scope) := by
  have d0 : w / 2 ^ 0 = ((((50 * 2 ^ 5 + rd.toNat) * 2 ^ 6 + s1.toNat) * 2 ^ 6 + s2.toNat) * 2 ^ 3 + scope.toNat) * 2 ^ 4 + 0 := by omega
  have d1 := div_next d0 (by decide)
  have d2 := div_next d1 (Scope.toNat_lt scope)
  have d3 := div_next d2 s2.isLt
  have d4 := div_next d3 s1.isLt
  have hop := congrArg (· % 256) (div_next d4 rd.isLt)
  have f0 : fld 5 19 w = rd := fld_at d4
  have f1 : fld 6 13 w = s1 := fld_at d3
  have f2 : fld 6 7 w = s2 := fld_at d2
  have f3 : Scope.ofNat? (fld 3 4 w).toNat = some scope := fld_scope (mod_at d1 (Scope.toNat_lt scope)) (by decide)
  have f4 : fld 4 0 w = 0#4 := fld_num d0
  clear hw d0 d1 d2 d3 d4
  simp only [Bool.and_eq_true] at hwf
  obtain ⟨w1, w2⟩ := hwf
  have hm : decodeControl w ⟨none, none⟩ = (decAcq w ⟨none, none⟩) := by unfold decodeControl; rw [show w / 16777216 % 256 = 50 from hop]; rfl
  show decodeControl w ⟨none, none⟩ = _
  rw [hm]
  unfold decAcq
  simp only [need, f0, f1, f2, f3, f4, w1, w2, if_true, decide_true, Option.isNone, Option.isSome, Bool.and_self, Option.getD]
  rfl

theorem decodeLane_rel (rd : CReg) (s1 : CSrc) (s2 : CSrc) (scope : Scope)
    (hwf : (decide (s1.toNat < 36) && decide (s2.toNat < 36)) = true) (w : Nat) (hw : 855638016 + rd.toNat * 524288 + s1.toNat * 8192 + s2.toNat * 128 + scope.toNat * 16 = w) :
    decodeLane .c w ⟨none, none⟩ = .ok (.rel rd s1 s2 scope) := by
  have d0 : w / 2 ^ 0 = ((((51 * 2 ^ 5 + rd.toNat) * 2 ^ 6 + s1.toNat) * 2 ^ 6 + s2.toNat) * 2 ^ 3 + scope.toNat) * 2 ^ 4 + 0 := by omega
  have d1 := div_next d0 (by decide)
  have d2 := div_next d1 (Scope.toNat_lt scope)
  have d3 := div_next d2 s2.isLt
  have d4 := div_next d3 s1.isLt
  have hop := congrArg (· % 256) (div_next d4 rd.isLt)
  have f0 : fld 5 19 w = rd := fld_at d4
  have f1 : fld 6 13 w = s1 := fld_at d3
  have f2 : fld 6 7 w = s2 := fld_at d2
  have f3 : Scope.ofNat? (fld 3 4 w).toNat = some scope := fld_scope (mod_at d1 (Scope.toNat_lt scope)) (by decide)
  have f4 : fld 4 0 w = 0#4 := fld_num d0
  clear hw d0 d1 d2 d3 d4
  simp only [Bool.and_eq_true] at hwf
  obtain ⟨w1, w2⟩ := hwf
  have hm : decodeControl w ⟨none, none⟩ = (decRel w ⟨none, none⟩) := by unfold decodeControl; rw [show w / 16777216 % 256 = 51 from hop]; rfl
  show decodeControl w ⟨none, none⟩ = _
  rw [hm]
  unfold decRel
  simp only [need, f0, f1, f2, f3, f4, w1, w2, if_true, decide_true, Option.isNone, Option.isSome, Bool.and_self, Option.getD]
  rfl

theorem decodeLane_bind (s1 : CSrc) (s2 : CSrc) (s3 : CSrc) (scope : Scope)
    (hwf : (decide (s1.toNat < 36) && decide (s2.toNat < 36) && decide (s3.toNat < 36)) = true) (w : Nat) (hw : 872415232 + s1.toNat * 8192 + s2.toNat * 128 + scope.toNat * 16 = w) :
    decodeLane .c w ⟨none, optE (encE s3.toNat 0 0 0)⟩ = .ok (.bind s1 s2 s3 scope) := by
  have he : ((⟨none, optE (encE s3.toNat 0 0 0)⟩ : Ext)).e2w = s3.toNat * 2097152 + 0 * 16384 + 0 * 128 + 0 := e2w_optE (Nat.lt_of_lt_of_le s3.isLt (by decide)) (by decide) (by decide) (by decide)
  generalize hx : (⟨none, optE (encE s3.toNat 0 0 0)⟩ : Ext) = x at he ⊢
  have hx0 : x.e0 = none := by rw [← hx]
  have d0 : w / 2 ^ 0 = ((((52 * 2 ^ 5 + 0) * 2 ^ 6 + s1.toNat) * 2 ^ 6 + s2.toNat) * 2 ^ 3 + scope.toNat) * 2 ^ 4 + 0 := by omega
  have d1 := div_next d0 (by decide)
  have d2 := div_next d1 (Scope.toNat_lt scope)
  have d3 := div_next d2 s2.isLt
  have d4 := div_next d3 s1.isLt
  have hop := congrArg (· % 256) (div_next d4 (by decide))
  have f0 : fld 6 13 w = s1 := fld_at d3
  have f1 : fld 6 7 w = s2 := fld_at d2
  have f2 : fld 6 21 x.e2w = s3 := fld_eq (by omega)
  have f3 : Scope.ofNat? (fld 3 4 w).toNat = some scope := fld_scope (mod_at d1 (Scope.toNat_lt scope)) (by decide)
  have f4 : fld 1 27 x.e2w = 0#1 := fld_lit 0 (by omega)
  have f5 : fld 4 0 w = 0#4 := fld_num d0
  have f6 : fld 5 19 w = 0#5 := fld_num d4
  have f7 : fld 7 14 x.e2w = 0#7 := fld_lit 0 (by omega)
  have f8 : fld 7 7 x.e2w = 0#7 := fld_lit 0 (by omega)
  have f9 : fld 7 0 x.e2w = 0#7 := fld_lit 0 (by omega)
  clear hw d0 d1 d2 d3 d4
  simp only [Bool.and_eq_true] at hwf
  obtain ⟨⟨w1, w2⟩, w3⟩ := hwf
  have hm : decodeControl w x = (decBind w x) := by unfold decodeControl; rw [show w / 16777216 % 256 = 52 from hop]; rfl
  show decodeControl w x = _
  rw [hm]
  unfold decBind
  simp only [need, f0, f1, f2, f3, f4, f5, f6, f7, f8, f9, w1, w2, w3, hx0, if_true, decide_true, Option.isNone, Option.isSome, Bool.and_self, Option.getD]
  rfl

theorem decodeLane_unbind (s1 : CSrc) (s2 : CSrc) (scope : Scope)
    (hwf : (decide (s1.toNat < 36) && decide (s2.toNat < 36)) = true) (w : Nat) (hw : 889192448 + s1.toNat * 8192 + s2.toNat * 128 + scope.toNat * 16 = w) :
    decodeLane .c w ⟨none, none⟩ = .ok (.unbind s1 s2 scope) := by
  have d0 : w / 2 ^ 0 = ((((53 * 2 ^ 5 + 0) * 2 ^ 6 + s1.toNat) * 2 ^ 6 + s2.toNat) * 2 ^ 3 + scope.toNat) * 2 ^ 4 + 0 := by omega
  have d1 := div_next d0 (by decide)
  have d2 := div_next d1 (Scope.toNat_lt scope)
  have d3 := div_next d2 s2.isLt
  have d4 := div_next d3 s1.isLt
  have hop := congrArg (· % 256) (div_next d4 (by decide))
  have f0 : fld 6 13 w = s1 := fld_at d3
  have f1 : fld 6 7 w = s2 := fld_at d2
  have f2 : Scope.ofNat? (fld 3 4 w).toNat = some scope := fld_scope (mod_at d1 (Scope.toNat_lt scope)) (by decide)
  have f3 : fld 4 0 w = 0#4 := fld_num d0
  have f4 : fld 5 19 w = 0#5 := fld_num d4
  clear hw d0 d1 d2 d3 d4
  simp only [Bool.and_eq_true] at hwf
  obtain ⟨w1, w2⟩ := hwf
  have hm : decodeControl w ⟨none, none⟩ = (decUnbind w ⟨none, none⟩) := by unfold decodeControl; rw [show w / 16777216 % 256 = 53 from hop]; rfl
  show decodeControl w ⟨none, none⟩ = _
  rw [hm]
  unfold decUnbind
  simp only [need, f0, f1, f2, f3, f4, w1, w2, if_true, decide_true, Option.isNone, Option.isSome, Bool.and_self, Option.getD]
  rfl

theorem decodeLane_fence (scope : Scope)
    (hwf : (true) = true) (w : Nat) (hw : 905969664 + scope.toNat * 16 = w) :
    decodeLane .c w ⟨none, none⟩ = .ok (.fence scope) := by
  have d0 : w / 2 ^ 0 = ((54 * 2 ^ 17 + 0) * 2 ^ 3 + scope.toNat) * 2 ^ 4 + 0 := by omega
  have d1 := div_next d0 (by decide)
  have d2 := div_next d1 (Scope.toNat_lt scope)
  have hop := congrArg (· % 256) (div_next d2 (by decide))
  have f0 : Scope.ofNat? (fld 3 4 w).toNat = some scope := fld_scope (mod_at d1 (Scope.toNat_lt scope)) (by decide)
  have f1 : fld 4 0 w = 0#4 := fld_num d0
  have f2 : fld 17 7 w = 0#17 := fld_num d2
  clear hw d0 d1 d2
  have hm : decodeControl w ⟨none, none⟩ = (decFence w ⟨none, none⟩) := by unfold decodeControl; rw [show w / 16777216 % 256 = 54 from hop]; rfl
  show decodeControl w ⟨none, none⟩ = _
  rw [hm]
  unfold decFence
  simp only [need, f0, f1, f2, if_true, decide_true, Option.isNone, Option.isSome, Bool.and_self, Option.getD]
  rfl

theorem decodeLane_setShape (hd : ShReg) (s1 : CSrc) (s2 : CSrc) (s3 : CSrc) (fmt : BitVec 7)
    (hwf : (decide (s1.toNat < 36) && decide (s2.toNat < 36) && decide (s3.toNat < 36)) = true) (w : Nat) (hw : 939524096 + hd.toNat * 524288 + s1.toNat * 8192 + s2.toNat * 128 + fmt.toNat * 1 = w) :
    decodeLane .c w ⟨none, optE (encE s3.toNat 0 0 0)⟩ = .ok (.setShape hd s1 s2 s3 fmt) := by
  have he : ((⟨none, optE (encE s3.toNat 0 0 0)⟩ : Ext)).e2w = s3.toNat * 2097152 + 0 * 16384 + 0 * 128 + 0 := e2w_optE (Nat.lt_of_lt_of_le s3.isLt (by decide)) (by decide) (by decide) (by decide)
  generalize hx : (⟨none, optE (encE s3.toNat 0 0 0)⟩ : Ext) = x at he ⊢
  have hx0 : x.e0 = none := by rw [← hx]
  have d0 : w / 2 ^ 0 = ((((56 * 2 ^ 2 + 0) * 2 ^ 3 + hd.toNat) * 2 ^ 6 + s1.toNat) * 2 ^ 6 + s2.toNat) * 2 ^ 7 + fmt.toNat := by omega
  have d1 := div_next d0 fmt.isLt
  have d2 := div_next d1 s2.isLt
  have d3 := div_next d2 s1.isLt
  have d4 := div_next d3 hd.isLt
  have hop := congrArg (· % 256) (div_next d4 (by decide))
  have f0 : fld 3 19 w = hd := fld_at d3
  have f1 : fld 6 13 w = s1 := fld_at d2
  have f2 : fld 6 7 w = s2 := fld_at d1
  have f3 : fld 6 21 x.e2w = s3 := fld_eq (by omega)
  have f4 : fld 7 0 w = fmt := fld_at d0
  have f5 : fld 1 27 x.e2w = 0#1 := fld_lit 0 (by omega)
  have f6 : fld 2 22 w = 0#2 := fld_num d4
  have f7 : fld 7 14 x.e2w = 0#7 := fld_lit 0 (by omega)
  have f8 : fld 7 7 x.e2w = 0#7 := fld_lit 0 (by omega)
  have f9 : fld 7 0 x.e2w = 0#7 := fld_lit 0 (by omega)
  clear hw d0 d1 d2 d3 d4
  simp only [Bool.and_eq_true] at hwf
  obtain ⟨⟨w1, w2⟩, w3⟩ := hwf
  have hm : decodeControl w x = (decSetShape w x) := by unfold decodeControl; rw [show w / 16777216 % 256 = 56 from hop]; rfl
  show decodeControl w x = _
  rw [hm]
  unfold decSetShape
  simp only [need, f0, f1, f2, f3, f4, f5, f6, f7, f8, f9, w1, w2, w3, hx0, if_true, decide_true, Option.isNone, Option.isSome, Bool.and_self, Option.getD]
  rfl

theorem decodeLane_getShape (rd : CReg) (hd : ShReg) (sl : BitVec 3)
    (hwf : (decide (sl.toNat ≤ 4)) = true) (w : Nat) (hw : 956301312 + rd.toNat * 524288 + hd.toNat * 1 + sl.toNat * 8 = w) :
    decodeLane .c w ⟨none, none⟩ = .ok (.getShape rd hd sl) := by
  have d0 : w / 2 ^ 0 = (((57 * 2 ^ 5 + rd.toNat) * 2 ^ 13 + 0) * 2 ^ 3 + sl.toNat) * 2 ^ 3 + hd.toNat := by omega
  have d1 := div_next d0 hd.isLt
  have d2 := div_next d1 sl.isLt
  have d3 := div_next d2 (by decide)
  have hop := congrArg (· % 256) (div_next d3 rd.isLt)
  have f0 : fld 5 19 w = rd := fld_at d3
  have f1 : fld 3 0 w = hd := fld_at d0
  have f2 : fld 3 3 w = sl := fld_at d1
  have f3 : fld 13 6 w = 0#13 := fld_num d2
  clear hw d0 d1 d2 d3
  have hm : decodeControl w ⟨none, none⟩ = (decGetShape w ⟨none, none⟩) := by unfold decodeControl; rw [show w / 16777216 % 256 = 57 from hop]; rfl
  show decodeControl w ⟨none, none⟩ = _
  rw [hm]
  unfold decGetShape
  simp only [need, f0, f1, f2, f3, hwf, if_true, decide_true, Option.isNone, Option.isSome, Bool.and_self, Option.getD]
  rfl

theorem decodeLane_thld (hd : ThReg) (s1 : CSrc) (off : BitVec 7)
    (hwf : (decide (s1.toNat < 36)) = true) (w : Nat) (hw : 973078528 + hd.toNat * 524288 + s1.toNat * 8192 + off.toNat * 1 = w) :
    decodeLane .c w ⟨none, none⟩ = .ok (.thld hd s1 off) := by
  have d0 : w / 2 ^ 0 = ((((58 * 2 ^ 1 + 0) * 2 ^ 4 + hd.toNat) * 2 ^ 6 + s1.toNat) * 2 ^ 6 + 0) * 2 ^ 7 + off.toNat := by omega
  have d1 := div_next d0 off.isLt
  have d2 := div_next d1 (by decide)
  have d3 := div_next d2 s1.isLt
  have d4 := div_next d3 hd.isLt
  have hop := congrArg (· % 256) (div_next d4 (by decide))
  have f0 : fld 4 19 w = hd := fld_at d3
  have f1 : fld 6 13 w = s1 := fld_at d2
  have f2 : fld 7 0 w = off := fld_at d0
  have f3 : fld 6 7 w = 0#6 := fld_num d1
  have f4 : fld 1 23 w = 0#1 := fld_num d4
  clear hw d0 d1 d2 d3 d4
  have hm : decodeControl w ⟨none, none⟩ = (decThld w ⟨none, none⟩) := by unfold decodeControl; rw [show w / 16777216 % 256 = 58 from hop]; rfl
  show decodeControl w ⟨none, none⟩ = _
  rw [hm]
  unfold decThld
  simp only [need, f0, f1, f2, f3, f4, hwf, if_true, decide_true, Option.isNone, Option.isSome, Bool.and_self, Option.getD]
  rfl

theorem decodeLane_thst (hd : ThReg) (s1 : CSrc) (off : BitVec 7)
    (hwf : (decide (s1.toNat < 36)) = true) (w : Nat) (hw : 989855744 + hd.toNat * 524288 + s1.toNat * 8192 + off.toNat * 1 = w) :
    decodeLane .c w ⟨none, none⟩ = .ok (.thst hd s1 off) := by
  have d0 : w / 2 ^ 0 = ((((59 * 2 ^ 1 + 0) * 2 ^ 4 + hd.toNat) * 2 ^ 6 + s1.toNat) * 2 ^ 6 + 0) * 2 ^ 7 + off.toNat := by omega
  have d1 := div_next d0 off.isLt
  have d2 := div_next d1 (by decide)
  have d3 := div_next d2 s1.isLt
  have d4 := div_next d3 hd.isLt
  have hop := congrArg (· % 256) (div_next d4 (by decide))
  have f0 : fld 4 19 w = hd := fld_at d3
  have f1 : fld 6 13 w = s1 := fld_at d2
  have f2 : fld 7 0 w = off := fld_at d0
  have f3 : fld 6 7 w = 0#6 := fld_num d1
  have f4 : fld 1 23 w = 0#1 := fld_num d4
  clear hw d0 d1 d2 d3 d4
  have hm : decodeControl w ⟨none, none⟩ = (decThst w ⟨none, none⟩) := by unfold decodeControl; rw [show w / 16777216 % 256 = 59 from hop]; rfl
  show decodeControl w ⟨none, none⟩ = _
  rw [hm]
  unfold decThst
  simp only [need, f0, f1, f2, f3, f4, hwf, if_true, decide_true, Option.isNone, Option.isSome, Bool.and_self, Option.getD]
  rfl

theorem decodeLane_thset (hd : ThReg) (fs : BitVec 7) (s1 : CSrc)
    (hwf : (decide (s1.toNat < 36) && decide (fs.toNat ≤ 14)) = true) (w : Nat) (hw : 1006632960 + hd.toNat * 524288 + fs.toNat * 1 + s1.toNat * 8192 = w) :
    decodeLane .c w ⟨none, none⟩ = .ok (.thset hd fs s1) := by
  have d0 : w / 2 ^ 0 = ((((60 * 2 ^ 1 + 0) * 2 ^ 4 + hd.toNat) * 2 ^ 6 + s1.toNat) * 2 ^ 6 + 0) * 2 ^ 7 + fs.toNat := by omega
  have d1 := div_next d0 fs.isLt
  have d2 := div_next d1 (by decide)
  have d3 := div_next d2 s1.isLt
  have d4 := div_next d3 hd.isLt
  have hop := congrArg (· % 256) (div_next d4 (by decide))
  have f0 : fld 4 19 w = hd := fld_at d3
  have f1 : fld 7 0 w = fs := fld_at d0
  have f2 : fld 6 13 w = s1 := fld_at d2
  have f3 : fld 6 7 w = 0#6 := fld_num d1
  have f4 : fld 1 23 w = 0#1 := fld_num d4
  clear hw d0 d1 d2 d3 d4
  simp only [Bool.and_eq_true] at hwf
  obtain ⟨w1, w2⟩ := hwf
  have hm : decodeControl w ⟨none, none⟩ = (decThset w ⟨none, none⟩) := by unfold decodeControl; rw [show w / 16777216 % 256 = 60 from hop]; rfl
  show decodeControl w ⟨none, none⟩ = _
  rw [hm]
  unfold decThset
  simp only [need, f0, f1, f2, f3, f4, w1, w2, if_true, decide_true, Option.isNone, Option.isSome, Bool.and_self, Option.getD]
  rfl

theorem decodeLane_thget (rd : CReg) (hd : ThReg) (fs : BitVec 7)
    (hwf : (decide (fs.toNat ≤ 14)) = true) (w : Nat) (hw : 1023410176 + rd.toNat * 524288 + hd.toNat * 128 + fs.toNat * 1 = w) :
    decodeLane .c w ⟨none, none⟩ = .ok (.thget rd hd fs) := by
  have d0 : w / 2 ^ 0 = ((((61 * 2 ^ 5 + rd.toNat) * 2 ^ 6 + 0) * 2 ^ 2 + 0) * 2 ^ 4 + hd.toNat) * 2 ^ 7 + fs.toNat := by omega
  have d1 := div_next d0 fs.isLt
  have d2 := div_next d1 hd.isLt
  have d3 := div_next d2 (by decide)
  have d4 := div_next d3 (by decide)
  have hop := congrArg (· % 256) (div_next d4 rd.isLt)
  have f0 : fld 5 19 w = rd := fld_at d4
  have f1 : fld 4 7 w = hd := fld_at d1
  have f2 : fld 7 0 w = fs := fld_at d0
  have f3 : fld 2 11 w = 0#2 := fld_num d2
  have f4 : fld 6 13 w = 0#6 := fld_num d3
  clear hw d0 d1 d2 d3 d4
  have hm : decodeControl w ⟨none, none⟩ = (decThget w ⟨none, none⟩) := by unfold decodeControl; rw [show w / 16777216 % 256 = 61 from hop]; rfl
  show decodeControl w ⟨none, none⟩ = _
  rw [hm]
  unfold decThget
  simp only [need, f0, f1, f2, f3, f4, hwf, if_true, decide_true, Option.isNone, Option.isSome, Bool.and_self, Option.getD]
  rfl

theorem decodeLane_seql (n : BitVec 3) (s1 : CSrc)
    (hwf : (decide (s1.toNat < 36) && decide (n.toNat ≤ 5)) = true) (w : Nat) (hw : 1073741824 + n.toNat * 1 + s1.toNat * 8192 = w) :
    decodeLane .c w ⟨none, none⟩ = .ok (.seql n s1) := by
  have d0 : w / 2 ^ 0 = (((64 * 2 ^ 5 + 0) * 2 ^ 6 + s1.toNat) * 2 ^ 10 + 0) * 2 ^ 3 + n.toNat := by omega
  have d1 := div_next d0 n.isLt
  have d2 := div_next d1 (by decide)
  have d3 := div_next d2 s1.isLt
  have hop := congrArg (· % 256) (div_next d3 (by decide))
  have f0 : fld 3 0 w = n := fld_at d0
  have f1 : fld 6 13 w = s1 := fld_at d2
  have f2 : fld 10 3 w = 0#10 := fld_num d1
  have f3 : fld 5 19 w = 0#5 := fld_num d3
  clear hw d0 d1 d2 d3
  simp only [Bool.and_eq_true] at hwf
  obtain ⟨w1, w2⟩ := hwf
  have hm : decodeControl w ⟨none, none⟩ = (decSeql w ⟨none, none⟩) := by unfold decodeControl; rw [show w / 16777216 % 256 = 64 from hop]; rfl
  show decodeControl w ⟨none, none⟩ = _
  rw [hm]
  unfold decSeql
  simp only [need, f0, f1, f2, f3, w1, w2, if_true, decide_true, Option.isNone, Option.isSome, Bool.and_self, Option.getD]
  rfl

theorem decodeLane_seqs (n : BitVec 3) (j : BitVec 2) (ak : AReg) (s1 : CSrc)
    (hwf : (decide (s1.toNat < 36) && decide (n.toNat ≤ 5)) = true) (w : Nat) (hw : 1090519040 + n.toNat * 1 + j.toNat * 8 + ak.toNat * 524288 + s1.toNat * 8192 = w) :
    decodeLane .c w ⟨none, none⟩ = .ok (.seqs n j ak s1) := by
  have d0 : w / 2 ^ 0 = ((((65 * 2 ^ 5 + ak.toNat) * 2 ^ 6 + s1.toNat) * 2 ^ 8 + 0) * 2 ^ 2 + j.toNat) * 2 ^ 3 + n.toNat := by omega
  have d1 := div_next d0 n.isLt
  have d2 := div_next d1 j.isLt
  have d3 := div_next d2 (by decide)
  have d4 := div_next d3 s1.isLt
  have hop := congrArg (· % 256) (div_next d4 ak.isLt)
  have f0 : fld 3 0 w = n := fld_at d0
  have f1 : fld 2 3 w = j := fld_at d1
  have f2 : fld 5 19 w = ak := fld_at d4
  have f3 : fld 6 13 w = s1 := fld_at d3
  have f4 : fld 8 5 w = 0#8 := fld_num d2
  clear hw d0 d1 d2 d3 d4
  simp only [Bool.and_eq_true] at hwf
  obtain ⟨w1, w2⟩ := hwf
  have hm : decodeControl w ⟨none, none⟩ = (decSeqs w ⟨none, none⟩) := by unfold decodeControl; rw [show w / 16777216 % 256 = 65 from hop]; rfl
  show decodeControl w ⟨none, none⟩ = _
  rw [hm]
  unfold decSeqs
  simp only [need, f0, f1, f2, f3, f4, w1, w2, if_true, decide_true, Option.isNone, Option.isSome, Bool.and_self, Option.getD]
  rfl

theorem decodeLane_loopb (lv : BitVec 3) (len : BitVec 7)
    (hwf : (true) = true) (w : Nat) (hw : 1107296256 + lv.toNat * 524288 + len.toNat * 1 = w) :
    decodeLane .c w ⟨none, none⟩ = .ok (.loopb lv len) := by
  have d0 : w / 2 ^ 0 = (((66 * 2 ^ 2 + 0) * 2 ^ 3 + lv.toNat) * 2 ^ 12 + 0) * 2 ^ 7 + len.toNat := by omega
  have d1 := div_next d0 len.isLt
  have d2 := div_next d1 (by decide)
  have d3 := div_next d2 lv.isLt
  have hop := congrArg (· % 256) (div_next d3 (by decide))
  have f0 : fld 3 19 w = lv := fld_at d2
  have f1 : fld 7 0 w = len := fld_at d0
  have f2 : fld 12 7 w = 0#12 := fld_num d1
  have f3 : fld 2 22 w = 0#2 := fld_num d3
  clear hw d0 d1 d2 d3
  have hm : decodeControl w ⟨none, none⟩ = (decLoopb w ⟨none, none⟩) := by unfold decodeControl; rw [show w / 16777216 % 256 = 66 from hop]; rfl
  show decodeControl w ⟨none, none⟩ = _
  rw [hm]
  unfold decLoopb
  simp only [need, f0, f1, f2, f3, if_true, decide_true, Option.isNone, Option.isSome, Bool.and_self, Option.getD]
  rfl

theorem decodeLane_loopc (lv : BitVec 3) (len : BitVec 7) (s1 : CSrc) (s2 : CSrc)
    (hwf : (decide (s1.toNat < 36) && decide (s2.toNat < 36)) = true) (w : Nat) (hw : 1124073472 + lv.toNat * 524288 + len.toNat * 1 + s1.toNat * 8192 + s2.toNat * 128 = w) :
    decodeLane .c w ⟨none, none⟩ = .ok (.loopc lv len s1 s2) := by
  have d0 : w / 2 ^ 0 = ((((67 * 2 ^ 2 + 0) * 2 ^ 3 + lv.toNat) * 2 ^ 6 + s1.toNat) * 2 ^ 6 + s2.toNat) * 2 ^ 7 + len.toNat := by omega
  have d1 := div_next d0 len.isLt
  have d2 := div_next d1 s2.isLt
  have d3 := div_next d2 s1.isLt
  have d4 := div_next d3 lv.isLt
  have hop := congrArg (· % 256) (div_next d4 (by decide))
  have f0 : fld 3 19 w = lv := fld_at d3
  have f1 : fld 7 0 w = len := fld_at d0
  have f2 : fld 6 13 w = s1 := fld_at d2
  have f3 : fld 6 7 w = s2 := fld_at d1
  have f4 : fld 2 22 w = 0#2 := fld_num d4
  clear hw d0 d1 d2 d3 d4
  simp only [Bool.and_eq_true] at hwf
  obtain ⟨w1, w2⟩ := hwf
  have hm : decodeControl w ⟨none, none⟩ = (decLoopc w ⟨none, none⟩) := by unfold decodeControl; rw [show w / 16777216 % 256 = 67 from hop]; rfl
  show decodeControl w ⟨none, none⟩ = _
  rw [hm]
  unfold decLoopc
  simp only [need, f0, f1, f2, f3, f4, w1, w2, if_true, decide_true, Option.isNone, Option.isSome, Bool.and_self, Option.getD]
  rfl

theorem decodeLane_ovw (n : BitVec 3)
    (hwf : (decide (n.toNat ≤ 5)) = true) (w : Nat) (hw : 1140850688 + n.toNat * 1 = w) :
    decodeLane .c w ⟨none, none⟩ = .ok (.ovw n) := by
  have d0 : w / 2 ^ 0 = (68 * 2 ^ 21 + 0) * 2 ^ 3 + n.toNat := by omega
  have d1 := div_next d0 n.isLt
  have hop := congrArg (· % 256) (div_next d1 (by decide))
  have f0 : fld 3 0 w = n := fld_at d0
  have f1 : fld 21 3 w = 0#21 := fld_num d1
  clear hw d0 d1
  have hm : decodeControl w ⟨none, none⟩ = (decOvw w ⟨none, none⟩) := by unfold decodeControl; rw [show w / 16777216 % 256 = 68 from hop]; rfl
  show decodeControl w ⟨none, none⟩ = _
  rw [hm]
  unfold decOvw
  simp only [need, f0, f1, hwf, if_true, decide_true, Option.isNone, Option.isSome, Bool.and_self, Option.getD]
  rfl

theorem decodeLane_foot (j : BitVec 2) (ak : AReg) (s1 : CSrc) (s2 : CSrc) (s3 : CSrc)
    (hwf : (decide (s1.toNat < 36) && decide (s2.toNat < 36) && decide (s3.toNat < 36)) = true) (w : Nat) (hw : 1157627904 + j.toNat * 1 + ak.toNat * 524288 + s1.toNat * 8192 + s2.toNat * 128 = w) :
    decodeLane .c w ⟨none, optE (encE s3.toNat 0 0 0)⟩ = .ok (.foot j ak s1 s2 s3) := by
  have he : ((⟨none, optE (encE s3.toNat 0 0 0)⟩ : Ext)).e2w = s3.toNat * 2097152 + 0 * 16384 + 0 * 128 + 0 := e2w_optE (Nat.lt_of_lt_of_le s3.isLt (by decide)) (by decide) (by decide) (by decide)
  generalize hx : (⟨none, optE (encE s3.toNat 0 0 0)⟩ : Ext) = x at he ⊢
  have hx0 : x.e0 = none := by rw [← hx]
  have d0 : w / 2 ^ 0 = ((((69 * 2 ^ 5 + ak.toNat) * 2 ^ 6 + s1.toNat) * 2 ^ 6 + s2.toNat) * 2 ^ 5 + 0) * 2 ^ 2 + j.toNat := by omega
  have d1 := div_next d0 j.isLt
  have d2 := div_next d1 (by decide)
  have d3 := div_next d2 s2.isLt
  have d4 := div_next d3 s1.isLt
  have hop := congrArg (· % 256) (div_next d4 ak.isLt)
  have f0 : fld 2 0 w = j := fld_at d0
  have f1 : fld 5 19 w = ak := fld_at d4
  have f2 : fld 6 13 w = s1 := fld_at d3
  have f3 : fld 6 7 w = s2 := fld_at d2
  have f4 : fld 6 21 x.e2w = s3 := fld_eq (by omega)
  have f5 : fld 1 27 x.e2w = 0#1 := fld_lit 0 (by omega)
  have f6 : fld 5 2 w = 0#5 := fld_num d1
  have f7 : fld 7 14 x.e2w = 0#7 := fld_lit 0 (by omega)
  have f8 : fld 7 7 x.e2w = 0#7 := fld_lit 0 (by omega)
  have f9 : fld 7 0 x.e2w = 0#7 := fld_lit 0 (by omega)
  clear hw d0 d1 d2 d3 d4
  simp only [Bool.and_eq_true] at hwf
  obtain ⟨⟨w1, w2⟩, w3⟩ := hwf
  have hm : decodeControl w x = (decFoot w x) := by unfold decodeControl; rw [show w / 16777216 % 256 = 69 from hop]; rfl
  show decodeControl w x = _
  rw [hm]
  unfold decFoot
  simp only [need, f0, f1, f2, f3, f4, f5, f6, f7, f8, f9, w1, w2, w3, hx0, if_true, decide_true, Option.isNone, Option.isSome, Bool.and_self, Option.getD]
  rfl

theorem decodeLane_footv (ak : AReg) (vs : BitVec 7)
    (hwf : (decide (vs.toNat < 72)) = true) (w : Nat) (hw : 1174405120 + ak.toNat * 524288 + vs.toNat * 1 = w) :
    decodeLane .c w ⟨none, none⟩ = .ok (.footv ak vs) := by
  have d0 : w / 2 ^ 0 = ((70 * 2 ^ 5 + ak.toNat) * 2 ^ 12 + 0) * 2 ^ 7 + vs.toNat := by omega
  have d1 := div_next d0 vs.isLt
  have d2 := div_next d1 (by decide)
  have hop := congrArg (· % 256) (div_next d2 ak.isLt)
  have f0 : fld 5 19 w = ak := fld_at d2
  have f1 : fld 7 0 w = vs := fld_at d0
  have f2 : fld 12 7 w = 0#12 := fld_num d1
  clear hw d0 d1 d2
  have hm : decodeControl w ⟨none, none⟩ = (decFootv w ⟨none, none⟩) := by unfold decodeControl; rw [show w / 16777216 % 256 = 70 from hop]; rfl
  show decodeControl w ⟨none, none⟩ = _
  rw [hm]
  unfold decFootv
  simp only [need, f0, f1, f2, hwf, if_true, decide_true, Option.isNone, Option.isSome, Bool.and_self, Option.getD]
  rfl

theorem decodeLane_region (s1 : CSrc) (s2 : CSrc) (s3 : CSrc) (s4 : CSrc)
    (hwf : (decide (s1.toNat < 36) && decide (s2.toNat < 36) && decide (s3.toNat < 36) && decide (s4.toNat < 36)) = true) (w : Nat) (hw : 1191182336 + s1.toNat * 8192 + s2.toNat * 128 = w) :
    decodeLane .c w ⟨none, optE (encE s3.toNat s4.toNat 0 0)⟩ = .ok (.region s1 s2 s3 s4) := by
  have he : ((⟨none, optE (encE s3.toNat s4.toNat 0 0)⟩ : Ext)).e2w = s3.toNat * 2097152 + s4.toNat * 16384 + 0 * 128 + 0 := e2w_optE (Nat.lt_of_lt_of_le s3.isLt (by decide)) (Nat.lt_of_lt_of_le s4.isLt (by decide)) (by decide) (by decide)
  generalize hx : (⟨none, optE (encE s3.toNat s4.toNat 0 0)⟩ : Ext) = x at he ⊢
  have hx0 : x.e0 = none := by rw [← hx]
  have d0 : w / 2 ^ 0 = ((((71 * 2 ^ 5 + 0) * 2 ^ 6 + s1.toNat) * 2 ^ 6 + s2.toNat) * 2 ^ 6 + 0) * 2 ^ 1 + 0 := by omega
  have d1 := div_next d0 (by decide)
  have d2 := div_next d1 (by decide)
  have d3 := div_next d2 s2.isLt
  have d4 := div_next d3 s1.isLt
  have hop := congrArg (· % 256) (div_next d4 (by decide))
  have f0 : fld 6 13 w = s1 := fld_at d3
  have f1 : fld 6 7 w = s2 := fld_at d2
  have f2 : fld 6 21 x.e2w = s3 := fld_eq (by omega)
  have f3 : fld 6 14 x.e2w = s4 := fld_eq (by omega)
  have f4 : fld 1 27 x.e2w = 0#1 := fld_lit 0 (by omega)
  have f5 : fld 1 20 x.e2w = 0#1 := fld_lit 0 (by omega)
  have f6 : fld 6 1 w = 0#6 := fld_num d1
  have f7 : fld 5 19 w = 0#5 := fld_num d4
  have f8 : fld 7 7 x.e2w = 0#7 := fld_lit 0 (by omega)
  have f9 : fld 7 0 x.e2w = 0#7 := fld_lit 0 (by omega)
  have f10 : fld 1 0 w = 0#1 := fld_num d0
  clear hw d0 d1 d2 d3 d4
  simp only [Bool.and_eq_true] at hwf
  obtain ⟨⟨⟨w1, w2⟩, w3⟩, w4⟩ := hwf
  have hm : decodeControl w x = (if fld 1 0 w = 0#1 then decRegion w x else decRegionEnd w x) := by unfold decodeControl; rw [show w / 16777216 % 256 = 71 from hop]; rfl
  show decodeControl w x = _
  rw [hm]
  simp only [f6, f7, f10, if_true, reduceCtorEq, Option.isSome, Bool.false_eq_true, if_false, BitVec.reduceEq, ↓reduceIte]
  unfold decRegion
  simp only [need, f0, f1, f2, f3, f4, f5, f6, f7, f8, f9, f10, w1, w2, w3, w4, hx0, if_true, decide_true, Option.isNone, Option.isSome, Bool.and_self, Option.getD]
  rfl

theorem decodeLane_regionEnd
    (hwf : (true) = true) (w : Nat) (hw : 1191182337 = w) :
    decodeLane .c w ⟨none, none⟩ = .ok (.regionEnd) := by
  have d0 : w / 2 ^ 0 = (71 * 2 ^ 23 + 0) * 2 ^ 1 + 1 := by omega
  have d1 := div_next d0 (by decide)
  have hop := congrArg (· % 256) (div_next d1 (by decide))
  have f0 : fld 23 1 w = 0#23 := fld_num d1
  have f1 : fld 1 0 w = 1#1 := fld_num d0
  clear hw d0 d1
  have hm : decodeControl w ⟨none, none⟩ = (if fld 1 0 w = 0#1 then decRegion w ⟨none, none⟩ else decRegionEnd w ⟨none, none⟩) := by unfold decodeControl; rw [show w / 16777216 % 256 = 71 from hop]; rfl
  show decodeControl w ⟨none, none⟩ = _
  rw [hm]
  simp only [f0, f1, if_true, reduceCtorEq, Option.isSome, Bool.false_eq_true, if_false, BitVec.reduceEq, ↓reduceIte]
  unfold decRegionEnd
  simp only [need, f0, f1, if_true, decide_true, Option.isNone, Option.isSome, Bool.and_self, Option.getD]
  rfl

theorem decodeLane_exitI
    (hwf : (true) = true) (w : Nat) (hw : 1207959552 = w) :
    decodeLane .c w ⟨none, none⟩ = .ok (.exitI) := by
  have d0 : w / 2 ^ 0 = 72 * 2 ^ 24 + 0 := by omega
  have hop := congrArg (· % 256) (div_next d0 (by decide))
  have f0 : fld 24 0 w = 0#24 := fld_num d0
  clear hw d0
  have hm : decodeControl w ⟨none, none⟩ = (decExitI w ⟨none, none⟩) := by unfold decodeControl; rw [show w / 16777216 % 256 = 72 from hop]; rfl
  show decodeControl w ⟨none, none⟩ = _
  rw [hm]
  unfold decExitI
  simp only [need, f0, if_true, decide_true, Option.isNone, Option.isSome, Bool.and_self, Option.getD]
  rfl

theorem decodeLane_yieldI
    (hwf : (true) = true) (w : Nat) (hw : 1224736768 = w) :
    decodeLane .c w ⟨none, none⟩ = .ok (.yieldI) := by
  have d0 : w / 2 ^ 0 = 73 * 2 ^ 24 + 0 := by omega
  have hop := congrArg (· % 256) (div_next d0 (by decide))
  have f0 : fld 24 0 w = 0#24 := fld_num d0
  clear hw d0
  have hm : decodeControl w ⟨none, none⟩ = (decYieldI w ⟨none, none⟩) := by unfold decodeControl; rw [show w / 16777216 % 256 = 73 from hop]; rfl
  show decodeControl w ⟨none, none⟩ = _
  rw [hm]
  unfold decYieldI
  simp only [need, f0, if_true, decide_true, Option.isNone, Option.isSome, Bool.and_self, Option.getD]
  rfl

theorem decodeLane_locq (rd : CReg) (s1 : CSrc)
    (hwf : (decide (s1.toNat < 36)) = true) (w : Nat) (hw : 1241513984 + rd.toNat * 524288 + s1.toNat * 8192 = w) :
    decodeLane .c w ⟨none, none⟩ = .ok (.locq rd s1) := by
  have d0 : w / 2 ^ 0 = ((74 * 2 ^ 5 + rd.toNat) * 2 ^ 6 + s1.toNat) * 2 ^ 13 + 0 := by omega
  have d1 := div_next d0 (by decide)
  have d2 := div_next d1 s1.isLt
  have hop := congrArg (· % 256) (div_next d2 rd.isLt)
  have f0 : fld 5 19 w = rd := fld_at d2
  have f1 : fld 6 13 w = s1 := fld_at d1
  have f2 : fld 13 0 w = 0#13 := fld_num d0
  clear hw d0 d1 d2
  have hm : decodeControl w ⟨none, none⟩ = (decLocq w ⟨none, none⟩) := by unfold decodeControl; rw [show w / 16777216 % 256 = 74 from hop]; rfl
  show decodeControl w ⟨none, none⟩ = _
  rw [hm]
  unfold decLocq
  simp only [need, f0, f1, f2, hwf, if_true, decide_true, Option.isNone, Option.isSome, Bool.and_self, Option.getD]
  rfl

theorem decodeLane_csrr (rd : CReg) (csr : BitVec 12)
    (hwf : (true) = true) (w : Nat) (hw : 1258291200 + rd.toNat * 524288 + csr.toNat * 2 = w) :
    decodeLane .c w ⟨none, none⟩ = .ok (.csrr rd csr) := by
  have d0 : w / 2 ^ 0 = (((75 * 2 ^ 5 + rd.toNat) * 2 ^ 6 + 0) * 2 ^ 12 + csr.toNat) * 2 ^ 1 + 0 := by omega
  have d1 := div_next d0 (by decide)
  have d2 := div_next d1 csr.isLt
  have d3 := div_next d2 (by decide)
  have hop := congrArg (· % 256) (div_next d3 rd.isLt)
  have f0 : fld 5 19 w = rd := fld_at d3
  have f1 : fld 12 1 w = csr := fld_at d1
  have f2 : fld 1 0 w = 0#1 := fld_num d0
  have f3 : fld 6 13 w = 0#6 := fld_num d2
  clear hw d0 d1 d2 d3
  have hm : decodeControl w ⟨none, none⟩ = (decCsrr w ⟨none, none⟩) := by unfold decodeControl; rw [show w / 16777216 % 256 = 75 from hop]; rfl
  show decodeControl w ⟨none, none⟩ = _
  rw [hm]
  unfold decCsrr
  simp only [need, f0, f1, f2, f3, if_true, decide_true, Option.isNone, Option.isSome, Bool.and_self, Option.getD]
  rfl

theorem decodeLane_csrw (csr : BitVec 12) (s1 : CSrc)
    (hwf : (decide (s1.toNat < 36)) = true) (w : Nat) (hw : 1275068416 + csr.toNat * 2 + s1.toNat * 8192 = w) :
    decodeLane .c w ⟨none, none⟩ = .ok (.csrw csr s1) := by
  have d0 : w / 2 ^ 0 = (((76 * 2 ^ 5 + 0) * 2 ^ 6 + s1.toNat) * 2 ^ 12 + csr.toNat) * 2 ^ 1 + 0 := by omega
  have d1 := div_next d0 (by decide)
  have d2 := div_next d1 csr.isLt
  have d3 := div_next d2 s1.isLt
  have hop := congrArg (· % 256) (div_next d3 (by decide))
  have f0 : fld 12 1 w = csr := fld_at d1
  have f1 : fld 6 13 w = s1 := fld_at d2
  have f2 : fld 1 0 w = 0#1 := fld_num d0
  have f3 : fld 5 19 w = 0#5 := fld_num d3
  clear hw d0 d1 d2 d3
  have hm : decodeControl w ⟨none, none⟩ = (decCsrw w ⟨none, none⟩) := by unfold decodeControl; rw [show w / 16777216 % 256 = 76 from hop]; rfl
  show decodeControl w ⟨none, none⟩ = _
  rw [hm]
  unfold decCsrw
  simp only [need, f0, f1, f2, f3, hwf, if_true, decide_true, Option.isNone, Option.isSome, Bool.and_self, Option.getD]
  rfl

theorem decodeLane_trap (s1 : CSrc) (code : BitVec 7)
    (hwf : (decide (s1.toNat < 36)) = true) (w : Nat) (hw : 1291845632 + s1.toNat * 8192 + code.toNat * 1 = w) :
    decodeLane .c w ⟨none, none⟩ = .ok (.trap s1 code) := by
  have d0 : w / 2 ^ 0 = (((77 * 2 ^ 5 + 0) * 2 ^ 6 + s1.toNat) * 2 ^ 6 + 0) * 2 ^ 7 + code.toNat := by omega
  have d1 := div_next d0 code.isLt
  have d2 := div_next d1 (by decide)
  have d3 := div_next d2 s1.isLt
  have hop := congrArg (· % 256) (div_next d3 (by decide))
  have f0 : fld 6 13 w = s1 := fld_at d2
  have f1 : fld 7 0 w = code := fld_at d0
  have f2 : fld 6 7 w = 0#6 := fld_num d1
  have f3 : fld 5 19 w = 0#5 := fld_num d3
  clear hw d0 d1 d2 d3
  have hm : decodeControl w ⟨none, none⟩ = (decTrap w ⟨none, none⟩) := by unfold decodeControl; rw [show w / 16777216 % 256 = 77 from hop]; rfl
  show decodeControl w ⟨none, none⟩ = _
  rw [hm]
  unfold decTrap
  simp only [need, f0, f1, f2, f3, hwf, if_true, decide_true, Option.isNone, Option.isSome, Bool.and_self, Option.getD]
  rfl

theorem decodeLane_eret
    (hwf : (true) = true) (w : Nat) (hw : 1308622848 = w) :
    decodeLane .c w ⟨none, none⟩ = .ok (.eret) := by
  have d0 : w / 2 ^ 0 = 78 * 2 ^ 24 + 0 := by omega
  have hop := congrArg (· % 256) (div_next d0 (by decide))
  have f0 : fld 24 0 w = 0#24 := fld_num d0
  clear hw d0
  have hm : decodeControl w ⟨none, none⟩ = (decEret w ⟨none, none⟩) := by unfold decodeControl; rw [show w / 16777216 % 256 = 78 from hop]; rfl
  show decodeControl w ⟨none, none⟩ = _
  rw [hm]
  unfold decEret
  simp only [need, f0, if_true, decide_true, Option.isNone, Option.isSome, Bool.and_self, Option.getD]
  rfl

theorem decodeLane_waitmem (rd : CReg) (s1 : CSrc) (s2 : CSrc) (scope : Scope)
    (hwf : (decide (s1.toNat < 36) && decide (s2.toNat < 36)) = true) (w : Nat) (hw : 1325400064 + rd.toNat * 524288 + s1.toNat * 8192 + s2.toNat * 128 + scope.toNat * 1 = w) :
    decodeLane .c w ⟨none, none⟩ = .ok (.waitmem rd s1 s2 scope) := by
  have d0 : w / 2 ^ 0 = ((((79 * 2 ^ 5 + rd.toNat) * 2 ^ 6 + s1.toNat) * 2 ^ 6 + s2.toNat) * 2 ^ 4 + 0) * 2 ^ 3 + scope.toNat := by omega
  have d1 := div_next d0 (Scope.toNat_lt scope)
  have d2 := div_next d1 (by decide)
  have d3 := div_next d2 s2.isLt
  have d4 := div_next d3 s1.isLt
  have hop := congrArg (· % 256) (div_next d4 rd.isLt)
  have f0 : fld 5 19 w = rd := fld_at d4
  have f1 : fld 6 13 w = s1 := fld_at d3
  have f2 : fld 6 7 w = s2 := fld_at d2
  have f3 : Scope.ofNat? (fld 3 0 w).toNat = some scope := fld_scope (mod_at d0 (Scope.toNat_lt scope)) (by decide)
  have f4 : fld 4 3 w = 0#4 := fld_num d1
  clear hw d0 d1 d2 d3 d4
  simp only [Bool.and_eq_true] at hwf
  obtain ⟨w1, w2⟩ := hwf
  have hm : decodeControl w ⟨none, none⟩ = (decWaitmem w ⟨none, none⟩) := by unfold decodeControl; rw [show w / 16777216 % 256 = 79 from hop]; rfl
  show decodeControl w ⟨none, none⟩ = _
  rw [hm]
  unfold decWaitmem
  simp only [need, f0, f1, f2, f3, f4, w1, w2, if_true, decide_true, Option.isNone, Option.isSome, Bool.and_self, Option.getD]
  rfl

theorem decodeLane_scstopCyc (s1 : CSrc) (s2 : CSrc) (s3 : CSrc)
    (hwf : (decide (s1.toNat < 36) && decide (s2.toNat < 36) && decide (s3.toNat < 36)) = true) (w : Nat) (hw : 1342177280 + s1.toNat * 8192 + s2.toNat * 128 = w) :
    decodeLane .c w ⟨none, optE (encE s3.toNat 0 0 0)⟩ = .ok (.scstopCyc s1 s2 s3) := by
  have he : ((⟨none, optE (encE s3.toNat 0 0 0)⟩ : Ext)).e2w = s3.toNat * 2097152 + 0 * 16384 + 0 * 128 + 0 := e2w_optE (Nat.lt_of_lt_of_le s3.isLt (by decide)) (by decide) (by decide) (by decide)
  generalize hx : (⟨none, optE (encE s3.toNat 0 0 0)⟩ : Ext) = x at he ⊢
  have hx0 : x.e0 = none := by rw [← hx]
  have d0 : w / 2 ^ 0 = ((((80 * 2 ^ 5 + 0) * 2 ^ 6 + s1.toNat) * 2 ^ 6 + s2.toNat) * 2 ^ 6 + 0) * 2 ^ 1 + 0 := by omega
  have d1 := div_next d0 (by decide)
  have d2 := div_next d1 (by decide)
  have d3 := div_next d2 s2.isLt
  have d4 := div_next d3 s1.isLt
  have hop := congrArg (· % 256) (div_next d4 (by decide))
  have f0 : fld 6 13 w = s1 := fld_at d3
  have f1 : fld 6 7 w = s2 := fld_at d2
  have f2 : fld 6 21 x.e2w = s3 := fld_eq (by omega)
  have f3 : fld 1 27 x.e2w = 0#1 := fld_lit 0 (by omega)
  have f4 : fld 6 1 w = 0#6 := fld_num d1
  have f5 : fld 5 19 w = 0#5 := fld_num d4
  have f6 : fld 7 14 x.e2w = 0#7 := fld_lit 0 (by omega)
  have f7 : fld 7 7 x.e2w = 0#7 := fld_lit 0 (by omega)
  have f8 : fld 7 0 x.e2w = 0#7 := fld_lit 0 (by omega)
  have f9 : fld 1 0 w = 0#1 := fld_num d0
  clear hw d0 d1 d2 d3 d4
  simp only [Bool.and_eq_true] at hwf
  obtain ⟨⟨w1, w2⟩, w3⟩ := hwf
  have hm : decodeControl w x = (if fld 1 0 w = 0#1 then decScstopCyc w x else decScstopBeat w x) := by unfold decodeControl; rw [show w / 16777216 % 256 = 80 from hop]; rfl
  show decodeControl w x = _
  rw [hm]
  simp only [f4, f5, f9, if_true, reduceCtorEq, Option.isSome, Bool.false_eq_true, if_false, BitVec.reduceEq, ↓reduceIte]
  unfold decScstopCyc
  simp only [need, f0, f1, f2, f3, f4, f5, f6, f7, f8, f9, w1, w2, w3, hx0, if_true, decide_true, Option.isNone, Option.isSome, Bool.and_self, Option.getD]
  rfl

theorem decodeLane_scstopBeat (s1 : CSrc) (s2 : CSrc) (s3 : CSrc)
    (hwf : (decide (s1.toNat < 36) && decide (s2.toNat < 36) && decide (s3.toNat < 36)) = true) (w : Nat) (hw : 1342177281 + s1.toNat * 8192 + s2.toNat * 128 = w) :
    decodeLane .c w ⟨none, optE (encE s3.toNat 0 0 0)⟩ = .ok (.scstopBeat s1 s2 s3) := by
  have he : ((⟨none, optE (encE s3.toNat 0 0 0)⟩ : Ext)).e2w = s3.toNat * 2097152 + 0 * 16384 + 0 * 128 + 0 := e2w_optE (Nat.lt_of_lt_of_le s3.isLt (by decide)) (by decide) (by decide) (by decide)
  generalize hx : (⟨none, optE (encE s3.toNat 0 0 0)⟩ : Ext) = x at he ⊢
  have hx0 : x.e0 = none := by rw [← hx]
  have d0 : w / 2 ^ 0 = ((((80 * 2 ^ 5 + 0) * 2 ^ 6 + s1.toNat) * 2 ^ 6 + s2.toNat) * 2 ^ 6 + 0) * 2 ^ 1 + 1 := by omega
  have d1 := div_next d0 (by decide)
  have d2 := div_next d1 (by decide)
  have d3 := div_next d2 s2.isLt
  have d4 := div_next d3 s1.isLt
  have hop := congrArg (· % 256) (div_next d4 (by decide))
  have f0 : fld 6 13 w = s1 := fld_at d3
  have f1 : fld 6 7 w = s2 := fld_at d2
  have f2 : fld 6 21 x.e2w = s3 := fld_eq (by omega)
  have f3 : fld 1 27 x.e2w = 0#1 := fld_lit 0 (by omega)
  have f4 : fld 6 1 w = 0#6 := fld_num d1
  have f5 : fld 5 19 w = 0#5 := fld_num d4
  have f6 : fld 7 14 x.e2w = 0#7 := fld_lit 0 (by omega)
  have f7 : fld 7 7 x.e2w = 0#7 := fld_lit 0 (by omega)
  have f8 : fld 7 0 x.e2w = 0#7 := fld_lit 0 (by omega)
  have f9 : fld 1 0 w = 1#1 := fld_num d0
  clear hw d0 d1 d2 d3 d4
  simp only [Bool.and_eq_true] at hwf
  obtain ⟨⟨w1, w2⟩, w3⟩ := hwf
  have hm : decodeControl w x = (if fld 1 0 w = 0#1 then decScstopCyc w x else decScstopBeat w x) := by unfold decodeControl; rw [show w / 16777216 % 256 = 80 from hop]; rfl
  show decodeControl w x = _
  rw [hm]
  simp only [f4, f5, f9, if_true, reduceCtorEq, Option.isSome, Bool.false_eq_true, if_false, BitVec.reduceEq, ↓reduceIte]
  unfold decScstopBeat
  simp only [need, f0, f1, f2, f3, f4, f5, f6, f7, f8, f9, w1, w2, w3, hx0, if_true, decide_true, Option.isNone, Option.isSome, Bool.and_self, Option.getD]
  rfl

theorem decodeLane_scout (rd : CReg) (s1 : CSrc) (s2 : CSrc) (s3 : CSrc) (s4 : CSrc) (spad : Bool)
    (hwf : (decide (s1.toNat < 36) && decide (s2.toNat < 36) && decide (s3.toNat < 36) && decide (s4.toNat < 36)) = true) (w : Nat) (hw : 1358954496 + rd.toNat * 524288 + s1.toNat * 8192 + s2.toNat * 128 + spad.toNat * 1 = w) :
    decodeLane .c w ⟨none, optE (encE s3.toNat s4.toNat 0 0)⟩ = .ok (.scout rd s1 s2 s3 s4 spad) := by
  have he : ((⟨none, optE (encE s3.toNat s4.toNat 0 0)⟩ : Ext)).e2w = s3.toNat * 2097152 + s4.toNat * 16384 + 0 * 128 + 0 := e2w_optE (Nat.lt_of_lt_of_le s3.isLt (by decide)) (Nat.lt_of_lt_of_le s4.isLt (by decide)) (by decide) (by decide)
  generalize hx : (⟨none, optE (encE s3.toNat s4.toNat 0 0)⟩ : Ext) = x at he ⊢
  have hx0 : x.e0 = none := by rw [← hx]
  have d0 : w / 2 ^ 0 = ((((81 * 2 ^ 5 + rd.toNat) * 2 ^ 6 + s1.toNat) * 2 ^ 6 + s2.toNat) * 2 ^ 6 + 0) * 2 ^ 1 + spad.toNat := by omega
  have d1 := div_next d0 (Bool.toNat_lt spad)
  have d2 := div_next d1 (by decide)
  have d3 := div_next d2 s2.isLt
  have d4 := div_next d3 s1.isLt
  have hop := congrArg (· % 256) (div_next d4 rd.isLt)
  have f0 : fld 5 19 w = rd := fld_at d4
  have f1 : fld 6 13 w = s1 := fld_at d3
  have f2 : fld 6 7 w = s2 := fld_at d2
  have f3 : fld 6 21 x.e2w = s3 := fld_eq (by omega)
  have f4 : fld 6 14 x.e2w = s4 := fld_eq (by omega)
  have f5 : decide (fld 1 0 w = 1#1) = spad := fld_bool (mod_at d0 (Bool.toNat_lt spad))
  have f6 : fld 1 27 x.e2w = 0#1 := fld_lit 0 (by omega)
  have f7 : fld 1 20 x.e2w = 0#1 := fld_lit 0 (by omega)
  have f8 : fld 6 1 w = 0#6 := fld_num d1
  have f9 : fld 7 7 x.e2w = 0#7 := fld_lit 0 (by omega)
  have f10 : fld 7 0 x.e2w = 0#7 := fld_lit 0 (by omega)
  clear hw d0 d1 d2 d3 d4
  simp only [Bool.and_eq_true] at hwf
  obtain ⟨⟨⟨w1, w2⟩, w3⟩, w4⟩ := hwf
  have hm : decodeControl w x = (decScout w x) := by unfold decodeControl; rw [show w / 16777216 % 256 = 81 from hop]; rfl
  show decodeControl w x = _
  rw [hm]
  unfold decScout
  simp only [need, f0, f1, f2, f3, f4, f5, f6, f7, f8, f9, f10, w1, w2, w3, w4, hx0, if_true, decide_true, Option.isNone, Option.isSome, Bool.and_self, Option.getD]
  rfl

theorem decodeLane_scin (rd : CReg) (s1 : CSrc) (s2 : CSrc) (s3 : CSrc) (spad : Bool)
    (hwf : (decide (s1.toNat < 36) && decide (s2.toNat < 36) && decide (s3.toNat < 36)) = true) (w : Nat) (hw : 1375731712 + rd.toNat * 524288 + s1.toNat * 8192 + s2.toNat * 128 + spad.toNat * 1 = w) :
    decodeLane .c w ⟨none, optE (encE s3.toNat 0 0 0)⟩ = .ok (.scin rd s1 s2 s3 spad) := by
  have he : ((⟨none, optE (encE s3.toNat 0 0 0)⟩ : Ext)).e2w = s3.toNat * 2097152 + 0 * 16384 + 0 * 128 + 0 := e2w_optE (Nat.lt_of_lt_of_le s3.isLt (by decide)) (by decide) (by decide) (by decide)
  generalize hx : (⟨none, optE (encE s3.toNat 0 0 0)⟩ : Ext) = x at he ⊢
  have hx0 : x.e0 = none := by rw [← hx]
  have d0 : w / 2 ^ 0 = ((((82 * 2 ^ 5 + rd.toNat) * 2 ^ 6 + s1.toNat) * 2 ^ 6 + s2.toNat) * 2 ^ 6 + 0) * 2 ^ 1 + spad.toNat := by omega
  have d1 := div_next d0 (Bool.toNat_lt spad)
  have d2 := div_next d1 (by decide)
  have d3 := div_next d2 s2.isLt
  have d4 := div_next d3 s1.isLt
  have hop := congrArg (· % 256) (div_next d4 rd.isLt)
  have f0 : fld 5 19 w = rd := fld_at d4
  have f1 : fld 6 13 w = s1 := fld_at d3
  have f2 : fld 6 7 w = s2 := fld_at d2
  have f3 : fld 6 21 x.e2w = s3 := fld_eq (by omega)
  have f4 : decide (fld 1 0 w = 1#1) = spad := fld_bool (mod_at d0 (Bool.toNat_lt spad))
  have f5 : fld 1 27 x.e2w = 0#1 := fld_lit 0 (by omega)
  have f6 : fld 6 1 w = 0#6 := fld_num d1
  have f7 : fld 7 14 x.e2w = 0#7 := fld_lit 0 (by omega)
  have f8 : fld 7 7 x.e2w = 0#7 := fld_lit 0 (by omega)
  have f9 : fld 7 0 x.e2w = 0#7 := fld_lit 0 (by omega)
  clear hw d0 d1 d2 d3 d4
  simp only [Bool.and_eq_true] at hwf
  obtain ⟨⟨w1, w2⟩, w3⟩ := hwf
  have hm : decodeControl w x = (decScin w x) := by unfold decodeControl; rw [show w / 16777216 % 256 = 82 from hop]; rfl
  show decodeControl w x = _
  rw [hm]
  unfold decScin
  simp only [need, f0, f1, f2, f3, f4, f5, f6, f7, f8, f9, w1, w2, w3, hx0, if_true, decide_true, Option.isNone, Option.isSome, Bool.and_self, Option.getD]
  rfl

theorem decodeLane_scgo (s1 : CSrc) (s2 : CSrc)
    (hwf : (decide (s1.toNat < 36) && decide (s2.toNat < 36)) = true) (w : Nat) (hw : 1392508928 + s1.toNat * 8192 + s2.toNat * 128 = w) :
    decodeLane .c w ⟨none, none⟩ = .ok (.scgo s1 s2) := by
  have d0 : w / 2 ^ 0 = (((83 * 2 ^ 5 + 0) * 2 ^ 6 + s1.toNat) * 2 ^ 6 + s2.toNat) * 2 ^ 7 + 0 := by omega
  have d1 := div_next d0 (by decide)
  have d2 := div_next d1 s2.isLt
  have d3 := div_next d2 s1.isLt
  have hop := congrArg (· % 256) (div_next d3 (by decide))
  have f0 : fld 6 13 w = s1 := fld_at d2
  have f1 : fld 6 7 w = s2 := fld_at d1
  have f2 : fld 7 0 w = 0#7 := fld_num d0
  have f3 : fld 5 19 w = 0#5 := fld_num d3
  clear hw d0 d1 d2 d3
  simp only [Bool.and_eq_true] at hwf
  obtain ⟨w1, w2⟩ := hwf
  have hm : decodeControl w ⟨none, none⟩ = (decScgo w ⟨none, none⟩) := by unfold decodeControl; rw [show w / 16777216 % 256 = 83 from hop]; rfl
  show decodeControl w ⟨none, none⟩ = _
  rw [hm]
  unfold decScgo
  simp only [need, f0, f1, f2, f3, w1, w2, if_true, decide_true, Option.isNone, Option.isSome, Bool.and_self, Option.getD]
  rfl

theorem decodeLane_scown (s1 : CSrc) (s2 : CSrc) (s3 : CSrc)
    (hwf : (decide (s1.toNat < 36) && decide (s2.toNat < 36) && decide (s3.toNat < 36)) = true) (w : Nat) (hw : 1409286144 + s1.toNat * 8192 + s2.toNat * 128 = w) :
    decodeLane .c w ⟨none, optE (encE s3.toNat 0 0 0)⟩ = .ok (.scown s1 s2 s3) := by
  have he : ((⟨none, optE (encE s3.toNat 0 0 0)⟩ : Ext)).e2w = s3.toNat * 2097152 + 0 * 16384 + 0 * 128 + 0 := e2w_optE (Nat.lt_of_lt_of_le s3.isLt (by decide)) (by decide) (by decide) (by decide)
  generalize hx : (⟨none, optE (encE s3.toNat 0 0 0)⟩ : Ext) = x at he ⊢
  have hx0 : x.e0 = none := by rw [← hx]
  have d0 : w / 2 ^ 0 = (((84 * 2 ^ 5 + 0) * 2 ^ 6 + s1.toNat) * 2 ^ 6 + s2.toNat) * 2 ^ 7 + 0 := by omega
  have d1 := div_next d0 (by decide)
  have d2 := div_next d1 s2.isLt
  have d3 := div_next d2 s1.isLt
  have hop := congrArg (· % 256) (div_next d3 (by decide))
  have f0 : fld 6 13 w = s1 := fld_at d2
  have f1 : fld 6 7 w = s2 := fld_at d1
  have f2 : fld 6 21 x.e2w = s3 := fld_eq (by omega)
  have f3 : fld 1 27 x.e2w = 0#1 := fld_lit 0 (by omega)
  have f4 : fld 7 0 w = 0#7 := fld_num d0
  have f5 : fld 5 19 w = 0#5 := fld_num d3
  have f6 : fld 7 14 x.e2w = 0#7 := fld_lit 0 (by omega)
  have f7 : fld 7 7 x.e2w = 0#7 := fld_lit 0 (by omega)
  have f8 : fld 7 0 x.e2w = 0#7 := fld_lit 0 (by omega)
  clear hw d0 d1 d2 d3
  simp only [Bool.and_eq_true] at hwf
  obtain ⟨⟨w1, w2⟩, w3⟩ := hwf
  have hm : decodeControl w x = (decScown w x) := by unfold decodeControl; rw [show w / 16777216 % 256 = 84 from hop]; rfl
  show decodeControl w x = _
  rw [hm]
  unfold decScown
  simp only [need, f0, f1, f2, f3, f4, f5, f6, f7, f8, w1, w2, w3, hx0, if_true, decide_true, Option.isNone, Option.isSome, Bool.and_self, Option.getD]
  rfl

theorem decodeLane_diaginjProd (s1 : CSrc) (s2 : CSrc) (s3 : CSrc)
    (hwf : (decide (s1.toNat < 36) && decide (s2.toNat < 36) && decide (s3.toNat < 36)) = true) (w : Nat) (hw : 1426063360 + s1.toNat * 8192 + s2.toNat * 128 = w) :
    decodeLane .c w ⟨none, optE (encE s3.toNat 0 0 0)⟩ = .ok (.diaginjProd s1 s2 s3) := by
  have he : ((⟨none, optE (encE s3.toNat 0 0 0)⟩ : Ext)).e2w = s3.toNat * 2097152 + 0 * 16384 + 0 * 128 + 0 := e2w_optE (Nat.lt_of_lt_of_le s3.isLt (by decide)) (by decide) (by decide) (by decide)
  generalize hx : (⟨none, optE (encE s3.toNat 0 0 0)⟩ : Ext) = x at he ⊢
  have hx0 : x.e0 = none := by rw [← hx]
  have d0 : w / 2 ^ 0 = ((((85 * 2 ^ 5 + 0) * 2 ^ 6 + s1.toNat) * 2 ^ 6 + s2.toNat) * 2 ^ 5 + 0) * 2 ^ 2 + 0 := by omega
  have d1 := div_next d0 (by decide)
  have d2 := div_next d1 (by decide)
  have d3 := div_next d2 s2.isLt
  have d4 := div_next d3 s1.isLt
  have hop := congrArg (· % 256) (div_next d4 (by decide))
  have f0 : fld 6 13 w = s1 := fld_at d3
  have f1 : fld 6 7 w = s2 := fld_at d2
  have f2 : fld 6 21 x.e2w = s3 := fld_eq (by omega)
  have f3 : fld 1 27 x.e2w = 0#1 := fld_lit 0 (by omega)
  have f4 : fld 5 2 w = 0#5 := fld_num d1
  have f5 : fld 5 19 w = 0#5 := fld_num d4
  have f6 : fld 7 14 x.e2w = 0#7 := fld_lit 0 (by omega)
  have f7 : fld 7 7 x.e2w = 0#7 := fld_lit 0 (by omega)
  have f8 : fld 7 0 x.e2w = 0#7 := fld_lit 0 (by omega)
  have f9 : fld 2 0 w = 0#2 := fld_num d0
  clear hw d0 d1 d2 d3 d4
  simp only [Bool.and_eq_true] at hwf
  obtain ⟨⟨w1, w2⟩, w3⟩ := hwf
  have hm : decodeControl w x = (if fld 2 0 w = 0#2 then decDiaginjProd w x else if fld 2 0 w = 1#2 then decDiaginjAcc w x else if fld 2 0 w = 2#2 then decDiaginjVreg w x else decDiaginjSpad w x) := by unfold decodeControl; rw [show w / 16777216 % 256 = 85 from hop]; rfl
  show decodeControl w x = _
  rw [hm]
  simp only [f4, f5, f9, if_true, reduceCtorEq, Option.isSome, Bool.false_eq_true, if_false, BitVec.reduceEq, ↓reduceIte]
  unfold decDiaginjProd
  simp only [need, f0, f1, f2, f3, f4, f5, f6, f7, f8, f9, w1, w2, w3, hx0, if_true, decide_true, Option.isNone, Option.isSome, Bool.and_self, Option.getD]
  rfl

theorem decodeLane_diaginjAcc (s1 : CSrc) (s2 : CSrc) (s3 : CSrc)
    (hwf : (decide (s1.toNat < 36) && decide (s2.toNat < 36) && decide (s3.toNat < 36)) = true) (w : Nat) (hw : 1426063361 + s1.toNat * 8192 + s2.toNat * 128 = w) :
    decodeLane .c w ⟨none, optE (encE s3.toNat 0 0 0)⟩ = .ok (.diaginjAcc s1 s2 s3) := by
  have he : ((⟨none, optE (encE s3.toNat 0 0 0)⟩ : Ext)).e2w = s3.toNat * 2097152 + 0 * 16384 + 0 * 128 + 0 := e2w_optE (Nat.lt_of_lt_of_le s3.isLt (by decide)) (by decide) (by decide) (by decide)
  generalize hx : (⟨none, optE (encE s3.toNat 0 0 0)⟩ : Ext) = x at he ⊢
  have hx0 : x.e0 = none := by rw [← hx]
  have d0 : w / 2 ^ 0 = ((((85 * 2 ^ 5 + 0) * 2 ^ 6 + s1.toNat) * 2 ^ 6 + s2.toNat) * 2 ^ 5 + 0) * 2 ^ 2 + 1 := by omega
  have d1 := div_next d0 (by decide)
  have d2 := div_next d1 (by decide)
  have d3 := div_next d2 s2.isLt
  have d4 := div_next d3 s1.isLt
  have hop := congrArg (· % 256) (div_next d4 (by decide))
  have f0 : fld 6 13 w = s1 := fld_at d3
  have f1 : fld 6 7 w = s2 := fld_at d2
  have f2 : fld 6 21 x.e2w = s3 := fld_eq (by omega)
  have f3 : fld 1 27 x.e2w = 0#1 := fld_lit 0 (by omega)
  have f4 : fld 5 2 w = 0#5 := fld_num d1
  have f5 : fld 5 19 w = 0#5 := fld_num d4
  have f6 : fld 7 14 x.e2w = 0#7 := fld_lit 0 (by omega)
  have f7 : fld 7 7 x.e2w = 0#7 := fld_lit 0 (by omega)
  have f8 : fld 7 0 x.e2w = 0#7 := fld_lit 0 (by omega)
  have f9 : fld 2 0 w = 1#2 := fld_num d0
  clear hw d0 d1 d2 d3 d4
  simp only [Bool.and_eq_true] at hwf
  obtain ⟨⟨w1, w2⟩, w3⟩ := hwf
  have hm : decodeControl w x = (if fld 2 0 w = 0#2 then decDiaginjProd w x else if fld 2 0 w = 1#2 then decDiaginjAcc w x else if fld 2 0 w = 2#2 then decDiaginjVreg w x else decDiaginjSpad w x) := by unfold decodeControl; rw [show w / 16777216 % 256 = 85 from hop]; rfl
  show decodeControl w x = _
  rw [hm]
  simp only [f4, f5, f9, if_true, reduceCtorEq, Option.isSome, Bool.false_eq_true, if_false, BitVec.reduceEq, ↓reduceIte]
  unfold decDiaginjAcc
  simp only [need, f0, f1, f2, f3, f4, f5, f6, f7, f8, f9, w1, w2, w3, hx0, if_true, decide_true, Option.isNone, Option.isSome, Bool.and_self, Option.getD]
  rfl

theorem decodeLane_diaginjVreg (s1 : CSrc) (s2 : CSrc) (s3 : CSrc)
    (hwf : (decide (s1.toNat < 36) && decide (s2.toNat < 36) && decide (s3.toNat < 36)) = true) (w : Nat) (hw : 1426063362 + s1.toNat * 8192 + s2.toNat * 128 = w) :
    decodeLane .c w ⟨none, optE (encE s3.toNat 0 0 0)⟩ = .ok (.diaginjVreg s1 s2 s3) := by
  have he : ((⟨none, optE (encE s3.toNat 0 0 0)⟩ : Ext)).e2w = s3.toNat * 2097152 + 0 * 16384 + 0 * 128 + 0 := e2w_optE (Nat.lt_of_lt_of_le s3.isLt (by decide)) (by decide) (by decide) (by decide)
  generalize hx : (⟨none, optE (encE s3.toNat 0 0 0)⟩ : Ext) = x at he ⊢
  have hx0 : x.e0 = none := by rw [← hx]
  have d0 : w / 2 ^ 0 = ((((85 * 2 ^ 5 + 0) * 2 ^ 6 + s1.toNat) * 2 ^ 6 + s2.toNat) * 2 ^ 5 + 0) * 2 ^ 2 + 2 := by omega
  have d1 := div_next d0 (by decide)
  have d2 := div_next d1 (by decide)
  have d3 := div_next d2 s2.isLt
  have d4 := div_next d3 s1.isLt
  have hop := congrArg (· % 256) (div_next d4 (by decide))
  have f0 : fld 6 13 w = s1 := fld_at d3
  have f1 : fld 6 7 w = s2 := fld_at d2
  have f2 : fld 6 21 x.e2w = s3 := fld_eq (by omega)
  have f3 : fld 1 27 x.e2w = 0#1 := fld_lit 0 (by omega)
  have f4 : fld 5 2 w = 0#5 := fld_num d1
  have f5 : fld 5 19 w = 0#5 := fld_num d4
  have f6 : fld 7 14 x.e2w = 0#7 := fld_lit 0 (by omega)
  have f7 : fld 7 7 x.e2w = 0#7 := fld_lit 0 (by omega)
  have f8 : fld 7 0 x.e2w = 0#7 := fld_lit 0 (by omega)
  have f9 : fld 2 0 w = 2#2 := fld_num d0
  clear hw d0 d1 d2 d3 d4
  simp only [Bool.and_eq_true] at hwf
  obtain ⟨⟨w1, w2⟩, w3⟩ := hwf
  have hm : decodeControl w x = (if fld 2 0 w = 0#2 then decDiaginjProd w x else if fld 2 0 w = 1#2 then decDiaginjAcc w x else if fld 2 0 w = 2#2 then decDiaginjVreg w x else decDiaginjSpad w x) := by unfold decodeControl; rw [show w / 16777216 % 256 = 85 from hop]; rfl
  show decodeControl w x = _
  rw [hm]
  simp only [f4, f5, f9, if_true, reduceCtorEq, Option.isSome, Bool.false_eq_true, if_false, BitVec.reduceEq, ↓reduceIte]
  unfold decDiaginjVreg
  simp only [need, f0, f1, f2, f3, f4, f5, f6, f7, f8, f9, w1, w2, w3, hx0, if_true, decide_true, Option.isNone, Option.isSome, Bool.and_self, Option.getD]
  rfl

theorem decodeLane_diaginjSpad (s1 : CSrc) (s2 : CSrc) (s3 : CSrc)
    (hwf : (decide (s1.toNat < 36) && decide (s2.toNat < 36) && decide (s3.toNat < 36)) = true) (w : Nat) (hw : 1426063363 + s1.toNat * 8192 + s2.toNat * 128 = w) :
    decodeLane .c w ⟨none, optE (encE s3.toNat 0 0 0)⟩ = .ok (.diaginjSpad s1 s2 s3) := by
  have he : ((⟨none, optE (encE s3.toNat 0 0 0)⟩ : Ext)).e2w = s3.toNat * 2097152 + 0 * 16384 + 0 * 128 + 0 := e2w_optE (Nat.lt_of_lt_of_le s3.isLt (by decide)) (by decide) (by decide) (by decide)
  generalize hx : (⟨none, optE (encE s3.toNat 0 0 0)⟩ : Ext) = x at he ⊢
  have hx0 : x.e0 = none := by rw [← hx]
  have d0 : w / 2 ^ 0 = ((((85 * 2 ^ 5 + 0) * 2 ^ 6 + s1.toNat) * 2 ^ 6 + s2.toNat) * 2 ^ 5 + 0) * 2 ^ 2 + 3 := by omega
  have d1 := div_next d0 (by decide)
  have d2 := div_next d1 (by decide)
  have d3 := div_next d2 s2.isLt
  have d4 := div_next d3 s1.isLt
  have hop := congrArg (· % 256) (div_next d4 (by decide))
  have f0 : fld 6 13 w = s1 := fld_at d3
  have f1 : fld 6 7 w = s2 := fld_at d2
  have f2 : fld 6 21 x.e2w = s3 := fld_eq (by omega)
  have f3 : fld 1 27 x.e2w = 0#1 := fld_lit 0 (by omega)
  have f4 : fld 5 2 w = 0#5 := fld_num d1
  have f5 : fld 5 19 w = 0#5 := fld_num d4
  have f6 : fld 7 14 x.e2w = 0#7 := fld_lit 0 (by omega)
  have f7 : fld 7 7 x.e2w = 0#7 := fld_lit 0 (by omega)
  have f8 : fld 7 0 x.e2w = 0#7 := fld_lit 0 (by omega)
  have f9 : fld 2 0 w = 3#2 := fld_num d0
  clear hw d0 d1 d2 d3 d4
  simp only [Bool.and_eq_true] at hwf
  obtain ⟨⟨w1, w2⟩, w3⟩ := hwf
  have hm : decodeControl w x = (if fld 2 0 w = 0#2 then decDiaginjProd w x else if fld 2 0 w = 1#2 then decDiaginjAcc w x else if fld 2 0 w = 2#2 then decDiaginjVreg w x else decDiaginjSpad w x) := by unfold decodeControl; rw [show w / 16777216 % 256 = 85 from hop]; rfl
  show decodeControl w x = _
  rw [hm]
  simp only [f4, f5, f9, if_true, reduceCtorEq, Option.isSome, Bool.false_eq_true, if_false, BitVec.reduceEq, ↓reduceIte]
  unfold decDiaginjSpad
  simp only [need, f0, f1, f2, f3, f4, f5, f6, f7, f8, f9, w1, w2, w3, hx0, if_true, decide_true, Option.isNone, Option.isSome, Bool.and_self, Option.getD]
  rfl

theorem decodeLane_tlbinv (kind : BitVec 2) (s1 : CSrc) (s2 : CSrc)
    (hwf : (decide (s1.toNat < 36) && decide (s2.toNat < 36) && decide (kind.toNat ≤ 2)) = true) (w : Nat) (hw : 1442840576 + kind.toNat * 1 + s1.toNat * 8192 + s2.toNat * 128 = w) :
    decodeLane .c w ⟨none, none⟩ = .ok (.tlbinv kind s1 s2) := by
  have d0 : w / 2 ^ 0 = ((((86 * 2 ^ 5 + 0) * 2 ^ 6 + s1.toNat) * 2 ^ 6 + s2.toNat) * 2 ^ 5 + 0) * 2 ^ 2 + kind.toNat := by omega
  have d1 := div_next d0 kind.isLt
  have d2 := div_next d1 (by decide)
  have d3 := div_next d2 s2.isLt
  have d4 := div_next d3 s1.isLt
  have hop := congrArg (· % 256) (div_next d4 (by decide))
  have f0 : fld 2 0 w = kind := fld_at d0
  have f1 : fld 6 13 w = s1 := fld_at d3
  have f2 : fld 6 7 w = s2 := fld_at d2
  have f3 : fld 5 2 w = 0#5 := fld_num d1
  have f4 : fld 5 19 w = 0#5 := fld_num d4
  clear hw d0 d1 d2 d3 d4
  simp only [Bool.and_eq_true] at hwf
  obtain ⟨⟨w1, w2⟩, w3⟩ := hwf
  have hm : decodeControl w ⟨none, none⟩ = (decTlbinv w ⟨none, none⟩) := by unfold decodeControl; rw [show w / 16777216 % 256 = 86 from hop]; rfl
  show decodeControl w ⟨none, none⟩ = _
  rw [hm]
  unfold decTlbinv
  simp only [need, f0, f1, f2, f3, f4, w1, w2, w3, if_true, decide_true, Option.isNone, Option.isSome, Bool.and_self, Option.getD]
  rfl

theorem decodeLane_kissue (rd : CReg) (s1 : CSrc) (s2 : CSrc)
    (hwf : (decide (s1.toNat < 36) && decide (s2.toNat < 36)) = true) (w : Nat) (hw : 1459617792 + rd.toNat * 524288 + s1.toNat * 8192 + s2.toNat * 128 = w) :
    decodeLane .c w ⟨none, none⟩ = .ok (.kissue rd s1 s2) := by
  have d0 : w / 2 ^ 0 = (((87 * 2 ^ 5 + rd.toNat) * 2 ^ 6 + s1.toNat) * 2 ^ 6 + s2.toNat) * 2 ^ 7 + 0 := by omega
  have d1 := div_next d0 (by decide)
  have d2 := div_next d1 s2.isLt
  have d3 := div_next d2 s1.isLt
  have hop := congrArg (· % 256) (div_next d3 rd.isLt)
  have f0 : fld 5 19 w = rd := fld_at d3
  have f1 : fld 6 13 w = s1 := fld_at d2
  have f2 : fld 6 7 w = s2 := fld_at d1
  have f3 : fld 7 0 w = 0#7 := fld_num d0
  clear hw d0 d1 d2 d3
  simp only [Bool.and_eq_true] at hwf
  obtain ⟨w1, w2⟩ := hwf
  have hm : decodeControl w ⟨none, none⟩ = (decKissue w ⟨none, none⟩) := by unfold decodeControl; rw [show w / 16777216 % 256 = 87 from hop]; rfl
  show decodeControl w ⟨none, none⟩ = _
  rw [hm]
  unfold decKissue
  simp only [need, f0, f1, f2, f3, w1, w2, if_true, decide_true, Option.isNone, Option.isSome, Bool.and_self, Option.getD]
  rfl

theorem decodeLane_sxfer (rd : CReg) (s1 : CSrc)
    (hwf : (decide (s1.toNat < 36)) = true) (w : Nat) (hw : 1476395008 + rd.toNat * 524288 + s1.toNat * 8192 = w) :
    decodeLane .c w ⟨none, none⟩ = .ok (.sxfer rd s1) := by
  have d0 : w / 2 ^ 0 = ((88 * 2 ^ 5 + rd.toNat) * 2 ^ 6 + s1.toNat) * 2 ^ 13 + 0 := by omega
  have d1 := div_next d0 (by decide)
  have d2 := div_next d1 s1.isLt
  have hop := congrArg (· % 256) (div_next d2 rd.isLt)
  have f0 : fld 5 19 w = rd := fld_at d2
  have f1 : fld 6 13 w = s1 := fld_at d1
  have f2 : fld 13 0 w = 0#13 := fld_num d0
  clear hw d0 d1 d2
  have hm : decodeControl w ⟨none, none⟩ = (decSxfer w ⟨none, none⟩) := by unfold decodeControl; rw [show w / 16777216 % 256 = 88 from hop]; rfl
  show decodeControl w ⟨none, none⟩ = _
  rw [hm]
  unfold decSxfer
  simp only [need, f0, f1, f2, hwf, if_true, decide_true, Option.isNone, Option.isSome, Bool.and_self, Option.getD]
  rfl

theorem decodeLane_cancel (rd : CReg) (s1 : CSrc) (lvl : BitVec 3)
    (hwf : (decide (s1.toNat < 36) && decide (1 ≤ lvl.toNat ∧ lvl.toNat ≤ 4)) = true) (w : Nat) (hw : 1493172224 + rd.toNat * 524288 + s1.toNat * 8192 + lvl.toNat * 1 = w) :
    decodeLane .c w ⟨none, none⟩ = .ok (.cancel rd s1 lvl) := by
  have d0 : w / 2 ^ 0 = (((89 * 2 ^ 5 + rd.toNat) * 2 ^ 6 + s1.toNat) * 2 ^ 10 + 0) * 2 ^ 3 + lvl.toNat := by omega
  have d1 := div_next d0 lvl.isLt
  have d2 := div_next d1 (by decide)
  have d3 := div_next d2 s1.isLt
  have hop := congrArg (· % 256) (div_next d3 rd.isLt)
  have f0 : fld 5 19 w = rd := fld_at d3
  have f1 : fld 6 13 w = s1 := fld_at d2
  have f2 : fld 3 0 w = lvl := fld_at d0
  have f3 : fld 10 3 w = 0#10 := fld_num d1
  clear hw d0 d1 d2 d3
  simp only [Bool.and_eq_true] at hwf
  obtain ⟨w1, w2⟩ := hwf
  have hm : decodeControl w ⟨none, none⟩ = (decCancel w ⟨none, none⟩) := by unfold decodeControl; rw [show w / 16777216 % 256 = 89 from hop]; rfl
  show decodeControl w ⟨none, none⟩ = _
  rw [hm]
  unfold decCancel
  simp only [need, f0, f1, f2, f3, w1, w2, if_true, decide_true, Option.isNone, Option.isSome, Bool.and_self, Option.getD]
  rfl

theorem decodeLane_frameset (s1 : CSrc) (s2 : CSrc) (slot : BitVec 4)
    (hwf : (decide (s1.toNat < 36) && decide (s2.toNat < 36)) = true) (w : Nat) (hw : 1509949440 + s1.toNat * 8192 + s2.toNat * 128 + slot.toNat * 1 = w) :
    decodeLane .c w ⟨none, none⟩ = .ok (.frameset s1 s2 slot) := by
  have d0 : w / 2 ^ 0 = ((((90 * 2 ^ 5 + 0) * 2 ^ 6 + s1.toNat) * 2 ^ 6 + s2.toNat) * 2 ^ 3 + 0) * 2 ^ 4 + slot.toNat := by omega
  have d1 := div_next d0 slot.isLt
  have d2 := div_next d1 (by decide)
  have d3 := div_next d2 s2.isLt
  have d4 := div_next d3 s1.isLt
  have hop := congrArg (· % 256) (div_next d4 (by decide))
  have f0 : fld 6 13 w = s1 := fld_at d3
  have f1 : fld 6 7 w = s2 := fld_at d2
  have f2 : fld 4 0 w = slot := fld_at d0
  have f3 : fld 3 4 w = 0#3 := fld_num d1
  have f4 : fld 5 19 w = 0#5 := fld_num d4
  clear hw d0 d1 d2 d3 d4
  simp only [Bool.and_eq_true] at hwf
  obtain ⟨w1, w2⟩ := hwf
  have hm : decodeControl w ⟨none, none⟩ = (decFrameset w ⟨none, none⟩) := by unfold decodeControl; rw [show w / 16777216 % 256 = 90 from hop]; rfl
  show decodeControl w ⟨none, none⟩ = _
  rw [hm]
  unfold decFrameset
  simp only [need, f0, f1, f2, f3, f4, w1, w2, if_true, decide_true, Option.isNone, Option.isSome, Bool.and_self, Option.getD]
  rfl

end Sys2Proof
end

