-- ==== Sys2Proof/Laws/CodecR.lean ====
section
/-! SUPPORT. The encoder and the decoder agree, for each lane of the access, vector, matrix and copy engines (05 R157-R180). -/

namespace Sys2Proof

set_option linter.unusedSimpArgs false
set_option linter.unusedVariables false

theorem decodeLane_aadd (ad : AReg) (s1 : ASrc) (s2 : ASrc)
    (hwf : (decide (s1.toNat < 36) && decide (s2.toNat < 36)) = true) (w : Nat) (hw : 16777216 + ad.toNat * 524288 + s1.toNat * 8192 + s2.toNat * 64 = w) :
    decodeLane .a w ⟨none, none⟩ = .ok (.aadd ad s1 s2) := by
  have d0 : w / 2 ^ 0 = ((((1 * 2 ^ 5 + ad.toNat) * 2 ^ 6 + s1.toNat) * 2 ^ 1 + 0) * 2 ^ 6 + s2.toNat) * 2 ^ 6 + 0 := by omega
  have d1 := div_next d0 (by decide)
  have d2 := div_next d1 s2.isLt
  have d3 := div_next d2 (by decide)
  have d4 := div_next d3 s1.isLt
  have hop := congrArg (· % 256) (div_next d4 ad.isLt)
  have f0 : fld 5 19 w = ad := fld_at d4
  have f1 : fld 6 13 w = s1 := fld_at d3
  have f2 : fld 6 6 w = s2 := fld_at d1
  have f3 : fld 6 0 w = 0#6 := fld_num d0
  have f4 : fld 1 12 w = 0#1 := fld_num d2
  clear hw d0 d1 d2 d3 d4
  simp only [Bool.and_eq_true] at hwf
  obtain ⟨w1, w2⟩ := hwf
  have hm : decodeAccess w ⟨none, none⟩ = (if fld 1 12 w = 0#1 then decAadd w ⟨none, none⟩ else decAaddImm w ⟨none, none⟩) := by unfold decodeAccess; rw [show w / 16777216 % 256 = 1 from hop]; rfl
  show decodeAccess w ⟨none, none⟩ = _
  rw [hm]
  simp only [f3, f4, if_true, reduceCtorEq, Option.isSome, Bool.false_eq_true, if_false, BitVec.reduceEq, ↓reduceIte]
  unfold decAadd
  simp only [need, f0, f1, f2, f3, f4, w1, w2, if_true, decide_true, Option.isNone, Option.isSome, Bool.and_self, Option.getD]
  rfl

theorem decodeLane_aaddImm (ad : AReg) (s1 : ASrc) (imm : Imm 12)
    (hwf : (decide (s1.toNat < 36)) = true) (w : Nat) (hw : 16781312 + ad.toNat * 524288 + s1.toNat * 8192 + imm.low.toNat * 1 = w) :
    decodeLane .a w ⟨imm.high, none⟩ = .ok (.aaddImm ad s1 imm) := by
  have d0 : w / 2 ^ 0 = (((1 * 2 ^ 5 + ad.toNat) * 2 ^ 6 + s1.toNat) * 2 ^ 1 + 1) * 2 ^ 12 + imm.low.toNat := by omega
  have d1 := div_next d0 imm.low.isLt
  have d2 := div_next d1 (by decide)
  have d3 := div_next d2 s1.isLt
  have hop := congrArg (· % 256) (div_next d3 ad.isLt)
  have f0 : fld 5 19 w = ad := fld_at d3
  have f1 : fld 6 13 w = s1 := fld_at d2
  have f2 : fld 12 0 w = imm.low := fld_at d0
  have f3 : fld 1 12 w = 1#1 := fld_num d1
  clear hw d0 d1 d2 d3
  have hm : decodeAccess w ⟨imm.high, none⟩ = (if fld 1 12 w = 0#1 then decAadd w ⟨imm.high, none⟩ else decAaddImm w ⟨imm.high, none⟩) := by unfold decodeAccess; rw [show w / 16777216 % 256 = 1 from hop]; rfl
  show decodeAccess w ⟨imm.high, none⟩ = _
  rw [hm]
  simp only [f3, if_true, reduceCtorEq, Option.isSome, Bool.false_eq_true, if_false, BitVec.reduceEq, ↓reduceIte]
  unfold decAaddImm
  simp only [need, f0, f1, f2, f3, hwf, if_true, decide_true, Option.isNone, Option.isSome, Bool.and_self, Option.getD]
  rfl

theorem decodeLane_amov (ad : AReg) (s1 : ASrc)
    (hwf : (decide (s1.toNat < 36)) = true) (w : Nat) (hw : 33554432 + ad.toNat * 524288 + s1.toNat * 8192 = w) :
    decodeLane .a w ⟨none, none⟩ = .ok (.amov ad s1) := by
  have d0 : w / 2 ^ 0 = ((2 * 2 ^ 5 + ad.toNat) * 2 ^ 6 + s1.toNat) * 2 ^ 13 + 0 := by omega
  have d1 := div_next d0 (by decide)
  have d2 := div_next d1 s1.isLt
  have hop := congrArg (· % 256) (div_next d2 ad.isLt)
  have f0 : fld 5 19 w = ad := fld_at d2
  have f1 : fld 6 13 w = s1 := fld_at d1
  have f2 : fld 13 0 w = 0#13 := fld_num d0
  clear hw d0 d1 d2
  have hm : decodeAccess w ⟨none, none⟩ = (if (⟨none, none⟩ : Ext).e2.isSome then decAmovCtrl w ⟨none, none⟩ else decAmov w ⟨none, none⟩) := by unfold decodeAccess; rw [show w / 16777216 % 256 = 2 from hop]; rfl
  show decodeAccess w ⟨none, none⟩ = _
  rw [hm]
  simp only [f2, if_true, reduceCtorEq, Option.isSome, Bool.false_eq_true, if_false, BitVec.reduceEq, ↓reduceIte]
  unfold decAmov
  simp only [need, f0, f1, f2, hwf, if_true, decide_true, Option.isNone, Option.isSome, Bool.and_self, Option.getD]
  rfl

theorem decodeLane_amovCtrl (ad : AReg) (e1 : CSrc)
    (hwf : (decide (e1.toNat < 32)) = true) (w : Nat) (hw : 33554432 + ad.toNat * 524288 = w) :
    decodeLane .a w ⟨none, some (encE e1.toNat 0 0 0)⟩ = .ok (.amovCtrl ad e1) := by
  have he : ((⟨none, some (encE e1.toNat 0 0 0)⟩ : Ext)).e2w = e1.toNat * 2097152 + 0 * 16384 + 0 * 128 + 0 := e2w_some (Nat.lt_of_lt_of_le e1.isLt (by decide)) (by decide) (by decide) (by decide)
  generalize hx : (⟨none, some (encE e1.toNat 0 0 0)⟩ : Ext) = x at he ⊢
  have hx0 : x.e0 = none := by rw [← hx]
  have hx2 : x.e2.isSome = true := by rw [← hx]; rfl
  have d0 : w / 2 ^ 0 = (2 * 2 ^ 5 + ad.toNat) * 2 ^ 19 + 0 := by omega
  have d1 := div_next d0 (by decide)
  have hop := congrArg (· % 256) (div_next d1 ad.isLt)
  have f0 : fld 5 19 w = ad := fld_at d1
  have f1 : fld 6 21 x.e2w = e1 := fld_eq (by omega)
  have f2 : fld 1 27 x.e2w = 0#1 := fld_lit 0 (by omega)
  have f3 : fld 19 0 w = 0#19 := fld_num d0
  have f4 : fld 7 14 x.e2w = 0#7 := fld_lit 0 (by omega)
  have f5 : fld 7 7 x.e2w = 0#7 := fld_lit 0 (by omega)
  have f6 : fld 7 0 x.e2w = 0#7 := fld_lit 0 (by omega)
  clear hw d0 d1
  have hm : decodeAccess w x = (if (x : Ext).e2.isSome then decAmovCtrl w x else decAmov w x) := by unfold decodeAccess; rw [show w / 16777216 % 256 = 2 from hop]; rfl
  show decodeAccess w x = _
  rw [hm]
  simp only [f3, hx2, if_true, reduceCtorEq, Bool.false_eq_true, if_false, BitVec.reduceEq, ↓reduceIte]
  unfold decAmovCtrl
  simp only [need, f0, f1, f2, f3, f4, f5, f6, hwf, hx0, hx2, if_true, decide_true, Option.isNone, Bool.and_self, Option.getD]
  rfl

theorem decodeLane_ali (ad : AReg) (imm : Imm 19)
    (hwf : (true) = true) (w : Nat) (hw : 50331648 + ad.toNat * 524288 + imm.low.toNat * 1 = w) :
    decodeLane .a w ⟨imm.high, none⟩ = .ok (.ali ad imm) := by
  have d0 : w / 2 ^ 0 = (3 * 2 ^ 5 + ad.toNat) * 2 ^ 19 + imm.low.toNat := by omega
  have d1 := div_next d0 imm.low.isLt
  have hop := congrArg (· % 256) (div_next d1 ad.isLt)
  have f0 : fld 5 19 w = ad := fld_at d1
  have f1 : fld 19 0 w = imm.low := fld_at d0
  clear hw d0 d1
  have hm : decodeAccess w ⟨imm.high, none⟩ = (decAli w ⟨imm.high, none⟩) := by unfold decodeAccess; rw [show w / 16777216 % 256 = 3 from hop]; rfl
  show decodeAccess w ⟨imm.high, none⟩ = _
  rw [hm]
  unfold decAli
  simp only [need, f0, f1, if_true, decide_true, Option.isNone, Option.isSome, Bool.and_self, Option.getD]
  rfl

theorem decodeLane_amul (ad : AReg) (s1 : ASrc) (s2 : ASrc)
    (hwf : (decide (s1.toNat < 36) && decide (s2.toNat < 36)) = true) (w : Nat) (hw : 67108864 + ad.toNat * 524288 + s1.toNat * 8192 + s2.toNat * 64 = w) :
    decodeLane .a w ⟨none, none⟩ = .ok (.amul ad s1 s2) := by
  have d0 : w / 2 ^ 0 = ((((4 * 2 ^ 5 + ad.toNat) * 2 ^ 6 + s1.toNat) * 2 ^ 1 + 0) * 2 ^ 6 + s2.toNat) * 2 ^ 6 + 0 := by omega
  have d1 := div_next d0 (by decide)
  have d2 := div_next d1 s2.isLt
  have d3 := div_next d2 (by decide)
  have d4 := div_next d3 s1.isLt
  have hop := congrArg (· % 256) (div_next d4 ad.isLt)
  have f0 : fld 5 19 w = ad := fld_at d4
  have f1 : fld 6 13 w = s1 := fld_at d3
  have f2 : fld 6 6 w = s2 := fld_at d1
  have f3 : fld 6 0 w = 0#6 := fld_num d0
  have f4 : fld 1 12 w = 0#1 := fld_num d2
  clear hw d0 d1 d2 d3 d4
  simp only [Bool.and_eq_true] at hwf
  obtain ⟨w1, w2⟩ := hwf
  have hm : decodeAccess w ⟨none, none⟩ = (if fld 1 12 w = 0#1 then decAmul w ⟨none, none⟩ else decAmulImm w ⟨none, none⟩) := by unfold decodeAccess; rw [show w / 16777216 % 256 = 4 from hop]; rfl
  show decodeAccess w ⟨none, none⟩ = _
  rw [hm]
  simp only [f3, f4, if_true, reduceCtorEq, Option.isSome, Bool.false_eq_true, if_false, BitVec.reduceEq, ↓reduceIte]
  unfold decAmul
  simp only [need, f0, f1, f2, f3, f4, w1, w2, if_true, decide_true, Option.isNone, Option.isSome, Bool.and_self, Option.getD]
  rfl

theorem decodeLane_amulImm (ad : AReg) (s1 : ASrc) (imm : Imm 12)
    (hwf : (decide (s1.toNat < 36)) = true) (w : Nat) (hw : 67112960 + ad.toNat * 524288 + s1.toNat * 8192 + imm.low.toNat * 1 = w) :
    decodeLane .a w ⟨imm.high, none⟩ = .ok (.amulImm ad s1 imm) := by
  have d0 : w / 2 ^ 0 = (((4 * 2 ^ 5 + ad.toNat) * 2 ^ 6 + s1.toNat) * 2 ^ 1 + 1) * 2 ^ 12 + imm.low.toNat := by omega
  have d1 := div_next d0 imm.low.isLt
  have d2 := div_next d1 (by decide)
  have d3 := div_next d2 s1.isLt
  have hop := congrArg (· % 256) (div_next d3 ad.isLt)
  have f0 : fld 5 19 w = ad := fld_at d3
  have f1 : fld 6 13 w = s1 := fld_at d2
  have f2 : fld 12 0 w = imm.low := fld_at d0
  have f3 : fld 1 12 w = 1#1 := fld_num d1
  clear hw d0 d1 d2 d3
  have hm : decodeAccess w ⟨imm.high, none⟩ = (if fld 1 12 w = 0#1 then decAmul w ⟨imm.high, none⟩ else decAmulImm w ⟨imm.high, none⟩) := by unfold decodeAccess; rw [show w / 16777216 % 256 = 4 from hop]; rfl
  show decodeAccess w ⟨imm.high, none⟩ = _
  rw [hm]
  simp only [f3, if_true, reduceCtorEq, Option.isSome, Bool.false_eq_true, if_false, BitVec.reduceEq, ↓reduceIte]
  unfold decAmulImm
  simp only [need, f0, f1, f2, f3, hwf, if_true, decide_true, Option.isNone, Option.isSome, Bool.and_self, Option.getD]
  rfl

theorem decodeLane_ashl (ad : AReg) (s1 : ASrc) (s2 : ASrc)
    (hwf : (decide (s1.toNat < 36) && decide (s2.toNat < 36)) = true) (w : Nat) (hw : 83886080 + ad.toNat * 524288 + s1.toNat * 8192 + s2.toNat * 64 = w) :
    decodeLane .a w ⟨none, none⟩ = .ok (.ashl ad s1 s2) := by
  have d0 : w / 2 ^ 0 = ((((5 * 2 ^ 5 + ad.toNat) * 2 ^ 6 + s1.toNat) * 2 ^ 1 + 0) * 2 ^ 6 + s2.toNat) * 2 ^ 6 + 0 := by omega
  have d1 := div_next d0 (by decide)
  have d2 := div_next d1 s2.isLt
  have d3 := div_next d2 (by decide)
  have d4 := div_next d3 s1.isLt
  have hop := congrArg (· % 256) (div_next d4 ad.isLt)
  have f0 : fld 5 19 w = ad := fld_at d4
  have f1 : fld 6 13 w = s1 := fld_at d3
  have f2 : fld 6 6 w = s2 := fld_at d1
  have f3 : fld 6 0 w = 0#6 := fld_num d0
  have f4 : fld 1 12 w = 0#1 := fld_num d2
  clear hw d0 d1 d2 d3 d4
  simp only [Bool.and_eq_true] at hwf
  obtain ⟨w1, w2⟩ := hwf
  have hm : decodeAccess w ⟨none, none⟩ = (if fld 1 12 w = 0#1 then decAshl w ⟨none, none⟩ else decAshlImm w ⟨none, none⟩) := by unfold decodeAccess; rw [show w / 16777216 % 256 = 5 from hop]; rfl
  show decodeAccess w ⟨none, none⟩ = _
  rw [hm]
  simp only [f3, f4, if_true, reduceCtorEq, Option.isSome, Bool.false_eq_true, if_false, BitVec.reduceEq, ↓reduceIte]
  unfold decAshl
  simp only [need, f0, f1, f2, f3, f4, w1, w2, if_true, decide_true, Option.isNone, Option.isSome, Bool.and_self, Option.getD]
  rfl

theorem decodeLane_ashlImm (ad : AReg) (s1 : ASrc) (imm : Imm 12)
    (hwf : (decide (s1.toNat < 36)) = true) (w : Nat) (hw : 83890176 + ad.toNat * 524288 + s1.toNat * 8192 + imm.low.toNat * 1 = w) :
    decodeLane .a w ⟨imm.high, none⟩ = .ok (.ashlImm ad s1 imm) := by
  have d0 : w / 2 ^ 0 = (((5 * 2 ^ 5 + ad.toNat) * 2 ^ 6 + s1.toNat) * 2 ^ 1 + 1) * 2 ^ 12 + imm.low.toNat := by omega
  have d1 := div_next d0 imm.low.isLt
  have d2 := div_next d1 (by decide)
  have d3 := div_next d2 s1.isLt
  have hop := congrArg (· % 256) (div_next d3 ad.isLt)
  have f0 : fld 5 19 w = ad := fld_at d3
  have f1 : fld 6 13 w = s1 := fld_at d2
  have f2 : fld 12 0 w = imm.low := fld_at d0
  have f3 : fld 1 12 w = 1#1 := fld_num d1
  clear hw d0 d1 d2 d3
  have hm : decodeAccess w ⟨imm.high, none⟩ = (if fld 1 12 w = 0#1 then decAshl w ⟨imm.high, none⟩ else decAshlImm w ⟨imm.high, none⟩) := by unfold decodeAccess; rw [show w / 16777216 % 256 = 5 from hop]; rfl
  show decodeAccess w ⟨imm.high, none⟩ = _
  rw [hm]
  simp only [f3, if_true, reduceCtorEq, Option.isSome, Bool.false_eq_true, if_false, BitVec.reduceEq, ↓reduceIte]
  unfold decAshlImm
  simp only [need, f0, f1, f2, f3, hwf, if_true, decide_true, Option.isNone, Option.isSome, Bool.and_self, Option.getD]
  rfl

theorem decodeLane_aand (ad : AReg) (s1 : ASrc) (s2 : ASrc)
    (hwf : (decide (s1.toNat < 36) && decide (s2.toNat < 36)) = true) (w : Nat) (hw : 100663296 + ad.toNat * 524288 + s1.toNat * 8192 + s2.toNat * 64 = w) :
    decodeLane .a w ⟨none, none⟩ = .ok (.aand ad s1 s2) := by
  have d0 : w / 2 ^ 0 = ((((6 * 2 ^ 5 + ad.toNat) * 2 ^ 6 + s1.toNat) * 2 ^ 1 + 0) * 2 ^ 6 + s2.toNat) * 2 ^ 6 + 0 := by omega
  have d1 := div_next d0 (by decide)
  have d2 := div_next d1 s2.isLt
  have d3 := div_next d2 (by decide)
  have d4 := div_next d3 s1.isLt
  have hop := congrArg (· % 256) (div_next d4 ad.isLt)
  have f0 : fld 5 19 w = ad := fld_at d4
  have f1 : fld 6 13 w = s1 := fld_at d3
  have f2 : fld 6 6 w = s2 := fld_at d1
  have f3 : fld 6 0 w = 0#6 := fld_num d0
  have f4 : fld 1 12 w = 0#1 := fld_num d2
  clear hw d0 d1 d2 d3 d4
  simp only [Bool.and_eq_true] at hwf
  obtain ⟨w1, w2⟩ := hwf
  have hm : decodeAccess w ⟨none, none⟩ = (if fld 1 12 w = 0#1 then decAand w ⟨none, none⟩ else decAandImm w ⟨none, none⟩) := by unfold decodeAccess; rw [show w / 16777216 % 256 = 6 from hop]; rfl
  show decodeAccess w ⟨none, none⟩ = _
  rw [hm]
  simp only [f3, f4, if_true, reduceCtorEq, Option.isSome, Bool.false_eq_true, if_false, BitVec.reduceEq, ↓reduceIte]
  unfold decAand
  simp only [need, f0, f1, f2, f3, f4, w1, w2, if_true, decide_true, Option.isNone, Option.isSome, Bool.and_self, Option.getD]
  rfl

theorem decodeLane_aandImm (ad : AReg) (s1 : ASrc) (imm : Imm 12)
    (hwf : (decide (s1.toNat < 36)) = true) (w : Nat) (hw : 100667392 + ad.toNat * 524288 + s1.toNat * 8192 + imm.low.toNat * 1 = w) :
    decodeLane .a w ⟨imm.high, none⟩ = .ok (.aandImm ad s1 imm) := by
  have d0 : w / 2 ^ 0 = (((6 * 2 ^ 5 + ad.toNat) * 2 ^ 6 + s1.toNat) * 2 ^ 1 + 1) * 2 ^ 12 + imm.low.toNat := by omega
  have d1 := div_next d0 imm.low.isLt
  have d2 := div_next d1 (by decide)
  have d3 := div_next d2 s1.isLt
  have hop := congrArg (· % 256) (div_next d3 ad.isLt)
  have f0 : fld 5 19 w = ad := fld_at d3
  have f1 : fld 6 13 w = s1 := fld_at d2
  have f2 : fld 12 0 w = imm.low := fld_at d0
  have f3 : fld 1 12 w = 1#1 := fld_num d1
  clear hw d0 d1 d2 d3
  have hm : decodeAccess w ⟨imm.high, none⟩ = (if fld 1 12 w = 0#1 then decAand w ⟨imm.high, none⟩ else decAandImm w ⟨imm.high, none⟩) := by unfold decodeAccess; rw [show w / 16777216 % 256 = 6 from hop]; rfl
  show decodeAccess w ⟨imm.high, none⟩ = _
  rw [hm]
  simp only [f3, if_true, reduceCtorEq, Option.isSome, Bool.false_eq_true, if_false, BitVec.reduceEq, ↓reduceIte]
  unfold decAandImm
  simp only [need, f0, f1, f2, f3, hwf, if_true, decide_true, Option.isNone, Option.isSome, Bool.and_self, Option.getD]
  rfl

theorem decodeLane_ard (q : QReg) (s1 : ASrc) (off : Imm 15)
    (hwf : (decide (s1.toNat < 36) && decide (q.toNat ≤ 3)) = true) (w : Nat) (hw : 134217728 + q.toNat * 2097152 + s1.toNat * 32768 + off.low.toNat * 1 = w) :
    decodeLane .a w ⟨off.high, none⟩ = .ok (.ard q s1 off) := by
  have d0 : w / 2 ^ 0 = ((8 * 2 ^ 3 + q.toNat) * 2 ^ 6 + s1.toNat) * 2 ^ 15 + off.low.toNat := by omega
  have d1 := div_next d0 off.low.isLt
  have d2 := div_next d1 s1.isLt
  have hop := congrArg (· % 256) (div_next d2 q.isLt)
  have f0 : fld 3 21 w = q := fld_at d2
  have f1 : fld 6 15 w = s1 := fld_at d1
  have f2 : fld 15 0 w = off.low := fld_at d0
  clear hw d0 d1 d2
  simp only [Bool.and_eq_true] at hwf
  obtain ⟨w1, w2⟩ := hwf
  have hm : decodeAccess w ⟨off.high, none⟩ = (decArd w ⟨off.high, none⟩) := by unfold decodeAccess; rw [show w / 16777216 % 256 = 8 from hop]; rfl
  show decodeAccess w ⟨off.high, none⟩ = _
  rw [hm]
  unfold decArd
  simp only [need, f0, f1, f2, w1, w2, if_true, decide_true, Option.isNone, Option.isSome, Bool.and_self, Option.getD]
  rfl

theorem decodeLane_awr (q : QReg) (s1 : ASrc) (off : Imm 15)
    (hwf : (decide (s1.toNat < 36) && decide (q.toNat ≥ 4)) = true) (w : Nat) (hw : 150994944 + q.toNat * 2097152 + s1.toNat * 32768 + off.low.toNat * 1 = w) :
    decodeLane .a w ⟨off.high, none⟩ = .ok (.awr q s1 off) := by
  have d0 : w / 2 ^ 0 = ((9 * 2 ^ 3 + q.toNat) * 2 ^ 6 + s1.toNat) * 2 ^ 15 + off.low.toNat := by omega
  have d1 := div_next d0 off.low.isLt
  have d2 := div_next d1 s1.isLt
  have hop := congrArg (· % 256) (div_next d2 q.isLt)
  have f0 : fld 3 21 w = q := fld_at d2
  have f1 : fld 6 15 w = s1 := fld_at d1
  have f2 : fld 15 0 w = off.low := fld_at d0
  clear hw d0 d1 d2
  simp only [Bool.and_eq_true] at hwf
  obtain ⟨w1, w2⟩ := hwf
  have hm : decodeAccess w ⟨off.high, none⟩ = (decAwr w ⟨off.high, none⟩) := by unfold decodeAccess; rw [show w / 16777216 % 256 = 9 from hop]; rfl
  show decodeAccess w ⟨off.high, none⟩ = _
  rw [hm]
  unfold decAwr
  simp only [need, f0, f1, f2, w1, w2, if_true, decide_true, Option.isNone, Option.isSome, Bool.and_self, Option.getD]
  rfl

theorem decodeLane_ardg (q : QReg) (s1 : ASrc) (qi : QReg) (ew : BitVec 2)
    (hwf : (decide (s1.toNat < 36) && decide (q.toNat ≤ 3) && decide (qi.toNat ≥ 4)) = true) (w : Nat) (hw : 167772160 + q.toNat * 524288 + s1.toNat * 8192 + qi.toNat * 128 + ew.toNat * 1 = w) :
    decodeLane .a w ⟨none, none⟩ = .ok (.ardg q s1 qi ew) := by
  have d0 : w / 2 ^ 0 = ((((((10 * 2 ^ 2 + 0) * 2 ^ 3 + q.toNat) * 2 ^ 6 + s1.toNat) * 2 ^ 3 + 0) * 2 ^ 3 + qi.toNat) * 2 ^ 5 + 0) * 2 ^ 2 + ew.toNat := by omega
  have d1 := div_next d0 ew.isLt
  have d2 := div_next d1 (by decide)
  have d3 := div_next d2 qi.isLt
  have d4 := div_next d3 (by decide)
  have d5 := div_next d4 s1.isLt
  have d6 := div_next d5 q.isLt
  have hop := congrArg (· % 256) (div_next d6 (by decide))
  have f0 : fld 3 19 w = q := fld_at d5
  have f1 : fld 6 13 w = s1 := fld_at d4
  have f2 : fld 3 7 w = qi := fld_at d2
  have f3 : fld 2 0 w = ew := fld_at d0
  have f4 : fld 3 10 w = 0#3 := fld_num d3
  have f5 : fld 5 2 w = 0#5 := fld_num d1
  have f6 : fld 2 22 w = 0#2 := fld_num d6
  clear hw d0 d1 d2 d3 d4 d5 d6
  simp only [Bool.and_eq_true] at hwf
  obtain ⟨⟨w1, w2⟩, w3⟩ := hwf
  have hm : decodeAccess w ⟨none, none⟩ = (decArdg w ⟨none, none⟩) := by unfold decodeAccess; rw [show w / 16777216 % 256 = 10 from hop]; rfl
  show decodeAccess w ⟨none, none⟩ = _
  rw [hm]
  unfold decArdg
  simp only [need, f0, f1, f2, f3, f4, f5, f6, w1, w2, w3, if_true, decide_true, Option.isNone, Option.isSome, Bool.and_self, Option.getD]
  rfl

theorem decodeLane_awrs (s1 : ASrc) (qd : QReg) (qi : QReg)
    (hwf : (decide (s1.toNat < 36) && decide (qd.toNat ≥ 4) && decide (qi.toNat ≥ 4) && decide (qd ≠ qi)) = true) (w : Nat) (hw : 184549376 + s1.toNat * 8192 + qd.toNat * 524288 + qi.toNat * 128 = w) :
    decodeLane .a w ⟨none, none⟩ = .ok (.awrs s1 qd qi) := by
  have d0 : w / 2 ^ 0 = (((((11 * 2 ^ 2 + 0) * 2 ^ 3 + qd.toNat) * 2 ^ 6 + s1.toNat) * 2 ^ 3 + 0) * 2 ^ 3 + qi.toNat) * 2 ^ 7 + 0 := by omega
  have d1 := div_next d0 (by decide)
  have d2 := div_next d1 qi.isLt
  have d3 := div_next d2 (by decide)
  have d4 := div_next d3 s1.isLt
  have d5 := div_next d4 qd.isLt
  have hop := congrArg (· % 256) (div_next d5 (by decide))
  have f0 : fld 6 13 w = s1 := fld_at d3
  have f1 : fld 3 19 w = qd := fld_at d4
  have f2 : fld 3 7 w = qi := fld_at d1
  have f3 : fld 3 10 w = 0#3 := fld_num d2
  have f4 : fld 7 0 w = 0#7 := fld_num d0
  have f5 : fld 2 22 w = 0#2 := fld_num d5
  clear hw d0 d1 d2 d3 d4 d5
  simp only [Bool.and_eq_true] at hwf
  obtain ⟨⟨⟨w1, w2⟩, w3⟩, w4⟩ := hwf
  have hm : decodeAccess w ⟨none, none⟩ = (decAwrs w ⟨none, none⟩) := by unfold decodeAccess; rw [show w / 16777216 % 256 = 11 from hop]; rfl
  show decodeAccess w ⟨none, none⟩ = _
  rw [hm]
  unfold decAwrs
  simp only [need, f0, f1, f2, f3, f4, f5, w1, w2, w3, w4, if_true, decide_true, Option.isNone, Option.isSome, Bool.and_self, Option.getD]
  rfl

theorem decodeLane_astream (q : QReg) (n : BitVec 6) (lv : BitVec 2)
    (hwf : (decide (n.toNat ≤ 23)) = true) (w : Nat) (hw : 201326592 + q.toNat * 524288 + n.toNat * 8192 + lv.toNat * 1 = w) :
    decodeLane .a w ⟨none, none⟩ = .ok (.astream q n lv) := by
  have d0 : w / 2 ^ 0 = ((((12 * 2 ^ 2 + 0) * 2 ^ 3 + q.toNat) * 2 ^ 6 + n.toNat) * 2 ^ 11 + 0) * 2 ^ 2 + lv.toNat := by omega
  have d1 := div_next d0 lv.isLt
  have d2 := div_next d1 (by decide)
  have d3 := div_next d2 n.isLt
  have d4 := div_next d3 q.isLt
  have hop := congrArg (· % 256) (div_next d4 (by decide))
  have f0 : fld 3 19 w = q := fld_at d3
  have f1 : fld 6 13 w = n := fld_at d2
  have f2 : fld 2 0 w = lv := fld_at d0
  have f3 : fld 11 2 w = 0#11 := fld_num d1
  have f4 : fld 2 22 w = 0#2 := fld_num d4
  clear hw d0 d1 d2 d3 d4
  have hm : decodeAccess w ⟨none, none⟩ = (decAstream w ⟨none, none⟩) := by unfold decodeAccess; rw [show w / 16777216 % 256 = 12 from hop]; rfl
  show decodeAccess w ⟨none, none⟩ = _
  rw [hm]
  unfold decAstream
  simp only [need, f0, f1, f2, f3, f4, hwf, if_true, decide_true, Option.isNone, Option.isSome, Bool.and_self, Option.getD]
  rfl

theorem decodeLane_aunbind (q : QReg)
    (hwf : (true) = true) (w : Nat) (hw : 218103808 + q.toNat * 524288 = w) :
    decodeLane .a w ⟨none, none⟩ = .ok (.aunbind q) := by
  have d0 : w / 2 ^ 0 = ((13 * 2 ^ 2 + 0) * 2 ^ 3 + q.toNat) * 2 ^ 19 + 0 := by omega
  have d1 := div_next d0 (by decide)
  have d2 := div_next d1 q.isLt
  have hop := congrArg (· % 256) (div_next d2 (by decide))
  have f0 : fld 3 19 w = q := fld_at d1
  have f1 : fld 19 0 w = 0#19 := fld_num d0
  have f2 : fld 2 22 w = 0#2 := fld_num d2
  clear hw d0 d1 d2
  have hm : decodeAccess w ⟨none, none⟩ = (decAunbind w ⟨none, none⟩) := by unfold decodeAccess; rw [show w / 16777216 % 256 = 13 from hop]; rfl
  show decodeAccess w ⟨none, none⟩ = _
  rw [hm]
  unfold decAunbind
  simp only [need, f0, f1, f2, if_true, decide_true, Option.isNone, Option.isSome, Bool.and_self, Option.getD]
  rfl

theorem decodeLane_atile (t : TsReg) (s1 : ASrc) (s2 : ASrc) (fmt : BitVec 7)
    (hwf : (decide (s1.toNat < 36) && decide (s2.toNat < 36)) = true) (w : Nat) (hw : 268435456 + t.toNat * 524288 + s1.toNat * 8192 + s2.toNat * 128 + fmt.toNat * 1 = w) :
    decodeLane .a w ⟨none, none⟩ = .ok (.atile t s1 s2 fmt) := by
  have d0 : w / 2 ^ 0 = ((((16 * 2 ^ 1 + 0) * 2 ^ 4 + t.toNat) * 2 ^ 6 + s1.toNat) * 2 ^ 6 + s2.toNat) * 2 ^ 7 + fmt.toNat := by omega
  have d1 := div_next d0 fmt.isLt
  have d2 := div_next d1 s2.isLt
  have d3 := div_next d2 s1.isLt
  have d4 := div_next d3 t.isLt
  have hop := congrArg (· % 256) (div_next d4 (by decide))
  have f0 : fld 4 19 w = t := fld_at d3
  have f1 : fld 6 13 w = s1 := fld_at d2
  have f2 : fld 6 7 w = s2 := fld_at d1
  have f3 : fld 7 0 w = fmt := fld_at d0
  have f4 : fld 1 23 w = 0#1 := fld_num d4
  clear hw d0 d1 d2 d3 d4
  simp only [Bool.and_eq_true] at hwf
  obtain ⟨w1, w2⟩ := hwf
  have hm : decodeAccess w ⟨none, none⟩ = (decAtile w ⟨none, none⟩) := by unfold decodeAccess; rw [show w / 16777216 % 256 = 16 from hop]; rfl
  show decodeAccess w ⟨none, none⟩ = _
  rw [hm]
  unfold decAtile
  simp only [need, f0, f1, f2, f3, f4, w1, w2, if_true, decide_true, Option.isNone, Option.isSome, Bool.and_self, Option.getD]
  rfl

theorem decodeLane_apln (td : TsReg) (ts : TsReg)
    (hwf : (true) = true) (w : Nat) (hw : 285212672 + td.toNat * 524288 + ts.toNat * 8192 = w) :
    decodeLane .a w ⟨none, none⟩ = .ok (.apln td ts) := by
  have d0 : w / 2 ^ 0 = ((((17 * 2 ^ 1 + 0) * 2 ^ 4 + td.toNat) * 2 ^ 2 + 0) * 2 ^ 4 + ts.toNat) * 2 ^ 13 + 0 := by omega
  have d1 := div_next d0 (by decide)
  have d2 := div_next d1 ts.isLt
  have d3 := div_next d2 (by decide)
  have d4 := div_next d3 td.isLt
  have hop := congrArg (· % 256) (div_next d4 (by decide))
  have f0 : fld 4 19 w = td := fld_at d3
  have f1 : fld 4 13 w = ts := fld_at d1
  have f2 : fld 2 17 w = 0#2 := fld_num d2
  have f3 : fld 13 0 w = 0#13 := fld_num d0
  have f4 : fld 1 23 w = 0#1 := fld_num d4
  clear hw d0 d1 d2 d3 d4
  have hm : decodeAccess w ⟨none, none⟩ = (decApln w ⟨none, none⟩) := by unfold decodeAccess; rw [show w / 16777216 % 256 = 17 from hop]; rfl
  show decodeAccess w ⟨none, none⟩ = _
  rw [hm]
  unfold decApln
  simp only [need, f0, f1, f2, f3, f4, if_true, decide_true, Option.isNone, Option.isSome, Bool.and_self, Option.getD]
  rfl

theorem decodeLane_aunpln (td : TsReg) (ts : TsReg) (rm : BitVec 3)
    (hwf : (true) = true) (w : Nat) (hw : 301989888 + td.toNat * 524288 + ts.toNat * 8192 + rm.toNat * 1 = w) :
    decodeLane .a w ⟨none, none⟩ = .ok (.aunpln td ts rm) := by
  have d0 : w / 2 ^ 0 = (((((18 * 2 ^ 1 + 0) * 2 ^ 4 + td.toNat) * 2 ^ 2 + 0) * 2 ^ 4 + ts.toNat) * 2 ^ 10 + 0) * 2 ^ 3 + rm.toNat := by omega
  have d1 := div_next d0 rm.isLt
  have d2 := div_next d1 (by decide)
  have d3 := div_next d2 ts.isLt
  have d4 := div_next d3 (by decide)
  have d5 := div_next d4 td.isLt
  have hop := congrArg (· % 256) (div_next d5 (by decide))
  have f0 : fld 4 19 w = td := fld_at d4
  have f1 : fld 4 13 w = ts := fld_at d2
  have f2 : fld 3 0 w = rm := fld_at d0
  have f3 : fld 2 17 w = 0#2 := fld_num d3
  have f4 : fld 10 3 w = 0#10 := fld_num d1
  have f5 : fld 1 23 w = 0#1 := fld_num d5
  clear hw d0 d1 d2 d3 d4 d5
  have hm : decodeAccess w ⟨none, none⟩ = (decAunpln w ⟨none, none⟩) := by unfold decodeAccess; rw [show w / 16777216 % 256 = 18 from hop]; rfl
  show decodeAccess w ⟨none, none⟩ = _
  rw [hm]
  unfold decAunpln
  simp only [need, f0, f1, f2, f3, f4, f5, if_true, decide_true, Option.isNone, Option.isSome, Bool.and_self, Option.getD]
  rfl

theorem decodeLane_acb (c : CbReg) (s1 : ASrc) (s2 : ASrc) (size : BitVec 4)
    (hwf : (decide (s1.toNat < 36) && decide (s2.toNat < 36)) = true) (w : Nat) (hw : 318767104 + c.toNat * 524288 + s1.toNat * 8192 + s2.toNat * 128 + size.toNat * 1 = w) :
    decodeLane .a w ⟨none, none⟩ = .ok (.acb c s1 s2 size) := by
  have d0 : w / 2 ^ 0 = (((((((19 * 2 ^ 2 + 0) * 2 ^ 3 + c.toNat) * 2 ^ 6 + s1.toNat) * 2 ^ 6 + s2.toNat) * 2 ^ 1 + 0) * 2 ^ 1 + 0) * 2 ^ 1 + 0) * 2 ^ 4 + size.toNat := by omega
  have d1 := div_next d0 size.isLt
  have d2 := div_next d1 (by decide)
  have d3 := div_next d2 (by decide)
  have d4 := div_next d3 (by decide)
  have d5 := div_next d4 s2.isLt
  have d6 := div_next d5 s1.isLt
  have d7 := div_next d6 c.isLt
  have hop := congrArg (· % 256) (div_next d7 (by decide))
  have f0 : fld 3 19 w = c := fld_at d6
  have f1 : fld 6 13 w = s1 := fld_at d5
  have f2 : fld 6 7 w = s2 := fld_at d4
  have f3 : fld 4 0 w = size := fld_at d0
  have f4 : fld 1 4 w = 0#1 := fld_num d1
  have f5 : fld 1 6 w = 0#1 := fld_num d3
  have f6 : fld 2 22 w = 0#2 := fld_num d7
  have f7 : fld 2 5 w = 0#2 := fld_lit 0 (by omega)
  clear hw d0 d1 d2 d3 d4 d5 d6 d7
  simp only [Bool.and_eq_true] at hwf
  obtain ⟨w1, w2⟩ := hwf
  have hm : decodeAccess w ⟨none, none⟩ = (if fld 2 5 w = 0#2 then decAcb w ⟨none, none⟩ else if fld 2 5 w = 1#2 then decAcbGet w ⟨none, none⟩ else decReserved false ⟨none, none⟩) := by unfold decodeAccess; rw [show w / 16777216 % 256 = 19 from hop]; rfl
  show decodeAccess w ⟨none, none⟩ = _
  rw [hm]
  simp only [f4, f5, f6, f7, if_true, reduceCtorEq, Option.isSome, Bool.false_eq_true, if_false, BitVec.reduceEq, ↓reduceIte]
  unfold decAcb
  simp only [need, f0, f1, f2, f3, f4, f5, f6, f7, w1, w2, if_true, decide_true, Option.isNone, Option.isSome, Bool.and_self, Option.getD]
  rfl

theorem decodeLane_acbGet (ad : AReg) (c : CbReg)
    (hwf : (true) = true) (w : Nat) (hw : 318767136 + ad.toNat * 524288 + c.toNat * 8192 = w) :
    decodeLane .a w ⟨none, none⟩ = .ok (.acbGet ad c) := by
  have d0 : w / 2 ^ 0 = ((((((19 * 2 ^ 5 + ad.toNat) * 2 ^ 3 + 0) * 2 ^ 3 + c.toNat) * 2 ^ 6 + 0) * 2 ^ 1 + 0) * 2 ^ 1 + 1) * 2 ^ 5 + 0 := by omega
  have d1 := div_next d0 (by decide)
  have d2 := div_next d1 (by decide)
  have d3 := div_next d2 (by decide)
  have d4 := div_next d3 (by decide)
  have d5 := div_next d4 c.isLt
  have d6 := div_next d5 (by decide)
  have hop := congrArg (· % 256) (div_next d6 ad.isLt)
  have f0 : fld 5 19 w = ad := fld_at d6
  have f1 : fld 3 13 w = c := fld_at d4
  have f2 : fld 5 0 w = 0#5 := fld_num d0
  have f3 : fld 7 6 w = 0#7 := fld_lit 0 (by omega)
  have f4 : fld 3 16 w = 0#3 := fld_num d5
  have f5 : fld 2 5 w = 1#2 := fld_lit 1 (by omega)
  clear hw d0 d1 d2 d3 d4 d5 d6
  have hm : decodeAccess w ⟨none, none⟩ = (if fld 2 5 w = 0#2 then decAcb w ⟨none, none⟩ else if fld 2 5 w = 1#2 then decAcbGet w ⟨none, none⟩ else decReserved false ⟨none, none⟩) := by unfold decodeAccess; rw [show w / 16777216 % 256 = 19 from hop]; rfl
  show decodeAccess w ⟨none, none⟩ = _
  rw [hm]
  simp only [f2, f3, f4, f5, if_true, reduceCtorEq, Option.isSome, Bool.false_eq_true, if_false, BitVec.reduceEq, ↓reduceIte]
  unfold decAcbGet
  simp only [need, f0, f1, f2, f3, f4, f5, if_true, decide_true, Option.isNone, Option.isSome, Bool.and_self, Option.getD]
  rfl

theorem decodeLane_acbRel (c : CbReg)
    (hwf : (true) = true) (w : Nat) (hw : 335544320 + c.toNat * 524288 = w) :
    decodeLane .a w ⟨none, none⟩ = .ok (.acbRel c) := by
  have d0 : w / 2 ^ 0 = ((20 * 2 ^ 2 + 0) * 2 ^ 3 + c.toNat) * 2 ^ 19 + 0 := by omega
  have d1 := div_next d0 (by decide)
  have d2 := div_next d1 c.isLt
  have hop := congrArg (· % 256) (div_next d2 (by decide))
  have f0 : fld 3 19 w = c := fld_at d1
  have f1 : fld 19 0 w = 0#19 := fld_num d0
  have f2 : fld 2 22 w = 0#2 := fld_num d2
  clear hw d0 d1 d2
  have hm : decodeAccess w ⟨none, none⟩ = (decAcbRel w ⟨none, none⟩) := by unfold decodeAccess; rw [show w / 16777216 % 256 = 20 from hop]; rfl
  show decodeAccess w ⟨none, none⟩ = _
  rw [hm]
  unfold decAcbRel
  simp only [need, f0, f1, f2, if_true, decide_true, Option.isNone, Option.isSome, Bool.and_self, Option.getD]
  rfl

theorem decodeLane_vadd (vd : VDst) (vs1 : VSrc) (vs2 : VSrc) (rm : BitVec 3)
    (hwf : (decide (vd.toNat < 69) && decide (vs1.toNat < 72) && decide (vs2.toNat < 72)) = true) (w : Nat) (hw : 16777216 + vd.toNat * 131072 + vs1.toNat * 1024 + vs2.toNat * 8 + rm.toNat * 1 = w) :
    decodeLane .v w ⟨none, none⟩ = .ok (.vadd vd vs1 vs2 rm) := by
  have d0 : w / 2 ^ 0 = (((1 * 2 ^ 7 + vd.toNat) * 2 ^ 7 + vs1.toNat) * 2 ^ 7 + vs2.toNat) * 2 ^ 3 + rm.toNat := by omega
  have d1 := div_next d0 rm.isLt
  have d2 := div_next d1 vs2.isLt
  have d3 := div_next d2 vs1.isLt
  have hop := congrArg (· % 256) (div_next d3 vd.isLt)
  have f0 : fld 7 17 w = vd := fld_at d3
  have f1 : fld 7 10 w = vs1 := fld_at d2
  have f2 : fld 7 3 w = vs2 := fld_at d1
  have f3 : fld 3 0 w = rm := fld_at d0
  clear hw d0 d1 d2 d3
  simp only [Bool.and_eq_true] at hwf
  obtain ⟨⟨w1, w2⟩, w3⟩ := hwf
  have hm : decodeVector w ⟨none, none⟩ = (decVadd w ⟨none, none⟩) := by unfold decodeVector; rw [show w / 16777216 % 256 = 1 from hop]; rfl
  show decodeVector w ⟨none, none⟩ = _
  rw [hm]
  unfold decVadd
  simp only [need, f0, f1, f2, f3, w1, w2, w3, if_true, decide_true, Option.isNone, Option.isSome, Bool.and_self, Option.getD]
  rfl

theorem decodeLane_vsub (vd : VDst) (vs1 : VSrc) (vs2 : VSrc) (rm : BitVec 3)
    (hwf : (decide (vd.toNat < 69) && decide (vs1.toNat < 72) && decide (vs2.toNat < 72)) = true) (w : Nat) (hw : 33554432 + vd.toNat * 131072 + vs1.toNat * 1024 + vs2.toNat * 8 + rm.toNat * 1 = w) :
    decodeLane .v w ⟨none, none⟩ = .ok (.vsub vd vs1 vs2 rm) := by
  have d0 : w / 2 ^ 0 = (((2 * 2 ^ 7 + vd.toNat) * 2 ^ 7 + vs1.toNat) * 2 ^ 7 + vs2.toNat) * 2 ^ 3 + rm.toNat := by omega
  have d1 := div_next d0 rm.isLt
  have d2 := div_next d1 vs2.isLt
  have d3 := div_next d2 vs1.isLt
  have hop := congrArg (· % 256) (div_next d3 vd.isLt)
  have f0 : fld 7 17 w = vd := fld_at d3
  have f1 : fld 7 10 w = vs1 := fld_at d2
  have f2 : fld 7 3 w = vs2 := fld_at d1
  have f3 : fld 3 0 w = rm := fld_at d0
  clear hw d0 d1 d2 d3
  simp only [Bool.and_eq_true] at hwf
  obtain ⟨⟨w1, w2⟩, w3⟩ := hwf
  have hm : decodeVector w ⟨none, none⟩ = (decVsub w ⟨none, none⟩) := by unfold decodeVector; rw [show w / 16777216 % 256 = 2 from hop]; rfl
  show decodeVector w ⟨none, none⟩ = _
  rw [hm]
  unfold decVsub
  simp only [need, f0, f1, f2, f3, w1, w2, w3, if_true, decide_true, Option.isNone, Option.isSome, Bool.and_self, Option.getD]
  rfl

theorem decodeLane_vmul (vd : VDst) (vs1 : VSrc) (vs2 : VSrc) (rm : BitVec 3)
    (hwf : (decide (vd.toNat < 69) && decide (vs1.toNat < 72) && decide (vs2.toNat < 72)) = true) (w : Nat) (hw : 50331648 + vd.toNat * 131072 + vs1.toNat * 1024 + vs2.toNat * 8 + rm.toNat * 1 = w) :
    decodeLane .v w ⟨none, none⟩ = .ok (.vmul vd vs1 vs2 rm) := by
  have d0 : w / 2 ^ 0 = (((3 * 2 ^ 7 + vd.toNat) * 2 ^ 7 + vs1.toNat) * 2 ^ 7 + vs2.toNat) * 2 ^ 3 + rm.toNat := by omega
  have d1 := div_next d0 rm.isLt
  have d2 := div_next d1 vs2.isLt
  have d3 := div_next d2 vs1.isLt
  have hop := congrArg (· % 256) (div_next d3 vd.isLt)
  have f0 : fld 7 17 w = vd := fld_at d3
  have f1 : fld 7 10 w = vs1 := fld_at d2
  have f2 : fld 7 3 w = vs2 := fld_at d1
  have f3 : fld 3 0 w = rm := fld_at d0
  clear hw d0 d1 d2 d3
  simp only [Bool.and_eq_true] at hwf
  obtain ⟨⟨w1, w2⟩, w3⟩ := hwf
  have hm : decodeVector w ⟨none, none⟩ = (decVmul w ⟨none, none⟩) := by unfold decodeVector; rw [show w / 16777216 % 256 = 3 from hop]; rfl
  show decodeVector w ⟨none, none⟩ = _
  rw [hm]
  unfold decVmul
  simp only [need, f0, f1, f2, f3, w1, w2, w3, if_true, decide_true, Option.isNone, Option.isSome, Bool.and_self, Option.getD]
  rfl

theorem decodeLane_vmulh (vd : VDst) (vs1 : VSrc) (vs2 : VSrc)
    (hwf : (decide (vd.toNat < 69) && decide (vs1.toNat < 72) && decide (vs2.toNat < 72)) = true) (w : Nat) (hw : 67108864 + vd.toNat * 131072 + vs1.toNat * 1024 + vs2.toNat * 8 = w) :
    decodeLane .v w ⟨none, none⟩ = .ok (.vmulh vd vs1 vs2) := by
  have d0 : w / 2 ^ 0 = (((4 * 2 ^ 7 + vd.toNat) * 2 ^ 7 + vs1.toNat) * 2 ^ 7 + vs2.toNat) * 2 ^ 3 + 0 := by omega
  have d1 := div_next d0 (by decide)
  have d2 := div_next d1 vs2.isLt
  have d3 := div_next d2 vs1.isLt
  have hop := congrArg (· % 256) (div_next d3 vd.isLt)
  have f0 : fld 7 17 w = vd := fld_at d3
  have f1 : fld 7 10 w = vs1 := fld_at d2
  have f2 : fld 7 3 w = vs2 := fld_at d1
  have f3 : fld 3 0 w = 0#3 := fld_num d0
  clear hw d0 d1 d2 d3
  simp only [Bool.and_eq_true] at hwf
  obtain ⟨⟨w1, w2⟩, w3⟩ := hwf
  have hm : decodeVector w ⟨none, none⟩ = (decVmulh w ⟨none, none⟩) := by unfold decodeVector; rw [show w / 16777216 % 256 = 4 from hop]; rfl
  show decodeVector w ⟨none, none⟩ = _
  rw [hm]
  unfold decVmulh
  simp only [need, f0, f1, f2, f3, w1, w2, w3, if_true, decide_true, Option.isNone, Option.isSome, Bool.and_self, Option.getD]
  rfl

/-- VMA with an extra-operand lane. -/
theorem decodeVma_extra (vd : VDst) (vs1 : VSrc) (vs2 : VSrc) (rm : BitVec 3) (e : VSrc)
    (w1 : decide (vd.toNat < 69) = true) (w2 : decide (vs1.toNat < 72) = true) (w3 : decide (vs2.toNat < 72) = true)
    (w5 : decide (e.toNat < 72) = true) (w : Nat) (hw : 83886080 + vd.toNat * 131072 + vs1.toNat * 1024 + vs2.toNat * 8 + rm.toNat * 1 = w)
    (q : BitVec 28) (hn : q.toNat = e.toNat * 2097152) :
    decodeLane .v w ⟨none, some q⟩ = .ok (.vma vd vs1 vs2 rm (some e)) := by
  have d0 : w / 2 ^ 0 = (((5 * 2 ^ 7 + vd.toNat) * 2 ^ 7 + vs1.toNat) * 2 ^ 7 + vs2.toNat) * 2 ^ 3 + rm.toNat := by omega
  have d1 := div_next d0 rm.isLt
  have d2 := div_next d1 vs2.isLt
  have d3 := div_next d2 vs1.isLt
  have hop := congrArg (· % 256) (div_next d3 vd.isLt)
  have f0 : fld 7 17 w = vd := fld_at d3
  have f1 : fld 7 10 w = vs1 := fld_at d2
  have f2 : fld 7 3 w = vs2 := fld_at d1
  have f3 : fld 3 0 w = rm := fld_at d0
  clear hw d0 d1 d2 d3
  have le := e.isLt
  have he : (⟨none, some q⟩ : Ext).e2w = e.toNat * 2097152 := hn
  have hm : decodeVector w ⟨none, some q⟩ = decVma w ⟨none, some q⟩ := by
    unfold decodeVector; rw [show w / 16777216 % 256 = 5 from hop]; rfl
  show decodeVector w ⟨none, some q⟩ = _
  rw [hm]
  have g4 : fld 7 21 q.toNat = e := fld_eq (by omega)
  have g1 : fld 7 14 (⟨none, some q⟩ : Ext).e2w = 0#7 := fld_lit 0 (by omega)
  have g2 : fld 7 7 (⟨none, some q⟩ : Ext).e2w = 0#7 := fld_lit 0 (by omega)
  have g3 : fld 7 0 (⟨none, some q⟩ : Ext).e2w = 0#7 := fld_lit 0 (by omega)
  unfold decVma
  simp only [need, f0, f1, f2, f3, w1, w2, w3, g1, g2, g3, g4, w5, Option.isNone, Option.map, Option.all, if_true, decide_true, or_true]
  rfl

theorem decodeLane_vma (vd : VDst) (vs1 : VSrc) (vs2 : VSrc) (rm : BitVec 3) (c : Option VSrc)
    (hwf : (decide (vd.toNat < 69) && decide (vs1.toNat < 72) && decide (vs2.toNat < 72) && (c.all fun e => decide (e.toNat < 72))) = true)
    (w : Nat) (hw : 83886080 + vd.toNat * 131072 + vs1.toNat * 1024 + vs2.toNat * 8 + rm.toNat * 1 = w) :
    decodeLane .v w ⟨none, c.map fun e => BitVec.ofNat 28 (e.toNat * 2097152)⟩ = .ok (.vma vd vs1 vs2 rm c) := by
  have d0 : w / 2 ^ 0 = (((5 * 2 ^ 7 + vd.toNat) * 2 ^ 7 + vs1.toNat) * 2 ^ 7 + vs2.toNat) * 2 ^ 3 + rm.toNat := by omega
  have d1 := div_next d0 rm.isLt
  have d2 := div_next d1 vs2.isLt
  have d3 := div_next d2 vs1.isLt
  have hop := congrArg (· % 256) (div_next d3 vd.isLt)
  have f0 : fld 7 17 w = vd := fld_at d3
  have f1 : fld 7 10 w = vs1 := fld_at d2
  have f2 : fld 7 3 w = vs2 := fld_at d1
  have f3 : fld 3 0 w = rm := fld_at d0
  simp only [Bool.and_eq_true] at hwf
  obtain ⟨⟨⟨w1, w2⟩, w3⟩, w4⟩ := hwf
  cases c with
  | none =>
    have hm : decodeVector w ⟨none, none⟩ = decVma w ⟨none, none⟩ := by
      unfold decodeVector; rw [show w / 16777216 % 256 = 5 from hop]; rfl
    show decodeVector w ⟨none, none⟩ = _
    rw [hm]
    have g (n : Nat) : fld 7 n (⟨none, none⟩ : Ext).e2w = 0#7 := fld_lit 0 (congrArg (· % 2 ^ 7) (Nat.zero_div (2 ^ n)))
    unfold decVma
    simp only [need, f0, f1, f2, f3, w1, w2, w3, g 14, g 7, g 0, Option.isNone, if_true, decide_true, true_or]
    rfl
  | some e =>
    have le := e.isLt
    exact decodeVma_extra vd vs1 vs2 rm e w1 w2 w3 w4 w hw _ (toNat28 _ (by omega))

theorem decodeLane_vdiv (vd : VDst) (vs1 : VSrc) (vs2 : VSrc) (rm : BitVec 3)
    (hwf : (decide (vd.toNat < 69) && decide (vs1.toNat < 72) && decide (vs2.toNat < 72)) = true) (w : Nat) (hw : 100663296 + vd.toNat * 131072 + vs1.toNat * 1024 + vs2.toNat * 8 + rm.toNat * 1 = w) :
    decodeLane .v w ⟨none, none⟩ = .ok (.vdiv vd vs1 vs2 rm) := by
  have d0 : w / 2 ^ 0 = (((6 * 2 ^ 7 + vd.toNat) * 2 ^ 7 + vs1.toNat) * 2 ^ 7 + vs2.toNat) * 2 ^ 3 + rm.toNat := by omega
  have d1 := div_next d0 rm.isLt
  have d2 := div_next d1 vs2.isLt
  have d3 := div_next d2 vs1.isLt
  have hop := congrArg (· % 256) (div_next d3 vd.isLt)
  have f0 : fld 7 17 w = vd := fld_at d3
  have f1 : fld 7 10 w = vs1 := fld_at d2
  have f2 : fld 7 3 w = vs2 := fld_at d1
  have f3 : fld 3 0 w = rm := fld_at d0
  clear hw d0 d1 d2 d3
  simp only [Bool.and_eq_true] at hwf
  obtain ⟨⟨w1, w2⟩, w3⟩ := hwf
  have hm : decodeVector w ⟨none, none⟩ = (decVdiv w ⟨none, none⟩) := by unfold decodeVector; rw [show w / 16777216 % 256 = 6 from hop]; rfl
  show decodeVector w ⟨none, none⟩ = _
  rw [hm]
  unfold decVdiv
  simp only [need, f0, f1, f2, f3, w1, w2, w3, if_true, decide_true, Option.isNone, Option.isSome, Bool.and_self, Option.getD]
  rfl

theorem decodeLane_vsqrt (vd : VDst) (vs1 : VSrc) (rm : BitVec 3)
    (hwf : (decide (vd.toNat < 69) && decide (vs1.toNat < 72)) = true) (w : Nat) (hw : 117440512 + vd.toNat * 131072 + vs1.toNat * 1024 + rm.toNat * 1 = w) :
    decodeLane .v w ⟨none, none⟩ = .ok (.vsqrt vd vs1 rm) := by
  have d0 : w / 2 ^ 0 = (((7 * 2 ^ 7 + vd.toNat) * 2 ^ 7 + vs1.toNat) * 2 ^ 7 + 0) * 2 ^ 3 + rm.toNat := by omega
  have d1 := div_next d0 rm.isLt
  have d2 := div_next d1 (by decide)
  have d3 := div_next d2 vs1.isLt
  have hop := congrArg (· % 256) (div_next d3 vd.isLt)
  have f0 : fld 7 17 w = vd := fld_at d3
  have f1 : fld 7 10 w = vs1 := fld_at d2
  have f2 : fld 3 0 w = rm := fld_at d0
  have f3 : fld 7 3 w = 0#7 := fld_num d1
  clear hw d0 d1 d2 d3
  simp only [Bool.and_eq_true] at hwf
  obtain ⟨w1, w2⟩ := hwf
  have hm : decodeVector w ⟨none, none⟩ = (decVsqrt w ⟨none, none⟩) := by unfold decodeVector; rw [show w / 16777216 % 256 = 7 from hop]; rfl
  show decodeVector w ⟨none, none⟩ = _
  rw [hm]
  unfold decVsqrt
  simp only [need, f0, f1, f2, f3, w1, w2, if_true, decide_true, Option.isNone, Option.isSome, Bool.and_self, Option.getD]
  rfl

theorem decodeLane_vmin (vd : VDst) (vs1 : VSrc) (vs2 : VSrc)
    (hwf : (decide (vd.toNat < 69) && decide (vs1.toNat < 72) && decide (vs2.toNat < 72)) = true) (w : Nat) (hw : 134217728 + vd.toNat * 131072 + vs1.toNat * 1024 + vs2.toNat * 8 = w) :
    decodeLane .v w ⟨none, none⟩ = .ok (.vmin vd vs1 vs2) := by
  have d0 : w / 2 ^ 0 = (((8 * 2 ^ 7 + vd.toNat) * 2 ^ 7 + vs1.toNat) * 2 ^ 7 + vs2.toNat) * 2 ^ 3 + 0 := by omega
  have d1 := div_next d0 (by decide)
  have d2 := div_next d1 vs2.isLt
  have d3 := div_next d2 vs1.isLt
  have hop := congrArg (· % 256) (div_next d3 vd.isLt)
  have f0 : fld 7 17 w = vd := fld_at d3
  have f1 : fld 7 10 w = vs1 := fld_at d2
  have f2 : fld 7 3 w = vs2 := fld_at d1
  have f3 : fld 3 0 w = 0#3 := fld_num d0
  clear hw d0 d1 d2 d3
  simp only [Bool.and_eq_true] at hwf
  obtain ⟨⟨w1, w2⟩, w3⟩ := hwf
  have hm : decodeVector w ⟨none, none⟩ = (decVmin w ⟨none, none⟩) := by unfold decodeVector; rw [show w / 16777216 % 256 = 8 from hop]; rfl
  show decodeVector w ⟨none, none⟩ = _
  rw [hm]
  unfold decVmin
  simp only [need, f0, f1, f2, f3, w1, w2, w3, if_true, decide_true, Option.isNone, Option.isSome, Bool.and_self, Option.getD]
  rfl

theorem decodeLane_vmax (vd : VDst) (vs1 : VSrc) (vs2 : VSrc)
    (hwf : (decide (vd.toNat < 69) && decide (vs1.toNat < 72) && decide (vs2.toNat < 72)) = true) (w : Nat) (hw : 150994944 + vd.toNat * 131072 + vs1.toNat * 1024 + vs2.toNat * 8 = w) :
    decodeLane .v w ⟨none, none⟩ = .ok (.vmax vd vs1 vs2) := by
  have d0 : w / 2 ^ 0 = (((9 * 2 ^ 7 + vd.toNat) * 2 ^ 7 + vs1.toNat) * 2 ^ 7 + vs2.toNat) * 2 ^ 3 + 0 := by omega
  have d1 := div_next d0 (by decide)
  have d2 := div_next d1 vs2.isLt
  have d3 := div_next d2 vs1.isLt
  have hop := congrArg (· % 256) (div_next d3 vd.isLt)
  have f0 : fld 7 17 w = vd := fld_at d3
  have f1 : fld 7 10 w = vs1 := fld_at d2
  have f2 : fld 7 3 w = vs2 := fld_at d1
  have f3 : fld 3 0 w = 0#3 := fld_num d0
  clear hw d0 d1 d2 d3
  simp only [Bool.and_eq_true] at hwf
  obtain ⟨⟨w1, w2⟩, w3⟩ := hwf
  have hm : decodeVector w ⟨none, none⟩ = (decVmax w ⟨none, none⟩) := by unfold decodeVector; rw [show w / 16777216 % 256 = 9 from hop]; rfl
  show decodeVector w ⟨none, none⟩ = _
  rw [hm]
  unfold decVmax
  simp only [need, f0, f1, f2, f3, w1, w2, w3, if_true, decide_true, Option.isNone, Option.isSome, Bool.and_self, Option.getD]
  rfl

theorem decodeLane_vabs (vd : VDst) (vs1 : VSrc)
    (hwf : (decide (vd.toNat < 69) && decide (vs1.toNat < 72)) = true) (w : Nat) (hw : 167772160 + vd.toNat * 131072 + vs1.toNat * 1024 = w) :
    decodeLane .v w ⟨none, none⟩ = .ok (.vabs vd vs1) := by
  have d0 : w / 2 ^ 0 = ((10 * 2 ^ 7 + vd.toNat) * 2 ^ 7 + vs1.toNat) * 2 ^ 10 + 0 := by omega
  have d1 := div_next d0 (by decide)
  have d2 := div_next d1 vs1.isLt
  have hop := congrArg (· % 256) (div_next d2 vd.isLt)
  have f0 : fld 7 17 w = vd := fld_at d2
  have f1 : fld 7 10 w = vs1 := fld_at d1
  have f2 : fld 10 0 w = 0#10 := fld_num d0
  clear hw d0 d1 d2
  simp only [Bool.and_eq_true] at hwf
  obtain ⟨w1, w2⟩ := hwf
  have hm : decodeVector w ⟨none, none⟩ = (decVabs w ⟨none, none⟩) := by unfold decodeVector; rw [show w / 16777216 % 256 = 10 from hop]; rfl
  show decodeVector w ⟨none, none⟩ = _
  rw [hm]
  unfold decVabs
  simp only [need, f0, f1, f2, w1, w2, if_true, decide_true, Option.isNone, Option.isSome, Bool.and_self, Option.getD]
  rfl

theorem decodeLane_vneg (vd : VDst) (vs1 : VSrc)
    (hwf : (decide (vd.toNat < 69) && decide (vs1.toNat < 72)) = true) (w : Nat) (hw : 184549376 + vd.toNat * 131072 + vs1.toNat * 1024 = w) :
    decodeLane .v w ⟨none, none⟩ = .ok (.vneg vd vs1) := by
  have d0 : w / 2 ^ 0 = ((11 * 2 ^ 7 + vd.toNat) * 2 ^ 7 + vs1.toNat) * 2 ^ 10 + 0 := by omega
  have d1 := div_next d0 (by decide)
  have d2 := div_next d1 vs1.isLt
  have hop := congrArg (· % 256) (div_next d2 vd.isLt)
  have f0 : fld 7 17 w = vd := fld_at d2
  have f1 : fld 7 10 w = vs1 := fld_at d1
  have f2 : fld 10 0 w = 0#10 := fld_num d0
  clear hw d0 d1 d2
  simp only [Bool.and_eq_true] at hwf
  obtain ⟨w1, w2⟩ := hwf
  have hm : decodeVector w ⟨none, none⟩ = (decVneg w ⟨none, none⟩) := by unfold decodeVector; rw [show w / 16777216 % 256 = 11 from hop]; rfl
  show decodeVector w ⟨none, none⟩ = _
  rw [hm]
  unfold decVneg
  simp only [need, f0, f1, f2, w1, w2, if_true, decide_true, Option.isNone, Option.isSome, Bool.and_self, Option.getD]
  rfl

theorem decodeLane_vshl (vd : VDst) (vs1 : VSrc) (vs2 : VSrc)
    (hwf : (decide (vd.toNat < 69) && decide (vs1.toNat < 72) && decide (vs2.toNat < 72)) = true) (w : Nat) (hw : 201326592 + vd.toNat * 131072 + vs1.toNat * 1024 + vs2.toNat * 8 = w) :
    decodeLane .v w ⟨none, none⟩ = .ok (.vshl vd vs1 vs2) := by
  have d0 : w / 2 ^ 0 = (((12 * 2 ^ 7 + vd.toNat) * 2 ^ 7 + vs1.toNat) * 2 ^ 7 + vs2.toNat) * 2 ^ 3 + 0 := by omega
  have d1 := div_next d0 (by decide)
  have d2 := div_next d1 vs2.isLt
  have d3 := div_next d2 vs1.isLt
  have hop := congrArg (· % 256) (div_next d3 vd.isLt)
  have f0 : fld 7 17 w = vd := fld_at d3
  have f1 : fld 7 10 w = vs1 := fld_at d2
  have f2 : fld 7 3 w = vs2 := fld_at d1
  have f3 : fld 3 0 w = 0#3 := fld_num d0
  clear hw d0 d1 d2 d3
  simp only [Bool.and_eq_true] at hwf
  obtain ⟨⟨w1, w2⟩, w3⟩ := hwf
  have hm : decodeVector w ⟨none, none⟩ = (decVshl w ⟨none, none⟩) := by unfold decodeVector; rw [show w / 16777216 % 256 = 12 from hop]; rfl
  show decodeVector w ⟨none, none⟩ = _
  rw [hm]
  unfold decVshl
  simp only [need, f0, f1, f2, f3, w1, w2, w3, if_true, decide_true, Option.isNone, Option.isSome, Bool.and_self, Option.getD]
  rfl

theorem decodeLane_vshr (vd : VDst) (vs1 : VSrc) (vs2 : VSrc)
    (hwf : (decide (vd.toNat < 69) && decide (vs1.toNat < 72) && decide (vs2.toNat < 72)) = true) (w : Nat) (hw : 218103808 + vd.toNat * 131072 + vs1.toNat * 1024 + vs2.toNat * 8 = w) :
    decodeLane .v w ⟨none, none⟩ = .ok (.vshr vd vs1 vs2) := by
  have d0 : w / 2 ^ 0 = (((13 * 2 ^ 7 + vd.toNat) * 2 ^ 7 + vs1.toNat) * 2 ^ 7 + vs2.toNat) * 2 ^ 3 + 0 := by omega
  have d1 := div_next d0 (by decide)
  have d2 := div_next d1 vs2.isLt
  have d3 := div_next d2 vs1.isLt
  have hop := congrArg (· % 256) (div_next d3 vd.isLt)
  have f0 : fld 7 17 w = vd := fld_at d3
  have f1 : fld 7 10 w = vs1 := fld_at d2
  have f2 : fld 7 3 w = vs2 := fld_at d1
  have f3 : fld 3 0 w = 0#3 := fld_num d0
  clear hw d0 d1 d2 d3
  simp only [Bool.and_eq_true] at hwf
  obtain ⟨⟨w1, w2⟩, w3⟩ := hwf
  have hm : decodeVector w ⟨none, none⟩ = (decVshr w ⟨none, none⟩) := by unfold decodeVector; rw [show w / 16777216 % 256 = 13 from hop]; rfl
  show decodeVector w ⟨none, none⟩ = _
  rw [hm]
  unfold decVshr
  simp only [need, f0, f1, f2, f3, w1, w2, w3, if_true, decide_true, Option.isNone, Option.isSome, Bool.and_self, Option.getD]
  rfl

theorem decodeLane_vsar (vd : VDst) (vs1 : VSrc) (vs2 : VSrc)
    (hwf : (decide (vd.toNat < 69) && decide (vs1.toNat < 72) && decide (vs2.toNat < 72)) = true) (w : Nat) (hw : 234881024 + vd.toNat * 131072 + vs1.toNat * 1024 + vs2.toNat * 8 = w) :
    decodeLane .v w ⟨none, none⟩ = .ok (.vsar vd vs1 vs2) := by
  have d0 : w / 2 ^ 0 = (((14 * 2 ^ 7 + vd.toNat) * 2 ^ 7 + vs1.toNat) * 2 ^ 7 + vs2.toNat) * 2 ^ 3 + 0 := by omega
  have d1 := div_next d0 (by decide)
  have d2 := div_next d1 vs2.isLt
  have d3 := div_next d2 vs1.isLt
  have hop := congrArg (· % 256) (div_next d3 vd.isLt)
  have f0 : fld 7 17 w = vd := fld_at d3
  have f1 : fld 7 10 w = vs1 := fld_at d2
  have f2 : fld 7 3 w = vs2 := fld_at d1
  have f3 : fld 3 0 w = 0#3 := fld_num d0
  clear hw d0 d1 d2 d3
  simp only [Bool.and_eq_true] at hwf
  obtain ⟨⟨w1, w2⟩, w3⟩ := hwf
  have hm : decodeVector w ⟨none, none⟩ = (decVsar w ⟨none, none⟩) := by unfold decodeVector; rw [show w / 16777216 % 256 = 14 from hop]; rfl
  show decodeVector w ⟨none, none⟩ = _
  rw [hm]
  unfold decVsar
  simp only [need, f0, f1, f2, f3, w1, w2, w3, if_true, decide_true, Option.isNone, Option.isSome, Bool.and_self, Option.getD]
  rfl

theorem decodeLane_vand (vd : VDst) (vs1 : VSrc) (vs2 : VSrc)
    (hwf : (decide (vd.toNat < 69) && decide (vs1.toNat < 72) && decide (vs2.toNat < 72)) = true) (w : Nat) (hw : 251658240 + vd.toNat * 131072 + vs1.toNat * 1024 + vs2.toNat * 8 = w) :
    decodeLane .v w ⟨none, none⟩ = .ok (.vand vd vs1 vs2) := by
  have d0 : w / 2 ^ 0 = (((15 * 2 ^ 7 + vd.toNat) * 2 ^ 7 + vs1.toNat) * 2 ^ 7 + vs2.toNat) * 2 ^ 3 + 0 := by omega
  have d1 := div_next d0 (by decide)
  have d2 := div_next d1 vs2.isLt
  have d3 := div_next d2 vs1.isLt
  have hop := congrArg (· % 256) (div_next d3 vd.isLt)
  have f0 : fld 7 17 w = vd := fld_at d3
  have f1 : fld 7 10 w = vs1 := fld_at d2
  have f2 : fld 7 3 w = vs2 := fld_at d1
  have f3 : fld 3 0 w = 0#3 := fld_num d0
  clear hw d0 d1 d2 d3
  simp only [Bool.and_eq_true] at hwf
  obtain ⟨⟨w1, w2⟩, w3⟩ := hwf
  have hm : decodeVector w ⟨none, none⟩ = (decVand w ⟨none, none⟩) := by unfold decodeVector; rw [show w / 16777216 % 256 = 15 from hop]; rfl
  show decodeVector w ⟨none, none⟩ = _
  rw [hm]
  unfold decVand
  simp only [need, f0, f1, f2, f3, w1, w2, w3, if_true, decide_true, Option.isNone, Option.isSome, Bool.and_self, Option.getD]
  rfl

theorem decodeLane_vor (vd : VDst) (vs1 : VSrc) (vs2 : VSrc)
    (hwf : (decide (vd.toNat < 69) && decide (vs1.toNat < 72) && decide (vs2.toNat < 72)) = true) (w : Nat) (hw : 268435456 + vd.toNat * 131072 + vs1.toNat * 1024 + vs2.toNat * 8 = w) :
    decodeLane .v w ⟨none, none⟩ = .ok (.vor vd vs1 vs2) := by
  have d0 : w / 2 ^ 0 = (((16 * 2 ^ 7 + vd.toNat) * 2 ^ 7 + vs1.toNat) * 2 ^ 7 + vs2.toNat) * 2 ^ 3 + 0 := by omega
  have d1 := div_next d0 (by decide)
  have d2 := div_next d1 vs2.isLt
  have d3 := div_next d2 vs1.isLt
  have hop := congrArg (· % 256) (div_next d3 vd.isLt)
  have f0 : fld 7 17 w = vd := fld_at d3
  have f1 : fld 7 10 w = vs1 := fld_at d2
  have f2 : fld 7 3 w = vs2 := fld_at d1
  have f3 : fld 3 0 w = 0#3 := fld_num d0
  clear hw d0 d1 d2 d3
  simp only [Bool.and_eq_true] at hwf
  obtain ⟨⟨w1, w2⟩, w3⟩ := hwf
  have hm : decodeVector w ⟨none, none⟩ = (decVor w ⟨none, none⟩) := by unfold decodeVector; rw [show w / 16777216 % 256 = 16 from hop]; rfl
  show decodeVector w ⟨none, none⟩ = _
  rw [hm]
  unfold decVor
  simp only [need, f0, f1, f2, f3, w1, w2, w3, if_true, decide_true, Option.isNone, Option.isSome, Bool.and_self, Option.getD]
  rfl

theorem decodeLane_vxor (vd : VDst) (vs1 : VSrc) (vs2 : VSrc)
    (hwf : (decide (vd.toNat < 69) && decide (vs1.toNat < 72) && decide (vs2.toNat < 72)) = true) (w : Nat) (hw : 285212672 + vd.toNat * 131072 + vs1.toNat * 1024 + vs2.toNat * 8 = w) :
    decodeLane .v w ⟨none, none⟩ = .ok (.vxor vd vs1 vs2) := by
  have d0 : w / 2 ^ 0 = (((17 * 2 ^ 7 + vd.toNat) * 2 ^ 7 + vs1.toNat) * 2 ^ 7 + vs2.toNat) * 2 ^ 3 + 0 := by omega
  have d1 := div_next d0 (by decide)
  have d2 := div_next d1 vs2.isLt
  have d3 := div_next d2 vs1.isLt
  have hop := congrArg (· % 256) (div_next d3 vd.isLt)
  have f0 : fld 7 17 w = vd := fld_at d3
  have f1 : fld 7 10 w = vs1 := fld_at d2
  have f2 : fld 7 3 w = vs2 := fld_at d1
  have f3 : fld 3 0 w = 0#3 := fld_num d0
  clear hw d0 d1 d2 d3
  simp only [Bool.and_eq_true] at hwf
  obtain ⟨⟨w1, w2⟩, w3⟩ := hwf
  have hm : decodeVector w ⟨none, none⟩ = (decVxor w ⟨none, none⟩) := by unfold decodeVector; rw [show w / 16777216 % 256 = 17 from hop]; rfl
  show decodeVector w ⟨none, none⟩ = _
  rw [hm]
  unfold decVxor
  simp only [need, f0, f1, f2, f3, w1, w2, w3, if_true, decide_true, Option.isNone, Option.isSome, Bool.and_self, Option.getD]
  rfl

theorem decodeLane_vnot (vd : VDst) (vs1 : VSrc)
    (hwf : (decide (vd.toNat < 69) && decide (vs1.toNat < 72)) = true) (w : Nat) (hw : 301989888 + vd.toNat * 131072 + vs1.toNat * 1024 = w) :
    decodeLane .v w ⟨none, none⟩ = .ok (.vnot vd vs1) := by
  have d0 : w / 2 ^ 0 = ((18 * 2 ^ 7 + vd.toNat) * 2 ^ 7 + vs1.toNat) * 2 ^ 10 + 0 := by omega
  have d1 := div_next d0 (by decide)
  have d2 := div_next d1 vs1.isLt
  have hop := congrArg (· % 256) (div_next d2 vd.isLt)
  have f0 : fld 7 17 w = vd := fld_at d2
  have f1 : fld 7 10 w = vs1 := fld_at d1
  have f2 : fld 10 0 w = 0#10 := fld_num d0
  clear hw d0 d1 d2
  simp only [Bool.and_eq_true] at hwf
  obtain ⟨w1, w2⟩ := hwf
  have hm : decodeVector w ⟨none, none⟩ = (decVnot w ⟨none, none⟩) := by unfold decodeVector; rw [show w / 16777216 % 256 = 18 from hop]; rfl
  show decodeVector w ⟨none, none⟩ = _
  rw [hm]
  unfold decVnot
  simp only [need, f0, f1, f2, w1, w2, if_true, decide_true, Option.isNone, Option.isSome, Bool.and_self, Option.getD]
  rfl

theorem decodeLane_vpopc (vd : VDst) (vs1 : VSrc)
    (hwf : (decide (vd.toNat < 69) && decide (vs1.toNat < 72)) = true) (w : Nat) (hw : 318767104 + vd.toNat * 131072 + vs1.toNat * 1024 = w) :
    decodeLane .v w ⟨none, none⟩ = .ok (.vpopc vd vs1) := by
  have d0 : w / 2 ^ 0 = ((19 * 2 ^ 7 + vd.toNat) * 2 ^ 7 + vs1.toNat) * 2 ^ 10 + 0 := by omega
  have d1 := div_next d0 (by decide)
  have d2 := div_next d1 vs1.isLt
  have hop := congrArg (· % 256) (div_next d2 vd.isLt)
  have f0 : fld 7 17 w = vd := fld_at d2
  have f1 : fld 7 10 w = vs1 := fld_at d1
  have f2 : fld 10 0 w = 0#10 := fld_num d0
  clear hw d0 d1 d2
  simp only [Bool.and_eq_true] at hwf
  obtain ⟨w1, w2⟩ := hwf
  have hm : decodeVector w ⟨none, none⟩ = (decVpopc w ⟨none, none⟩) := by unfold decodeVector; rw [show w / 16777216 % 256 = 19 from hop]; rfl
  show decodeVector w ⟨none, none⟩ = _
  rw [hm]
  unfold decVpopc
  simp only [need, f0, f1, f2, w1, w2, if_true, decide_true, Option.isNone, Option.isSome, Bool.and_self, Option.getD]
  rfl

theorem decodeLane_vclz (vd : VDst) (vs1 : VSrc)
    (hwf : (decide (vd.toNat < 69) && decide (vs1.toNat < 72)) = true) (w : Nat) (hw : 335544320 + vd.toNat * 131072 + vs1.toNat * 1024 = w) :
    decodeLane .v w ⟨none, none⟩ = .ok (.vclz vd vs1) := by
  have d0 : w / 2 ^ 0 = ((20 * 2 ^ 7 + vd.toNat) * 2 ^ 7 + vs1.toNat) * 2 ^ 10 + 0 := by omega
  have d1 := div_next d0 (by decide)
  have d2 := div_next d1 vs1.isLt
  have hop := congrArg (· % 256) (div_next d2 vd.isLt)
  have f0 : fld 7 17 w = vd := fld_at d2
  have f1 : fld 7 10 w = vs1 := fld_at d1
  have f2 : fld 10 0 w = 0#10 := fld_num d0
  clear hw d0 d1 d2
  simp only [Bool.and_eq_true] at hwf
  obtain ⟨w1, w2⟩ := hwf
  have hm : decodeVector w ⟨none, none⟩ = (decVclz w ⟨none, none⟩) := by unfold decodeVector; rw [show w / 16777216 % 256 = 20 from hop]; rfl
  show decodeVector w ⟨none, none⟩ = _
  rw [hm]
  unfold decVclz
  simp only [need, f0, f1, f2, w1, w2, if_true, decide_true, Option.isNone, Option.isSome, Bool.and_self, Option.getD]
  rfl

theorem decodeLane_vexp (vd : VDst) (vs1 : VSrc) (rm : BitVec 3)
    (hwf : (decide (vd.toNat < 69) && decide (vs1.toNat < 72)) = true) (w : Nat) (hw : 402653184 + vd.toNat * 131072 + vs1.toNat * 1024 + rm.toNat * 1 = w) :
    decodeLane .v w ⟨none, none⟩ = .ok (.vexp vd vs1 rm) := by
  have d0 : w / 2 ^ 0 = (((24 * 2 ^ 7 + vd.toNat) * 2 ^ 7 + vs1.toNat) * 2 ^ 7 + 0) * 2 ^ 3 + rm.toNat := by omega
  have d1 := div_next d0 rm.isLt
  have d2 := div_next d1 (by decide)
  have d3 := div_next d2 vs1.isLt
  have hop := congrArg (· % 256) (div_next d3 vd.isLt)
  have f0 : fld 7 17 w = vd := fld_at d3
  have f1 : fld 7 10 w = vs1 := fld_at d2
  have f2 : fld 3 0 w = rm := fld_at d0
  have f3 : fld 7 3 w = 0#7 := fld_num d1
  clear hw d0 d1 d2 d3
  simp only [Bool.and_eq_true] at hwf
  obtain ⟨w1, w2⟩ := hwf
  have hm : decodeVector w ⟨none, none⟩ = (decVexp w ⟨none, none⟩) := by unfold decodeVector; rw [show w / 16777216 % 256 = 24 from hop]; rfl
  show decodeVector w ⟨none, none⟩ = _
  rw [hm]
  unfold decVexp
  simp only [need, f0, f1, f2, f3, w1, w2, if_true, decide_true, Option.isNone, Option.isSome, Bool.and_self, Option.getD]
  rfl

theorem decodeLane_vexp2 (vd : VDst) (vs1 : VSrc) (rm : BitVec 3)
    (hwf : (decide (vd.toNat < 69) && decide (vs1.toNat < 72)) = true) (w : Nat) (hw : 419430400 + vd.toNat * 131072 + vs1.toNat * 1024 + rm.toNat * 1 = w) :
    decodeLane .v w ⟨none, none⟩ = .ok (.vexp2 vd vs1 rm) := by
  have d0 : w / 2 ^ 0 = (((25 * 2 ^ 7 + vd.toNat) * 2 ^ 7 + vs1.toNat) * 2 ^ 7 + 0) * 2 ^ 3 + rm.toNat := by omega
  have d1 := div_next d0 rm.isLt
  have d2 := div_next d1 (by decide)
  have d3 := div_next d2 vs1.isLt
  have hop := congrArg (· % 256) (div_next d3 vd.isLt)
  have f0 : fld 7 17 w = vd := fld_at d3
  have f1 : fld 7 10 w = vs1 := fld_at d2
  have f2 : fld 3 0 w = rm := fld_at d0
  have f3 : fld 7 3 w = 0#7 := fld_num d1
  clear hw d0 d1 d2 d3
  simp only [Bool.and_eq_true] at hwf
  obtain ⟨w1, w2⟩ := hwf
  have hm : decodeVector w ⟨none, none⟩ = (decVexp2 w ⟨none, none⟩) := by unfold decodeVector; rw [show w / 16777216 % 256 = 25 from hop]; rfl
  show decodeVector w ⟨none, none⟩ = _
  rw [hm]
  unfold decVexp2
  simp only [need, f0, f1, f2, f3, w1, w2, if_true, decide_true, Option.isNone, Option.isSome, Bool.and_self, Option.getD]
  rfl

theorem decodeLane_vlog (vd : VDst) (vs1 : VSrc) (rm : BitVec 3)
    (hwf : (decide (vd.toNat < 69) && decide (vs1.toNat < 72)) = true) (w : Nat) (hw : 436207616 + vd.toNat * 131072 + vs1.toNat * 1024 + rm.toNat * 1 = w) :
    decodeLane .v w ⟨none, none⟩ = .ok (.vlog vd vs1 rm) := by
  have d0 : w / 2 ^ 0 = (((26 * 2 ^ 7 + vd.toNat) * 2 ^ 7 + vs1.toNat) * 2 ^ 7 + 0) * 2 ^ 3 + rm.toNat := by omega
  have d1 := div_next d0 rm.isLt
  have d2 := div_next d1 (by decide)
  have d3 := div_next d2 vs1.isLt
  have hop := congrArg (· % 256) (div_next d3 vd.isLt)
  have f0 : fld 7 17 w = vd := fld_at d3
  have f1 : fld 7 10 w = vs1 := fld_at d2
  have f2 : fld 3 0 w = rm := fld_at d0
  have f3 : fld 7 3 w = 0#7 := fld_num d1
  clear hw d0 d1 d2 d3
  simp only [Bool.and_eq_true] at hwf
  obtain ⟨w1, w2⟩ := hwf
  have hm : decodeVector w ⟨none, none⟩ = (decVlog w ⟨none, none⟩) := by unfold decodeVector; rw [show w / 16777216 % 256 = 26 from hop]; rfl
  show decodeVector w ⟨none, none⟩ = _
  rw [hm]
  unfold decVlog
  simp only [need, f0, f1, f2, f3, w1, w2, if_true, decide_true, Option.isNone, Option.isSome, Bool.and_self, Option.getD]
  rfl

theorem decodeLane_vlog2 (vd : VDst) (vs1 : VSrc) (rm : BitVec 3)
    (hwf : (decide (vd.toNat < 69) && decide (vs1.toNat < 72)) = true) (w : Nat) (hw : 452984832 + vd.toNat * 131072 + vs1.toNat * 1024 + rm.toNat * 1 = w) :
    decodeLane .v w ⟨none, none⟩ = .ok (.vlog2 vd vs1 rm) := by
  have d0 : w / 2 ^ 0 = (((27 * 2 ^ 7 + vd.toNat) * 2 ^ 7 + vs1.toNat) * 2 ^ 7 + 0) * 2 ^ 3 + rm.toNat := by omega
  have d1 := div_next d0 rm.isLt
  have d2 := div_next d1 (by decide)
  have d3 := div_next d2 vs1.isLt
  have hop := congrArg (· % 256) (div_next d3 vd.isLt)
  have f0 : fld 7 17 w = vd := fld_at d3
  have f1 : fld 7 10 w = vs1 := fld_at d2
  have f2 : fld 3 0 w = rm := fld_at d0
  have f3 : fld 7 3 w = 0#7 := fld_num d1
  clear hw d0 d1 d2 d3
  simp only [Bool.and_eq_true] at hwf
  obtain ⟨w1, w2⟩ := hwf
  have hm : decodeVector w ⟨none, none⟩ = (decVlog2 w ⟨none, none⟩) := by unfold decodeVector; rw [show w / 16777216 % 256 = 27 from hop]; rfl
  show decodeVector w ⟨none, none⟩ = _
  rw [hm]
  unfold decVlog2
  simp only [need, f0, f1, f2, f3, w1, w2, if_true, decide_true, Option.isNone, Option.isSome, Bool.and_self, Option.getD]
  rfl

theorem decodeLane_vsin (vd : VDst) (vs1 : VSrc) (rm : BitVec 3)
    (hwf : (decide (vd.toNat < 69) && decide (vs1.toNat < 72)) = true) (w : Nat) (hw : 469762048 + vd.toNat * 131072 + vs1.toNat * 1024 + rm.toNat * 1 = w) :
    decodeLane .v w ⟨none, none⟩ = .ok (.vsin vd vs1 rm) := by
  have d0 : w / 2 ^ 0 = (((28 * 2 ^ 7 + vd.toNat) * 2 ^ 7 + vs1.toNat) * 2 ^ 7 + 0) * 2 ^ 3 + rm.toNat := by omega
  have d1 := div_next d0 rm.isLt
  have d2 := div_next d1 (by decide)
  have d3 := div_next d2 vs1.isLt
  have hop := congrArg (· % 256) (div_next d3 vd.isLt)
  have f0 : fld 7 17 w = vd := fld_at d3
  have f1 : fld 7 10 w = vs1 := fld_at d2
  have f2 : fld 3 0 w = rm := fld_at d0
  have f3 : fld 7 3 w = 0#7 := fld_num d1
  clear hw d0 d1 d2 d3
  simp only [Bool.and_eq_true] at hwf
  obtain ⟨w1, w2⟩ := hwf
  have hm : decodeVector w ⟨none, none⟩ = (decVsin w ⟨none, none⟩) := by unfold decodeVector; rw [show w / 16777216 % 256 = 28 from hop]; rfl
  show decodeVector w ⟨none, none⟩ = _
  rw [hm]
  unfold decVsin
  simp only [need, f0, f1, f2, f3, w1, w2, if_true, decide_true, Option.isNone, Option.isSome, Bool.and_self, Option.getD]
  rfl

theorem decodeLane_vcos (vd : VDst) (vs1 : VSrc) (rm : BitVec 3)
    (hwf : (decide (vd.toNat < 69) && decide (vs1.toNat < 72)) = true) (w : Nat) (hw : 486539264 + vd.toNat * 131072 + vs1.toNat * 1024 + rm.toNat * 1 = w) :
    decodeLane .v w ⟨none, none⟩ = .ok (.vcos vd vs1 rm) := by
  have d0 : w / 2 ^ 0 = (((29 * 2 ^ 7 + vd.toNat) * 2 ^ 7 + vs1.toNat) * 2 ^ 7 + 0) * 2 ^ 3 + rm.toNat := by omega
  have d1 := div_next d0 rm.isLt
  have d2 := div_next d1 (by decide)
  have d3 := div_next d2 vs1.isLt
  have hop := congrArg (· % 256) (div_next d3 vd.isLt)
  have f0 : fld 7 17 w = vd := fld_at d3
  have f1 : fld 7 10 w = vs1 := fld_at d2
  have f2 : fld 3 0 w = rm := fld_at d0
  have f3 : fld 7 3 w = 0#7 := fld_num d1
  clear hw d0 d1 d2 d3
  simp only [Bool.and_eq_true] at hwf
  obtain ⟨w1, w2⟩ := hwf
  have hm : decodeVector w ⟨none, none⟩ = (decVcos w ⟨none, none⟩) := by unfold decodeVector; rw [show w / 16777216 % 256 = 29 from hop]; rfl
  show decodeVector w ⟨none, none⟩ = _
  rw [hm]
  unfold decVcos
  simp only [need, f0, f1, f2, f3, w1, w2, if_true, decide_true, Option.isNone, Option.isSome, Bool.and_self, Option.getD]
  rfl

theorem decodeLane_vtanh (vd : VDst) (vs1 : VSrc) (rm : BitVec 3)
    (hwf : (decide (vd.toNat < 69) && decide (vs1.toNat < 72)) = true) (w : Nat) (hw : 503316480 + vd.toNat * 131072 + vs1.toNat * 1024 + rm.toNat * 1 = w) :
    decodeLane .v w ⟨none, none⟩ = .ok (.vtanh vd vs1 rm) := by
  have d0 : w / 2 ^ 0 = (((30 * 2 ^ 7 + vd.toNat) * 2 ^ 7 + vs1.toNat) * 2 ^ 7 + 0) * 2 ^ 3 + rm.toNat := by omega
  have d1 := div_next d0 rm.isLt
  have d2 := div_next d1 (by decide)
  have d3 := div_next d2 vs1.isLt
  have hop := congrArg (· % 256) (div_next d3 vd.isLt)
  have f0 : fld 7 17 w = vd := fld_at d3
  have f1 : fld 7 10 w = vs1 := fld_at d2
  have f2 : fld 3 0 w = rm := fld_at d0
  have f3 : fld 7 3 w = 0#7 := fld_num d1
  clear hw d0 d1 d2 d3
  simp only [Bool.and_eq_true] at hwf
  obtain ⟨w1, w2⟩ := hwf
  have hm : decodeVector w ⟨none, none⟩ = (decVtanh w ⟨none, none⟩) := by unfold decodeVector; rw [show w / 16777216 % 256 = 30 from hop]; rfl
  show decodeVector w ⟨none, none⟩ = _
  rw [hm]
  unfold decVtanh
  simp only [need, f0, f1, f2, f3, w1, w2, if_true, decide_true, Option.isNone, Option.isSome, Bool.and_self, Option.getD]
  rfl

theorem decodeLane_verf (vd : VDst) (vs1 : VSrc) (rm : BitVec 3)
    (hwf : (decide (vd.toNat < 69) && decide (vs1.toNat < 72)) = true) (w : Nat) (hw : 520093696 + vd.toNat * 131072 + vs1.toNat * 1024 + rm.toNat * 1 = w) :
    decodeLane .v w ⟨none, none⟩ = .ok (.verf vd vs1 rm) := by
  have d0 : w / 2 ^ 0 = (((31 * 2 ^ 7 + vd.toNat) * 2 ^ 7 + vs1.toNat) * 2 ^ 7 + 0) * 2 ^ 3 + rm.toNat := by omega
  have d1 := div_next d0 rm.isLt
  have d2 := div_next d1 (by decide)
  have d3 := div_next d2 vs1.isLt
  have hop := congrArg (· % 256) (div_next d3 vd.isLt)
  have f0 : fld 7 17 w = vd := fld_at d3
  have f1 : fld 7 10 w = vs1 := fld_at d2
  have f2 : fld 3 0 w = rm := fld_at d0
  have f3 : fld 7 3 w = 0#7 := fld_num d1
  clear hw d0 d1 d2 d3
  simp only [Bool.and_eq_true] at hwf
  obtain ⟨w1, w2⟩ := hwf
  have hm : decodeVector w ⟨none, none⟩ = (decVerf w ⟨none, none⟩) := by unfold decodeVector; rw [show w / 16777216 % 256 = 31 from hop]; rfl
  show decodeVector w ⟨none, none⟩ = _
  rw [hm]
  unfold decVerf
  simp only [need, f0, f1, f2, f3, w1, w2, if_true, decide_true, Option.isNone, Option.isSome, Bool.and_self, Option.getD]
  rfl

theorem decodeLane_vrcp (vd : VDst) (vs1 : VSrc) (rm : BitVec 3)
    (hwf : (decide (vd.toNat < 69) && decide (vs1.toNat < 72)) = true) (w : Nat) (hw : 536870912 + vd.toNat * 131072 + vs1.toNat * 1024 + rm.toNat * 1 = w) :
    decodeLane .v w ⟨none, none⟩ = .ok (.vrcp vd vs1 rm) := by
  have d0 : w / 2 ^ 0 = (((32 * 2 ^ 7 + vd.toNat) * 2 ^ 7 + vs1.toNat) * 2 ^ 7 + 0) * 2 ^ 3 + rm.toNat := by omega
  have d1 := div_next d0 rm.isLt
  have d2 := div_next d1 (by decide)
  have d3 := div_next d2 vs1.isLt
  have hop := congrArg (· % 256) (div_next d3 vd.isLt)
  have f0 : fld 7 17 w = vd := fld_at d3
  have f1 : fld 7 10 w = vs1 := fld_at d2
  have f2 : fld 3 0 w = rm := fld_at d0
  have f3 : fld 7 3 w = 0#7 := fld_num d1
  clear hw d0 d1 d2 d3
  simp only [Bool.and_eq_true] at hwf
  obtain ⟨w1, w2⟩ := hwf
  have hm : decodeVector w ⟨none, none⟩ = (decVrcp w ⟨none, none⟩) := by unfold decodeVector; rw [show w / 16777216 % 256 = 32 from hop]; rfl
  show decodeVector w ⟨none, none⟩ = _
  rw [hm]
  unfold decVrcp
  simp only [need, f0, f1, f2, f3, w1, w2, if_true, decide_true, Option.isNone, Option.isSome, Bool.and_self, Option.getD]
  rfl

theorem decodeLane_vrsqrt (vd : VDst) (vs1 : VSrc) (rm : BitVec 3)
    (hwf : (decide (vd.toNat < 69) && decide (vs1.toNat < 72)) = true) (w : Nat) (hw : 553648128 + vd.toNat * 131072 + vs1.toNat * 1024 + rm.toNat * 1 = w) :
    decodeLane .v w ⟨none, none⟩ = .ok (.vrsqrt vd vs1 rm) := by
  have d0 : w / 2 ^ 0 = (((33 * 2 ^ 7 + vd.toNat) * 2 ^ 7 + vs1.toNat) * 2 ^ 7 + 0) * 2 ^ 3 + rm.toNat := by omega
  have d1 := div_next d0 rm.isLt
  have d2 := div_next d1 (by decide)
  have d3 := div_next d2 vs1.isLt
  have hop := congrArg (· % 256) (div_next d3 vd.isLt)
  have f0 : fld 7 17 w = vd := fld_at d3
  have f1 : fld 7 10 w = vs1 := fld_at d2
  have f2 : fld 3 0 w = rm := fld_at d0
  have f3 : fld 7 3 w = 0#7 := fld_num d1
  clear hw d0 d1 d2 d3
  simp only [Bool.and_eq_true] at hwf
  obtain ⟨w1, w2⟩ := hwf
  have hm : decodeVector w ⟨none, none⟩ = (decVrsqrt w ⟨none, none⟩) := by unfold decodeVector; rw [show w / 16777216 % 256 = 33 from hop]; rfl
  show decodeVector w ⟨none, none⟩ = _
  rw [hm]
  unfold decVrsqrt
  simp only [need, f0, f1, f2, f3, w1, w2, if_true, decide_true, Option.isNone, Option.isSome, Bool.and_self, Option.getD]
  rfl

theorem decodeLane_vcvt (vd : VDst) (vs1 : VSrc) (part : BitVec 3) (t : BitVec 4) (rm : BitVec 3)
    (hwf : (decide (vd.toNat < 69) && decide (vs1.toNat < 72) && decide (t.toNat ≤ 10)) = true) (w : Nat) (hw : 570425344 + vd.toNat * 131072 + vs1.toNat * 1024 + part.toNat * 128 + t.toNat * 8 + rm.toNat * 1 = w) :
    decodeLane .v w ⟨none, none⟩ = .ok (.vcvt vd vs1 part t rm) := by
  have d0 : w / 2 ^ 0 = ((((34 * 2 ^ 7 + vd.toNat) * 2 ^ 7 + vs1.toNat) * 2 ^ 3 + part.toNat) * 2 ^ 4 + t.toNat) * 2 ^ 3 + rm.toNat := by omega
  have d1 := div_next d0 rm.isLt
  have d2 := div_next d1 t.isLt
  have d3 := div_next d2 part.isLt
  have d4 := div_next d3 vs1.isLt
  have hop := congrArg (· % 256) (div_next d4 vd.isLt)
  have f0 : fld 7 17 w = vd := fld_at d4
  have f1 : fld 7 10 w = vs1 := fld_at d3
  have f2 : fld 3 7 w = part := fld_at d2
  have f3 : fld 4 3 w = t := fld_at d1
  have f4 : fld 3 0 w = rm := fld_at d0
  clear hw d0 d1 d2 d3 d4
  simp only [Bool.and_eq_true] at hwf
  obtain ⟨⟨w1, w2⟩, w3⟩ := hwf
  have hm : decodeVector w ⟨none, none⟩ = (decVcvt w ⟨none, none⟩) := by unfold decodeVector; rw [show w / 16777216 % 256 = 34 from hop]; rfl
  show decodeVector w ⟨none, none⟩ = _
  rw [hm]
  unfold decVcvt
  simp only [need, f0, f1, f2, f3, f4, w1, w2, w3, if_true, decide_true, Option.isNone, Option.isSome, Bool.and_self, Option.getD]
  rfl

theorem decodeLane_vscale (vd : VDst) (vs1 : VSrc) (val : BitVec 8)
    (hwf : (decide (vd.toNat < 69) && decide (vs1.toNat < 72)) = true) (w : Nat) (hw : 587202560 + vd.toNat * 131072 + vs1.toNat * 1024 + val.toNat * 1 = w) :
    decodeLane .v w ⟨none, none⟩ = .ok (.vscale vd vs1 val) := by
  have d0 : w / 2 ^ 0 = ((((35 * 2 ^ 7 + vd.toNat) * 2 ^ 7 + vs1.toNat) * 2 ^ 1 + 0) * 2 ^ 1 + 0) * 2 ^ 8 + val.toNat := by omega
  have d1 := div_next d0 val.isLt
  have d2 := div_next d1 (by decide)
  have d3 := div_next d2 (by decide)
  have d4 := div_next d3 vs1.isLt
  have hop := congrArg (· % 256) (div_next d4 vd.isLt)
  have f0 : fld 7 17 w = vd := fld_at d4
  have f1 : fld 7 10 w = vs1 := fld_at d3
  have f2 : fld 8 0 w = val := fld_at d0
  have f3 : fld 1 9 w = 0#1 := fld_num d2
  have f4 : fld 1 8 w = 0#1 := fld_num d1
  clear hw d0 d1 d2 d3 d4
  simp only [Bool.and_eq_true] at hwf
  obtain ⟨w1, w2⟩ := hwf
  have hm : decodeVector w ⟨none, none⟩ = (if fld 1 8 w = 0#1 then decVscale w ⟨none, none⟩ else decVscaleAdd w ⟨none, none⟩) := by unfold decodeVector; rw [show w / 16777216 % 256 = 35 from hop]; rfl
  show decodeVector w ⟨none, none⟩ = _
  rw [hm]
  simp only [f3, f4, if_true, reduceCtorEq, Option.isSome, Bool.false_eq_true, if_false, BitVec.reduceEq, ↓reduceIte]
  unfold decVscale
  simp only [need, f0, f1, f2, f3, f4, w1, w2, if_true, decide_true, Option.isNone, Option.isSome, Bool.and_self, Option.getD]
  rfl

theorem decodeLane_vscaleAdd (vd : VDst) (vs1 : VSrc) (val : BitVec 8)
    (hwf : (decide (vd.toNat < 69) && decide (vs1.toNat < 72)) = true) (w : Nat) (hw : 587202816 + vd.toNat * 131072 + vs1.toNat * 1024 + val.toNat * 1 = w) :
    decodeLane .v w ⟨none, none⟩ = .ok (.vscaleAdd vd vs1 val) := by
  have d0 : w / 2 ^ 0 = ((((35 * 2 ^ 7 + vd.toNat) * 2 ^ 7 + vs1.toNat) * 2 ^ 1 + 0) * 2 ^ 1 + 1) * 2 ^ 8 + val.toNat := by omega
  have d1 := div_next d0 val.isLt
  have d2 := div_next d1 (by decide)
  have d3 := div_next d2 (by decide)
  have d4 := div_next d3 vs1.isLt
  have hop := congrArg (· % 256) (div_next d4 vd.isLt)
  have f0 : fld 7 17 w = vd := fld_at d4
  have f1 : fld 7 10 w = vs1 := fld_at d3
  have f2 : fld 8 0 w = val := fld_at d0
  have f3 : fld 1 9 w = 0#1 := fld_num d2
  have f4 : fld 1 8 w = 1#1 := fld_num d1
  clear hw d0 d1 d2 d3 d4
  simp only [Bool.and_eq_true] at hwf
  obtain ⟨w1, w2⟩ := hwf
  have hm : decodeVector w ⟨none, none⟩ = (if fld 1 8 w = 0#1 then decVscale w ⟨none, none⟩ else decVscaleAdd w ⟨none, none⟩) := by unfold decodeVector; rw [show w / 16777216 % 256 = 35 from hop]; rfl
  show decodeVector w ⟨none, none⟩ = _
  rw [hm]
  simp only [f3, f4, if_true, reduceCtorEq, Option.isSome, Bool.false_eq_true, if_false, BitVec.reduceEq, ↓reduceIte]
  unfold decVscaleAdd
  simp only [need, f0, f1, f2, f3, f4, w1, w2, if_true, decide_true, Option.isNone, Option.isSome, Bool.and_self, Option.getD]
  rfl

theorem decodeLane_vtag (vd : VDst) (vs1 : VSrc) (fmt : BitVec 7)
    (hwf : (decide (vd.toNat < 69) && decide (vs1.toNat < 72)) = true) (w : Nat) (hw : 603979776 + vd.toNat * 131072 + vs1.toNat * 1024 + fmt.toNat * 1 = w) :
    decodeLane .v w ⟨none, none⟩ = .ok (.vtag vd vs1 fmt) := by
  have d0 : w / 2 ^ 0 = (((36 * 2 ^ 7 + vd.toNat) * 2 ^ 7 + vs1.toNat) * 2 ^ 3 + 0) * 2 ^ 7 + fmt.toNat := by omega
  have d1 := div_next d0 fmt.isLt
  have d2 := div_next d1 (by decide)
  have d3 := div_next d2 vs1.isLt
  have hop := congrArg (· % 256) (div_next d3 vd.isLt)
  have f0 : fld 7 17 w = vd := fld_at d3
  have f1 : fld 7 10 w = vs1 := fld_at d2
  have f2 : fld 7 0 w = fmt := fld_at d0
  have f3 : fld 3 7 w = 0#3 := fld_num d1
  clear hw d0 d1 d2 d3
  simp only [Bool.and_eq_true] at hwf
  obtain ⟨w1, w2⟩ := hwf
  have hm : decodeVector w ⟨none, none⟩ = (decVtag w ⟨none, none⟩) := by unfold decodeVector; rw [show w / 16777216 % 256 = 36 from hop]; rfl
  show decodeVector w ⟨none, none⟩ = _
  rw [hm]
  unfold decVtag
  simp only [need, f0, f1, f2, f3, w1, w2, if_true, decide_true, Option.isNone, Option.isSome, Bool.and_self, Option.getD]
  rfl

theorem decodeLane_vseed (xs : CSrc)
    (hwf : (decide (xs.toNat < 32)) = true) (w : Nat) (hw : 620756992 + xs.toNat * 1024 = w) :
    decodeLane .v w ⟨none, none⟩ = .ok (.vseed xs) := by
  have d0 : w / 2 ^ 0 = ((37 * 2 ^ 8 + 0) * 2 ^ 6 + xs.toNat) * 2 ^ 10 + 0 := by omega
  have d1 := div_next d0 (by decide)
  have d2 := div_next d1 xs.isLt
  have hop := congrArg (· % 256) (div_next d2 (by decide))
  have f0 : fld 6 10 w = xs := fld_at d1
  have f1 : fld 10 0 w = 0#10 := fld_num d0
  have f2 : fld 8 16 w = 0#8 := fld_num d2
  clear hw d0 d1 d2
  have hm : decodeVector w ⟨none, none⟩ = (decVseed w ⟨none, none⟩) := by unfold decodeVector; rw [show w / 16777216 % 256 = 37 from hop]; rfl
  show decodeVector w ⟨none, none⟩ = _
  rw [hm]
  unfold decVseed
  simp only [need, f0, f1, f2, hwf, if_true, decide_true, Option.isNone, Option.isSome, Bool.and_self, Option.getD]
  rfl

theorem decodeLane_vunt5 (vd : VDst) (vs1 : VSrc) (chk : Bool) (part : BitVec 3)
    (hwf : (decide (vd.toNat < 69) && decide (vs1.toNat < 72)) = true) (w : Nat) (hw : 637534208 + vd.toNat * 131072 + vs1.toNat * 1024 + chk.toNat * 64 + part.toNat * 8 = w) :
    decodeLane .v w ⟨none, none⟩ = .ok (.vunt5 vd vs1 chk part) := by
  have d0 : w / 2 ^ 0 = (((((38 * 2 ^ 7 + vd.toNat) * 2 ^ 7 + vs1.toNat) * 2 ^ 3 + 0) * 2 ^ 1 + chk.toNat) * 2 ^ 3 + part.toNat) * 2 ^ 3 + 0 := by omega
  have d1 := div_next d0 (by decide)
  have d2 := div_next d1 part.isLt
  have d3 := div_next d2 (Bool.toNat_lt chk)
  have d4 := div_next d3 (by decide)
  have d5 := div_next d4 vs1.isLt
  have hop := congrArg (· % 256) (div_next d5 vd.isLt)
  have f0 : fld 7 17 w = vd := fld_at d5
  have f1 : fld 7 10 w = vs1 := fld_at d4
  have f2 : decide (fld 1 6 w = 1#1) = chk := fld_bool (mod_at d2 (Bool.toNat_lt chk))
  have f3 : fld 3 3 w = part := fld_at d1
  have f4 : fld 3 0 w = 0#3 := fld_num d0
  have f5 : fld 3 7 w = 0#3 := fld_num d3
  clear hw d0 d1 d2 d3 d4 d5
  simp only [Bool.and_eq_true] at hwf
  obtain ⟨w1, w2⟩ := hwf
  have hm : decodeVector w ⟨none, none⟩ = (decVunt5 w ⟨none, none⟩) := by unfold decodeVector; rw [show w / 16777216 % 256 = 38 from hop]; rfl
  show decodeVector w ⟨none, none⟩ = _
  rw [hm]
  unfold decVunt5
  simp only [need, f0, f1, f2, f3, f4, f5, w1, w2, if_true, decide_true, Option.isNone, Option.isSome, Bool.and_self, Option.getD]
  rfl

theorem decodeLane_vun4o (vd : VDst) (vs1 : VSrc) (part : BitVec 3) (t : BitVec 4) (rm : BitVec 3)
    (hwf : (decide (vd.toNat < 69) && decide (vs1.toNat < 72) && decide (t.toNat ≤ 3)) = true) (w : Nat) (hw : 654311424 + vd.toNat * 131072 + vs1.toNat * 1024 + part.toNat * 128 + t.toNat * 8 + rm.toNat * 1 = w) :
    decodeLane .v w ⟨none, none⟩ = .ok (.vun4o vd vs1 part t rm) := by
  have d0 : w / 2 ^ 0 = ((((39 * 2 ^ 7 + vd.toNat) * 2 ^ 7 + vs1.toNat) * 2 ^ 3 + part.toNat) * 2 ^ 4 + t.toNat) * 2 ^ 3 + rm.toNat := by omega
  have d1 := div_next d0 rm.isLt
  have d2 := div_next d1 t.isLt
  have d3 := div_next d2 part.isLt
  have d4 := div_next d3 vs1.isLt
  have hop := congrArg (· % 256) (div_next d4 vd.isLt)
  have f0 : fld 7 17 w = vd := fld_at d4
  have f1 : fld 7 10 w = vs1 := fld_at d3
  have f2 : fld 3 7 w = part := fld_at d2
  have f3 : fld 4 3 w = t := fld_at d1
  have f4 : fld 3 0 w = rm := fld_at d0
  clear hw d0 d1 d2 d3 d4
  simp only [Bool.and_eq_true] at hwf
  obtain ⟨⟨w1, w2⟩, w3⟩ := hwf
  have hm : decodeVector w ⟨none, none⟩ = (decVun4o w ⟨none, none⟩) := by unfold decodeVector; rw [show w / 16777216 % 256 = 39 from hop]; rfl
  show decodeVector w ⟨none, none⟩ = _
  rw [hm]
  unfold decVun4o
  simp only [need, f0, f1, f2, f3, f4, w1, w2, w3, if_true, decide_true, Option.isNone, Option.isSome, Bool.and_self, Option.getD]
  rfl

theorem decodeLane_vpk (vd : VDst) (vs1 : VSrc) (part : BitVec 4) (t : BitVec 3) (rm : BitVec 3)
    (hwf : (decide (vd.toNat < 69) && decide (vs1.toNat < 72) && decide (t.toNat ≤ 2)) = true) (w : Nat) (hw : 671088640 + vd.toNat * 131072 + vs1.toNat * 1024 + part.toNat * 64 + t.toNat * 8 + rm.toNat * 1 = w) :
    decodeLane .v w ⟨none, none⟩ = .ok (.vpk vd vs1 part t rm) := by
  have d0 : w / 2 ^ 0 = ((((40 * 2 ^ 7 + vd.toNat) * 2 ^ 7 + vs1.toNat) * 2 ^ 4 + part.toNat) * 2 ^ 3 + t.toNat) * 2 ^ 3 + rm.toNat := by omega
  have d1 := div_next d0 rm.isLt
  have d2 := div_next d1 t.isLt
  have d3 := div_next d2 part.isLt
  have d4 := div_next d3 vs1.isLt
  have hop := congrArg (· % 256) (div_next d4 vd.isLt)
  have f0 : fld 7 17 w = vd := fld_at d4
  have f1 : fld 7 10 w = vs1 := fld_at d3
  have f2 : fld 4 6 w = part := fld_at d2
  have f3 : fld 3 3 w = t := fld_at d1
  have f4 : fld 3 0 w = rm := fld_at d0
  clear hw d0 d1 d2 d3 d4
  simp only [Bool.and_eq_true] at hwf
  obtain ⟨⟨w1, w2⟩, w3⟩ := hwf
  have hm : decodeVector w ⟨none, none⟩ = (decVpk w ⟨none, none⟩) := by unfold decodeVector; rw [show w / 16777216 % 256 = 40 from hop]; rfl
  show decodeVector w ⟨none, none⟩ = _
  rw [hm]
  unfold decVpk
  simp only [need, f0, f1, f2, f3, f4, w1, w2, w3, if_true, decide_true, Option.isNone, Option.isSome, Bool.and_self, Option.getD]
  rfl

theorem decodeLane_vtadd (vd : VDst) (vs1 : VSrc) (vs2 : VSrc) (rm : BitVec 3)
    (hwf : (decide (vd.toNat < 69) && decide (vs1.toNat < 72) && decide (vs2.toNat < 72)) = true) (w : Nat) (hw : 687865856 + vd.toNat * 131072 + vs1.toNat * 1024 + vs2.toNat * 8 + rm.toNat * 1 = w) :
    decodeLane .v w ⟨none, none⟩ = .ok (.vtadd vd vs1 vs2 rm) := by
  have d0 : w / 2 ^ 0 = (((41 * 2 ^ 7 + vd.toNat) * 2 ^ 7 + vs1.toNat) * 2 ^ 7 + vs2.toNat) * 2 ^ 3 + rm.toNat := by omega
  have d1 := div_next d0 rm.isLt
  have d2 := div_next d1 vs2.isLt
  have d3 := div_next d2 vs1.isLt
  have hop := congrArg (· % 256) (div_next d3 vd.isLt)
  have f0 : fld 7 17 w = vd := fld_at d3
  have f1 : fld 7 10 w = vs1 := fld_at d2
  have f2 : fld 7 3 w = vs2 := fld_at d1
  have f3 : fld 3 0 w = rm := fld_at d0
  clear hw d0 d1 d2 d3
  simp only [Bool.and_eq_true] at hwf
  obtain ⟨⟨w1, w2⟩, w3⟩ := hwf
  have hm : decodeVector w ⟨none, none⟩ = (decVtadd w ⟨none, none⟩) := by unfold decodeVector; rw [show w / 16777216 % 256 = 41 from hop]; rfl
  show decodeVector w ⟨none, none⟩ = _
  rw [hm]
  unfold decVtadd
  simp only [need, f0, f1, f2, f3, w1, w2, w3, if_true, decide_true, Option.isNone, Option.isSome, Bool.and_self, Option.getD]
  rfl

theorem decodeLane_vrsum (vd : VDst) (vs1 : VSrc) (rm : BitVec 3)
    (hwf : (decide (vd.toNat < 69) && decide (vs1.toNat < 72)) = true) (w : Nat) (hw : 704643072 + vd.toNat * 131072 + vs1.toNat * 1024 + rm.toNat * 1 = w) :
    decodeLane .v w ⟨none, none⟩ = .ok (.vrsum vd vs1 rm) := by
  have d0 : w / 2 ^ 0 = (((42 * 2 ^ 7 + vd.toNat) * 2 ^ 7 + vs1.toNat) * 2 ^ 7 + 0) * 2 ^ 3 + rm.toNat := by omega
  have d1 := div_next d0 rm.isLt
  have d2 := div_next d1 (by decide)
  have d3 := div_next d2 vs1.isLt
  have hop := congrArg (· % 256) (div_next d3 vd.isLt)
  have f0 : fld 7 17 w = vd := fld_at d3
  have f1 : fld 7 10 w = vs1 := fld_at d2
  have f2 : fld 3 0 w = rm := fld_at d0
  have f3 : fld 7 3 w = 0#7 := fld_num d1
  clear hw d0 d1 d2 d3
  simp only [Bool.and_eq_true] at hwf
  obtain ⟨w1, w2⟩ := hwf
  have hm : decodeVector w ⟨none, none⟩ = (decVrsum w ⟨none, none⟩) := by unfold decodeVector; rw [show w / 16777216 % 256 = 42 from hop]; rfl
  show decodeVector w ⟨none, none⟩ = _
  rw [hm]
  unfold decVrsum
  simp only [need, f0, f1, f2, f3, w1, w2, if_true, decide_true, Option.isNone, Option.isSome, Bool.and_self, Option.getD]
  rfl

theorem decodeLane_vrmax (vd : VDst) (vs1 : VSrc)
    (hwf : (decide (vd.toNat < 69) && decide (vs1.toNat < 72)) = true) (w : Nat) (hw : 721420288 + vd.toNat * 131072 + vs1.toNat * 1024 = w) :
    decodeLane .v w ⟨none, none⟩ = .ok (.vrmax vd vs1) := by
  have d0 : w / 2 ^ 0 = ((43 * 2 ^ 7 + vd.toNat) * 2 ^ 7 + vs1.toNat) * 2 ^ 10 + 0 := by omega
  have d1 := div_next d0 (by decide)
  have d2 := div_next d1 vs1.isLt
  have hop := congrArg (· % 256) (div_next d2 vd.isLt)
  have f0 : fld 7 17 w = vd := fld_at d2
  have f1 : fld 7 10 w = vs1 := fld_at d1
  have f2 : fld 10 0 w = 0#10 := fld_num d0
  clear hw d0 d1 d2
  simp only [Bool.and_eq_true] at hwf
  obtain ⟨w1, w2⟩ := hwf
  have hm : decodeVector w ⟨none, none⟩ = (decVrmax w ⟨none, none⟩) := by unfold decodeVector; rw [show w / 16777216 % 256 = 43 from hop]; rfl
  show decodeVector w ⟨none, none⟩ = _
  rw [hm]
  unfold decVrmax
  simp only [need, f0, f1, f2, w1, w2, if_true, decide_true, Option.isNone, Option.isSome, Bool.and_self, Option.getD]
  rfl

theorem decodeLane_vrmin (vd : VDst) (vs1 : VSrc)
    (hwf : (decide (vd.toNat < 69) && decide (vs1.toNat < 72)) = true) (w : Nat) (hw : 738197504 + vd.toNat * 131072 + vs1.toNat * 1024 = w) :
    decodeLane .v w ⟨none, none⟩ = .ok (.vrmin vd vs1) := by
  have d0 : w / 2 ^ 0 = ((44 * 2 ^ 7 + vd.toNat) * 2 ^ 7 + vs1.toNat) * 2 ^ 10 + 0 := by omega
  have d1 := div_next d0 (by decide)
  have d2 := div_next d1 vs1.isLt
  have hop := congrArg (· % 256) (div_next d2 vd.isLt)
  have f0 : fld 7 17 w = vd := fld_at d2
  have f1 : fld 7 10 w = vs1 := fld_at d1
  have f2 : fld 10 0 w = 0#10 := fld_num d0
  clear hw d0 d1 d2
  simp only [Bool.and_eq_true] at hwf
  obtain ⟨w1, w2⟩ := hwf
  have hm : decodeVector w ⟨none, none⟩ = (decVrmin w ⟨none, none⟩) := by unfold decodeVector; rw [show w / 16777216 % 256 = 44 from hop]; rfl
  show decodeVector w ⟨none, none⟩ = _
  rw [hm]
  unfold decVrmin
  simp only [need, f0, f1, f2, w1, w2, if_true, decide_true, Option.isNone, Option.isSome, Bool.and_self, Option.getD]
  rfl

theorem decodeLane_vshuf (vd : VDst) (vs1 : VSrc) (vs2 : VSrc)
    (hwf : (decide (vd.toNat < 69) && decide (vs1.toNat < 72) && decide (vs2.toNat < 72)) = true) (w : Nat) (hw : 805306368 + vd.toNat * 131072 + vs1.toNat * 1024 + vs2.toNat * 8 = w) :
    decodeLane .v w ⟨none, none⟩ = .ok (.vshuf vd vs1 vs2) := by
  have d0 : w / 2 ^ 0 = (((48 * 2 ^ 7 + vd.toNat) * 2 ^ 7 + vs1.toNat) * 2 ^ 7 + vs2.toNat) * 2 ^ 3 + 0 := by omega
  have d1 := div_next d0 (by decide)
  have d2 := div_next d1 vs2.isLt
  have d3 := div_next d2 vs1.isLt
  have hop := congrArg (· % 256) (div_next d3 vd.isLt)
  have f0 : fld 7 17 w = vd := fld_at d3
  have f1 : fld 7 10 w = vs1 := fld_at d2
  have f2 : fld 7 3 w = vs2 := fld_at d1
  have f3 : fld 3 0 w = 0#3 := fld_num d0
  clear hw d0 d1 d2 d3
  simp only [Bool.and_eq_true] at hwf
  obtain ⟨⟨w1, w2⟩, w3⟩ := hwf
  have hm : decodeVector w ⟨none, none⟩ = (decVshuf w ⟨none, none⟩) := by unfold decodeVector; rw [show w / 16777216 % 256 = 48 from hop]; rfl
  show decodeVector w ⟨none, none⟩ = _
  rw [hm]
  unfold decVshuf
  simp only [need, f0, f1, f2, f3, w1, w2, w3, if_true, decide_true, Option.isNone, Option.isSome, Bool.and_self, Option.getD]
  rfl

theorem decodeLane_vslide (vd : VDst) (vs1 : VSrc) (sd : BitVec 10)
    (hwf : (decide (vd.toNat < 69) && decide (vs1.toNat < 72)) = true) (w : Nat) (hw : 822083584 + vd.toNat * 131072 + vs1.toNat * 1024 + sd.toNat * 1 = w) :
    decodeLane .v w ⟨none, none⟩ = .ok (.vslide vd vs1 sd) := by
  have d0 : w / 2 ^ 0 = ((49 * 2 ^ 7 + vd.toNat) * 2 ^ 7 + vs1.toNat) * 2 ^ 10 + sd.toNat := by omega
  have d1 := div_next d0 sd.isLt
  have d2 := div_next d1 vs1.isLt
  have hop := congrArg (· % 256) (div_next d2 vd.isLt)
  have f0 : fld 7 17 w = vd := fld_at d2
  have f1 : fld 7 10 w = vs1 := fld_at d1
  have f2 : fld 10 0 w = sd := fld_at d0
  clear hw d0 d1 d2
  simp only [Bool.and_eq_true] at hwf
  obtain ⟨w1, w2⟩ := hwf
  have hm : decodeVector w ⟨none, none⟩ = (decVslide w ⟨none, none⟩) := by unfold decodeVector; rw [show w / 16777216 % 256 = 49 from hop]; rfl
  show decodeVector w ⟨none, none⟩ = _
  rw [hm]
  unfold decVslide
  simp only [need, f0, f1, f2, w1, w2, if_true, decide_true, Option.isNone, Option.isSome, Bool.and_self, Option.getD]
  rfl

theorem decodeLane_vbcast (vd : VDst) (vs1 : VSrc) (ix : BitVec 8)
    (hwf : (decide (vd.toNat < 69) && decide (vs1.toNat < 72)) = true) (w : Nat) (hw : 838860800 + vd.toNat * 131072 + vs1.toNat * 1024 + ix.toNat * 1 = w) :
    decodeLane .v w ⟨none, none⟩ = .ok (.vbcast vd vs1 ix) := by
  have d0 : w / 2 ^ 0 = (((50 * 2 ^ 7 + vd.toNat) * 2 ^ 7 + vs1.toNat) * 2 ^ 2 + 0) * 2 ^ 8 + ix.toNat := by omega
  have d1 := div_next d0 ix.isLt
  have d2 := div_next d1 (by decide)
  have d3 := div_next d2 vs1.isLt
  have hop := congrArg (· % 256) (div_next d3 vd.isLt)
  have f0 : fld 7 17 w = vd := fld_at d3
  have f1 : fld 7 10 w = vs1 := fld_at d2
  have f2 : fld 8 0 w = ix := fld_at d0
  have f3 : fld 2 8 w = 0#2 := fld_num d1
  clear hw d0 d1 d2 d3
  simp only [Bool.and_eq_true] at hwf
  obtain ⟨w1, w2⟩ := hwf
  have hm : decodeVector w ⟨none, none⟩ = (decVbcast w ⟨none, none⟩) := by unfold decodeVector; rw [show w / 16777216 % 256 = 50 from hop]; rfl
  show decodeVector w ⟨none, none⟩ = _
  rw [hm]
  unfold decVbcast
  simp only [need, f0, f1, f2, f3, w1, w2, if_true, decide_true, Option.isNone, Option.isSome, Bool.and_self, Option.getD]
  rfl

theorem decodeLane_vsplat (vd : VDst) (xs : CSrc) (fmt : BitVec 7)
    (hwf : (decide (vd.toNat < 69) && decide (xs.toNat < 32)) = true) (w : Nat) (hw : 855638016 + vd.toNat * 131072 + xs.toNat * 1024 + fmt.toNat * 1 = w) :
    decodeLane .v w ⟨none, none⟩ = .ok (.vsplat vd xs fmt) := by
  have d0 : w / 2 ^ 0 = ((((51 * 2 ^ 7 + vd.toNat) * 2 ^ 1 + 0) * 2 ^ 6 + xs.toNat) * 2 ^ 3 + 0) * 2 ^ 7 + fmt.toNat := by omega
  have d1 := div_next d0 fmt.isLt
  have d2 := div_next d1 (by decide)
  have d3 := div_next d2 xs.isLt
  have d4 := div_next d3 (by decide)
  have hop := congrArg (· % 256) (div_next d4 vd.isLt)
  have f0 : fld 7 17 w = vd := fld_at d4
  have f1 : fld 6 10 w = xs := fld_at d2
  have f2 : fld 7 0 w = fmt := fld_at d0
  have f3 : fld 3 7 w = 0#3 := fld_num d1
  have f4 : fld 1 16 w = 0#1 := fld_num d3
  clear hw d0 d1 d2 d3 d4
  simp only [Bool.and_eq_true] at hwf
  obtain ⟨w1, w2⟩ := hwf
  have hm : decodeVector w ⟨none, none⟩ = (decVsplat w ⟨none, none⟩) := by unfold decodeVector; rw [show w / 16777216 % 256 = 51 from hop]; rfl
  show decodeVector w ⟨none, none⟩ = _
  rw [hm]
  unfold decVsplat
  simp only [need, f0, f1, f2, f3, f4, w1, w2, if_true, decide_true, Option.isNone, Option.isSome, Bool.and_self, Option.getD]
  rfl

theorem decodeLane_vextr (xd : CReg) (vs1 : VSrc) (ix : BitVec 8)
    (hwf : (decide (vs1.toNat < 72)) = true) (w : Nat) (hw : 872415232 + xd.toNat * 131072 + vs1.toNat * 1024 + ix.toNat * 1 = w) :
    decodeLane .v w ⟨none, none⟩ = .ok (.vextr xd vs1 ix) := by
  have d0 : w / 2 ^ 0 = ((((52 * 2 ^ 2 + 0) * 2 ^ 5 + xd.toNat) * 2 ^ 7 + vs1.toNat) * 2 ^ 2 + 0) * 2 ^ 8 + ix.toNat := by omega
  have d1 := div_next d0 ix.isLt
  have d2 := div_next d1 (by decide)
  have d3 := div_next d2 vs1.isLt
  have d4 := div_next d3 xd.isLt
  have hop := congrArg (· % 256) (div_next d4 (by decide))
  have f0 : fld 5 17 w = xd := fld_at d3
  have f1 : fld 7 10 w = vs1 := fld_at d2
  have f2 : fld 8 0 w = ix := fld_at d0
  have f3 : fld 2 8 w = 0#2 := fld_num d1
  have f4 : fld 2 22 w = 0#2 := fld_num d4
  clear hw d0 d1 d2 d3 d4
  have hm : decodeVector w ⟨none, none⟩ = (decVextr w ⟨none, none⟩) := by unfold decodeVector; rw [show w / 16777216 % 256 = 52 from hop]; rfl
  show decodeVector w ⟨none, none⟩ = _
  rw [hm]
  unfold decVextr
  simp only [need, f0, f1, f2, f3, f4, hwf, if_true, decide_true, Option.isNone, Option.isSome, Bool.and_self, Option.getD]
  rfl

theorem decodeLane_vmov (vd : VDst) (vs1 : VSrc)
    (hwf : (decide (vd.toNat < 69) && decide (vs1.toNat < 72)) = true) (w : Nat) (hw : 889192448 + vd.toNat * 131072 + vs1.toNat * 1024 = w) :
    decodeLane .v w ⟨none, none⟩ = .ok (.vmov vd vs1) := by
  have d0 : w / 2 ^ 0 = ((53 * 2 ^ 7 + vd.toNat) * 2 ^ 7 + vs1.toNat) * 2 ^ 10 + 0 := by omega
  have d1 := div_next d0 (by decide)
  have d2 := div_next d1 vs1.isLt
  have hop := congrArg (· % 256) (div_next d2 vd.isLt)
  have f0 : fld 7 17 w = vd := fld_at d2
  have f1 : fld 7 10 w = vs1 := fld_at d1
  have f2 : fld 10 0 w = 0#10 := fld_num d0
  clear hw d0 d1 d2
  simp only [Bool.and_eq_true] at hwf
  obtain ⟨w1, w2⟩ := hwf
  have hm : decodeVector w ⟨none, none⟩ = (decVmov w ⟨none, none⟩) := by unfold decodeVector; rw [show w / 16777216 % 256 = 53 from hop]; rfl
  show decodeVector w ⟨none, none⟩ = _
  rw [hm]
  unfold decVmov
  simp only [need, f0, f1, f2, w1, w2, if_true, decide_true, Option.isNone, Option.isSome, Bool.and_self, Option.getD]
  rfl

theorem decodeLane_vli (vd : VDst) (imm : Imm 17)
    (hwf : (decide (vd.toNat < 69)) = true) (w : Nat) (hw : 905969664 + vd.toNat * 131072 + imm.low.toNat * 1 = w) :
    decodeLane .v w ⟨imm.high, none⟩ = .ok (.vli vd imm) := by
  have d0 : w / 2 ^ 0 = (54 * 2 ^ 7 + vd.toNat) * 2 ^ 17 + imm.low.toNat := by omega
  have d1 := div_next d0 imm.low.isLt
  have hop := congrArg (· % 256) (div_next d1 vd.isLt)
  have f0 : fld 7 17 w = vd := fld_at d1
  have f1 : fld 17 0 w = imm.low := fld_at d0
  clear hw d0 d1
  have hm : decodeVector w ⟨imm.high, none⟩ = (decVli w ⟨imm.high, none⟩) := by unfold decodeVector; rw [show w / 16777216 % 256 = 54 from hop]; rfl
  show decodeVector w ⟨imm.high, none⟩ = _
  rw [hm]
  unfold decVli
  simp only [need, f0, f1, hwf, if_true, decide_true, Option.isNone, Option.isSome, Bool.and_self, Option.getD]
  rfl

theorem decodeLane_vcmp (vs1 : VSrc) (vs2 : VSrc) (cond : BitVec 3)
    (hwf : (decide (vs1.toNat < 72) && decide (vs2.toNat < 72) && decide (cond.toNat ≤ 6)) = true) (w : Nat) (hw : 939524096 + vs1.toNat * 131072 + vs2.toNat * 1024 + cond.toNat * 1 = w) :
    decodeLane .v w ⟨none, none⟩ = .ok (.vcmp vs1 vs2 cond) := by
  have d0 : w / 2 ^ 0 = (((56 * 2 ^ 7 + vs1.toNat) * 2 ^ 7 + vs2.toNat) * 2 ^ 7 + 0) * 2 ^ 3 + cond.toNat := by omega
  have d1 := div_next d0 cond.isLt
  have d2 := div_next d1 (by decide)
  have d3 := div_next d2 vs2.isLt
  have hop := congrArg (· % 256) (div_next d3 vs1.isLt)
  have f0 : fld 7 17 w = vs1 := fld_at d3
  have f1 : fld 7 10 w = vs2 := fld_at d2
  have f2 : fld 3 0 w = cond := fld_at d0
  have f3 : fld 7 3 w = 0#7 := fld_num d1
  clear hw d0 d1 d2 d3
  simp only [Bool.and_eq_true] at hwf
  obtain ⟨⟨w1, w2⟩, w3⟩ := hwf
  have hm : decodeVector w ⟨none, none⟩ = (decVcmp w ⟨none, none⟩) := by unfold decodeVector; rw [show w / 16777216 % 256 = 56 from hop]; rfl
  show decodeVector w ⟨none, none⟩ = _
  rw [hm]
  unfold decVcmp
  simp only [need, f0, f1, f2, f3, w1, w2, w3, if_true, decide_true, Option.isNone, Option.isSome, Bool.and_self, Option.getD]
  rfl

theorem decodeLane_vminv
    (hwf : (true) = true) (w : Nat) (hw : 956301312 = w) :
    decodeLane .v w ⟨none, none⟩ = .ok (.vminv) := by
  have d0 : w / 2 ^ 0 = 57 * 2 ^ 24 + 0 := by omega
  have hop := congrArg (· % 256) (div_next d0 (by decide))
  have f0 : fld 24 0 w = 0#24 := fld_num d0
  clear hw d0
  have hm : decodeVector w ⟨none, none⟩ = (decVminv w ⟨none, none⟩) := by unfold decodeVector; rw [show w / 16777216 % 256 = 57 from hop]; rfl
  show decodeVector w ⟨none, none⟩ = _
  rw [hm]
  unfold decVminv
  simp only [need, f0, if_true, decide_true, Option.isNone, Option.isSome, Bool.and_self, Option.getD]
  rfl

theorem decodeLane_vmpop (n : BitVec 4)
    (hwf : (true) = true) (w : Nat) (hw : 973078528 + n.toNat * 1 = w) :
    decodeLane .v w ⟨none, none⟩ = .ok (.vmpop n) := by
  have d0 : w / 2 ^ 0 = (58 * 2 ^ 20 + 0) * 2 ^ 4 + n.toNat := by omega
  have d1 := div_next d0 n.isLt
  have hop := congrArg (· % 256) (div_next d1 (by decide))
  have f0 : fld 4 0 w = n := fld_at d0
  have f1 : fld 20 4 w = 0#20 := fld_num d1
  clear hw d0 d1
  have hm : decodeVector w ⟨none, none⟩ = (decVmpop w ⟨none, none⟩) := by unfold decodeVector; rw [show w / 16777216 % 256 = 58 from hop]; rfl
  show decodeVector w ⟨none, none⟩ = _
  rw [hm]
  unfold decVmpop
  simp only [need, f0, f1, if_true, decide_true, Option.isNone, Option.isSome, Bool.and_self, Option.getD]
  rfl

theorem decodeLane_vskip (off : Imm 24)
    (hwf : (true) = true) (w : Nat) (hw : 989855744 + off.low.toNat * 1 = w) :
    decodeLane .v w ⟨off.high, none⟩ = .ok (.vskip off) := by
  have d0 : w / 2 ^ 0 = 59 * 2 ^ 24 + off.low.toNat := by omega
  have hop := congrArg (· % 256) (div_next d0 off.low.isLt)
  have f0 : fld 24 0 w = off.low := fld_at d0
  clear hw d0
  have hm : decodeVector w ⟨off.high, none⟩ = (decVskip w ⟨off.high, none⟩) := by unfold decodeVector; rw [show w / 16777216 % 256 = 59 from hop]; rfl
  show decodeVector w ⟨off.high, none⟩ = _
  rw [hm]
  unfold decVskip
  simp only [need, f0, if_true, decide_true, Option.isNone, Option.isSome, Bool.and_self, Option.getD]
  rfl

theorem decodeLane_vmget (vd : VDst) (d : BitVec 4)
    (hwf : (decide (vd.toNat < 69)) = true) (w : Nat) (hw : 1006632960 + vd.toNat * 131072 + d.toNat * 1 = w) :
    decodeLane .v w ⟨none, none⟩ = .ok (.vmget vd d) := by
  have d0 : w / 2 ^ 0 = ((60 * 2 ^ 7 + vd.toNat) * 2 ^ 13 + 0) * 2 ^ 4 + d.toNat := by omega
  have d1 := div_next d0 d.isLt
  have d2 := div_next d1 (by decide)
  have hop := congrArg (· % 256) (div_next d2 vd.isLt)
  have f0 : fld 7 17 w = vd := fld_at d2
  have f1 : fld 4 0 w = d := fld_at d0
  have f2 : fld 13 4 w = 0#13 := fld_num d1
  clear hw d0 d1 d2
  have hm : decodeVector w ⟨none, none⟩ = (decVmget w ⟨none, none⟩) := by unfold decodeVector; rw [show w / 16777216 % 256 = 60 from hop]; rfl
  show decodeVector w ⟨none, none⟩ = _
  rw [hm]
  unfold decVmget
  simp only [need, f0, f1, f2, hwf, if_true, decide_true, Option.isNone, Option.isSome, Bool.and_self, Option.getD]
  rfl

theorem decodeLane_vpark (vr : BitVec 6)
    (hwf : (true) = true) (w : Nat) (hw : 1023410176 + vr.toNat * 131072 = w) :
    decodeLane .v w ⟨none, none⟩ = .ok (.vpark vr) := by
  have d0 : w / 2 ^ 0 = ((61 * 2 ^ 1 + 0) * 2 ^ 6 + vr.toNat) * 2 ^ 17 + 0 := by omega
  have d1 := div_next d0 (by decide)
  have d2 := div_next d1 vr.isLt
  have hop := congrArg (· % 256) (div_next d2 (by decide))
  have f0 : fld 6 17 w = vr := fld_at d1
  have f1 : fld 17 0 w = 0#17 := fld_num d0
  have f2 : fld 1 23 w = 0#1 := fld_num d2
  clear hw d0 d1 d2
  have hm : decodeVector w ⟨none, none⟩ = (decVpark w ⟨none, none⟩) := by unfold decodeVector; rw [show w / 16777216 % 256 = 61 from hop]; rfl
  show decodeVector w ⟨none, none⟩ = _
  rw [hm]
  unfold decVpark
  simp only [need, f0, f1, f2, if_true, decide_true, Option.isNone, Option.isSome, Bool.and_self, Option.getD]
  rfl

theorem decodeLane_vunpark (vr : BitVec 6)
    (hwf : (true) = true) (w : Nat) (hw : 1040187392 + vr.toNat * 131072 = w) :
    decodeLane .v w ⟨none, none⟩ = .ok (.vunpark vr) := by
  have d0 : w / 2 ^ 0 = ((62 * 2 ^ 1 + 0) * 2 ^ 6 + vr.toNat) * 2 ^ 17 + 0 := by omega
  have d1 := div_next d0 (by decide)
  have d2 := div_next d1 vr.isLt
  have hop := congrArg (· % 256) (div_next d2 (by decide))
  have f0 : fld 6 17 w = vr := fld_at d1
  have f1 : fld 17 0 w = 0#17 := fld_num d0
  have f2 : fld 1 23 w = 0#1 := fld_num d2
  clear hw d0 d1 d2
  have hm : decodeVector w ⟨none, none⟩ = (decVunpark w ⟨none, none⟩) := by unfold decodeVector; rw [show w / 16777216 % 256 = 62 from hop]; rfl
  show decodeVector w ⟨none, none⟩ = _
  rw [hm]
  unfold decVunpark
  simp only [need, f0, f1, f2, if_true, decide_true, Option.isNone, Option.isSome, Bool.and_self, Option.getD]
  rfl

theorem decodeLane_vpushm (vf : BitVec 6) (vl : BitVec 6)
    (hwf : (decide (vf.toNat ≤ vl.toNat)) = true) (w : Nat) (hw : 1056964608 + vf.toNat * 131072 + vl.toNat * 1024 = w) :
    decodeLane .v w ⟨none, none⟩ = .ok (.vpushm vf vl) := by
  have d0 : w / 2 ^ 0 = ((((63 * 2 ^ 1 + 0) * 2 ^ 6 + vf.toNat) * 2 ^ 1 + 0) * 2 ^ 6 + vl.toNat) * 2 ^ 10 + 0 := by omega
  have d1 := div_next d0 (by decide)
  have d2 := div_next d1 vl.isLt
  have d3 := div_next d2 (by decide)
  have d4 := div_next d3 vf.isLt
  have hop := congrArg (· % 256) (div_next d4 (by decide))
  have f0 : fld 6 17 w = vf := fld_at d3
  have f1 : fld 6 10 w = vl := fld_at d1
  have f2 : fld 1 23 w = 0#1 := fld_num d4
  have f3 : fld 1 16 w = 0#1 := fld_num d2
  have f4 : fld 10 0 w = 0#10 := fld_num d0
  clear hw d0 d1 d2 d3 d4
  have hm : decodeVector w ⟨none, none⟩ = (decVpushm w ⟨none, none⟩) := by unfold decodeVector; rw [show w / 16777216 % 256 = 63 from hop]; rfl
  show decodeVector w ⟨none, none⟩ = _
  rw [hm]
  unfold decVpushm
  simp only [need, f0, f1, f2, f3, f4, hwf, show (0#1).toNat = 0 from rfl, Nat.mul_zero, Nat.add_zero, if_true, decide_true, Option.isNone, Option.isSome, Bool.and_self, Option.getD]
  rfl

theorem decodeLane_vpopm (vf : BitVec 6) (vl : BitVec 6)
    (hwf : (decide (vf.toNat ≤ vl.toNat)) = true) (w : Nat) (hw : 1073741824 + vf.toNat * 131072 + vl.toNat * 1024 = w) :
    decodeLane .v w ⟨none, none⟩ = .ok (.vpopm vf vl) := by
  have d0 : w / 2 ^ 0 = ((((64 * 2 ^ 1 + 0) * 2 ^ 6 + vf.toNat) * 2 ^ 1 + 0) * 2 ^ 6 + vl.toNat) * 2 ^ 10 + 0 := by omega
  have d1 := div_next d0 (by decide)
  have d2 := div_next d1 vl.isLt
  have d3 := div_next d2 (by decide)
  have d4 := div_next d3 vf.isLt
  have hop := congrArg (· % 256) (div_next d4 (by decide))
  have f0 : fld 6 17 w = vf := fld_at d3
  have f1 : fld 6 10 w = vl := fld_at d1
  have f2 : fld 1 23 w = 0#1 := fld_num d4
  have f3 : fld 1 16 w = 0#1 := fld_num d2
  have f4 : fld 10 0 w = 0#10 := fld_num d0
  clear hw d0 d1 d2 d3 d4
  have hm : decodeVector w ⟨none, none⟩ = (decVpopm w ⟨none, none⟩) := by unfold decodeVector; rw [show w / 16777216 % 256 = 64 from hop]; rfl
  show decodeVector w ⟨none, none⟩ = _
  rw [hm]
  unfold decVpopm
  simp only [need, f0, f1, f2, f3, f4, hwf, show (0#1).toNat = 0 from rfl, Nat.mul_zero, Nat.add_zero, if_true, decide_true, Option.isNone, Option.isSome, Bool.and_self, Option.getD]
  rfl

theorem decodeLane_vsetsh (hd : ShReg)
    (hwf : (true) = true) (w : Nat) (hw : 1090519040 + hd.toNat * 1 = w) :
    decodeLane .v w ⟨none, none⟩ = .ok (.vsetsh hd) := by
  have d0 : w / 2 ^ 0 = (65 * 2 ^ 21 + 0) * 2 ^ 3 + hd.toNat := by omega
  have d1 := div_next d0 hd.isLt
  have hop := congrArg (· % 256) (div_next d1 (by decide))
  have f0 : fld 3 0 w = hd := fld_at d0
  have f1 : fld 21 3 w = 0#21 := fld_num d1
  clear hw d0 d1
  have hm : decodeVector w ⟨none, none⟩ = (decVsetsh w ⟨none, none⟩) := by unfold decodeVector; rw [show w / 16777216 % 256 = 65 from hop]; rfl
  show decodeVector w ⟨none, none⟩ = _
  rw [hm]
  unfold decVsetsh
  simp only [need, f0, f1, if_true, decide_true, Option.isNone, Option.isSome, Bool.and_self, Option.getD]
  rfl

theorem decodeLane_mlease (q : BitVec 4) (tok : Tok)
    (hwf : (true) = true) (w : Nat) (hw : 16777216 + q.toNat * 1048576 + encTok tok * 65536 = w) :
    decodeLane .m w ⟨none, none⟩ = .ok (.mlease q tok) := by
  have d0 : w / 2 ^ 0 = ((1 * 2 ^ 4 + q.toNat) * 2 ^ 4 + encTok tok) * 2 ^ 16 + 0 := by omega
  have d1 := div_next d0 (by decide)
  have d2 := div_next d1 (encTok_lt tok)
  have hop := congrArg (· % 256) (div_next d2 q.isLt)
  have f0 : fld 4 20 w = q := fld_at d2
  have f1 : fld 16 0 w = 0#16 := fld_num d0
  have f2 : (if fld 1 19 w = 1#1 then some (fld 3 16 w) else none) = tok := fld_tok (mod_at d1 (encTok_lt tok))
  have f3 : (fld 1 19 w = 1#1 ∨ fld 3 16 w = 0#3) = True := eq_true (fld_tokOk (tok := tok) (mod_at d1 (encTok_lt tok)))
  clear hw d0 d1 d2
  have hm : decodeMatrix w ⟨none, none⟩ = (decMlease w ⟨none, none⟩) := by unfold decodeMatrix; rw [show w / 16777216 % 256 = 1 from hop]; rfl
  show decodeMatrix w ⟨none, none⟩ = _
  rw [hm]
  unfold decMlease
  simp only [need, f0, f1, f2, f3, if_true, decide_true, Option.isNone, Option.isSome, Bool.and_self, Option.getD]
  rfl

theorem decodeLane_mfree (q : BitVec 4) (tok : Tok)
    (hwf : (true) = true) (w : Nat) (hw : 33554432 + q.toNat * 1048576 + encTok tok * 65536 = w) :
    decodeLane .m w ⟨none, none⟩ = .ok (.mfree q tok) := by
  have d0 : w / 2 ^ 0 = ((2 * 2 ^ 4 + q.toNat) * 2 ^ 4 + encTok tok) * 2 ^ 16 + 0 := by omega
  have d1 := div_next d0 (by decide)
  have d2 := div_next d1 (encTok_lt tok)
  have hop := congrArg (· % 256) (div_next d2 q.isLt)
  have f0 : fld 4 20 w = q := fld_at d2
  have f1 : fld 16 0 w = 0#16 := fld_num d0
  have f2 : (if fld 1 19 w = 1#1 then some (fld 3 16 w) else none) = tok := fld_tok (mod_at d1 (encTok_lt tok))
  have f3 : (fld 1 19 w = 1#1 ∨ fld 3 16 w = 0#3) = True := eq_true (fld_tokOk (tok := tok) (mod_at d1 (encTok_lt tok)))
  clear hw d0 d1 d2
  have hm : decodeMatrix w ⟨none, none⟩ = (decMfree w ⟨none, none⟩) := by unfold decodeMatrix; rw [show w / 16777216 % 256 = 2 from hop]; rfl
  show decodeMatrix w ⟨none, none⟩ = _
  rw [hm]
  unfold decMfree
  simp only [need, f0, f1, f2, f3, if_true, decide_true, Option.isNone, Option.isSome, Bool.and_self, Option.getD]
  rfl

theorem decodeLane_mma (ta : TsReg) (tb : TsReg) (hd : ShReg) (rm : BitVec 3) (tok : Tok)
    (hwf : (true) = true) (w : Nat) (hw : 50331648 + ta.toNat * 1048576 + tb.toNat * 65536 + hd.toNat * 8192 + rm.toNat * 1024 + encTok tok * 64 = w) :
    decodeLane .m w ⟨none, none⟩ = .ok (.mma ta tb hd rm tok) := by
  have d0 : w / 2 ^ 0 = (((((3 * 2 ^ 4 + ta.toNat) * 2 ^ 4 + tb.toNat) * 2 ^ 3 + hd.toNat) * 2 ^ 3 + rm.toNat) * 2 ^ 4 + encTok tok) * 2 ^ 6 + 0 := by omega
  have d1 := div_next d0 (by decide)
  have d2 := div_next d1 (encTok_lt tok)
  have d3 := div_next d2 rm.isLt
  have d4 := div_next d3 hd.isLt
  have d5 := div_next d4 tb.isLt
  have hop := congrArg (· % 256) (div_next d5 ta.isLt)
  have f0 : fld 4 20 w = ta := fld_at d5
  have f1 : fld 4 16 w = tb := fld_at d4
  have f2 : fld 3 13 w = hd := fld_at d3
  have f3 : fld 3 10 w = rm := fld_at d2
  have f4 : fld 6 0 w = 0#6 := fld_num d0
  have f5 : (if fld 1 9 w = 1#1 then some (fld 3 6 w) else none) = tok := fld_tok (mod_at d1 (encTok_lt tok))
  have f6 : (fld 1 9 w = 1#1 ∨ fld 3 6 w = 0#3) = True := eq_true (fld_tokOk (tok := tok) (mod_at d1 (encTok_lt tok)))
  clear hw d0 d1 d2 d3 d4 d5
  have hm : decodeMatrix w ⟨none, none⟩ = (decMma w ⟨none, none⟩) := by unfold decodeMatrix; rw [show w / 16777216 % 256 = 3 from hop]; rfl
  show decodeMatrix w ⟨none, none⟩ = _
  rw [hm]
  unfold decMma
  simp only [need, f0, f1, f2, f3, f4, f5, f6, if_true, decide_true, Option.isNone, Option.isSome, Bool.and_self, Option.getD]
  rfl

theorem decodeLane_mmah (ta : TsReg) (tb : TsReg) (hd : ShReg) (rm : BitVec 3) (tok : Tok) (which : Bool) (ts : TsReg) (e1 : CSrc) (e2 : CSrc)
    (hwf : (decide (e1.toNat < 32) && decide (e2.toNat < 32)) = true) (w : Nat) (hw : 67108864 + ta.toNat * 1048576 + tb.toNat * 65536 + hd.toNat * 8192 + rm.toNat * 1024 + encTok tok * 64 + which.toNat * 16 + ts.toNat * 1 = w) :
    decodeLane .m w ⟨none, optE (encE e1.toNat e2.toNat 0 0)⟩ = .ok (.mmah ta tb hd rm tok which ts e1 e2) := by
  have he : ((⟨none, optE (encE e1.toNat e2.toNat 0 0)⟩ : Ext)).e2w = e1.toNat * 2097152 + e2.toNat * 16384 + 0 * 128 + 0 := e2w_optE (Nat.lt_of_lt_of_le e1.isLt (by decide)) (Nat.lt_of_lt_of_le e2.isLt (by decide)) (by decide) (by decide)
  generalize hx : (⟨none, optE (encE e1.toNat e2.toNat 0 0)⟩ : Ext) = x at he ⊢
  have hx0 : x.e0 = none := by rw [← hx]
  have d0 : w / 2 ^ 0 = (((((((4 * 2 ^ 4 + ta.toNat) * 2 ^ 4 + tb.toNat) * 2 ^ 3 + hd.toNat) * 2 ^ 3 + rm.toNat) * 2 ^ 4 + encTok tok) * 2 ^ 1 + 0) * 2 ^ 1 + which.toNat) * 2 ^ 4 + ts.toNat := by omega
  have d1 := div_next d0 ts.isLt
  have d2 := div_next d1 (Bool.toNat_lt which)
  have d3 := div_next d2 (by decide)
  have d4 := div_next d3 (encTok_lt tok)
  have d5 := div_next d4 rm.isLt
  have d6 := div_next d5 hd.isLt
  have d7 := div_next d6 tb.isLt
  have hop := congrArg (· % 256) (div_next d7 ta.isLt)
  have f0 : fld 4 20 w = ta := fld_at d7
  have f1 : fld 4 16 w = tb := fld_at d6
  have f2 : fld 3 13 w = hd := fld_at d5
  have f3 : fld 3 10 w = rm := fld_at d4
  have f4 : decide (fld 1 4 w = 1#1) = which := fld_bool (mod_at d1 (Bool.toNat_lt which))
  have f5 : fld 4 0 w = ts := fld_at d0
  have f6 : fld 6 21 x.e2w = e1 := fld_eq (by omega)
  have f7 : fld 6 14 x.e2w = e2 := fld_eq (by omega)
  have f8 : fld 1 27 x.e2w = 0#1 := fld_lit 0 (by omega)
  have f9 : fld 1 20 x.e2w = 0#1 := fld_lit 0 (by omega)
  have f10 : fld 1 5 w = 0#1 := fld_num d2
  have f11 : fld 7 7 x.e2w = 0#7 := fld_lit 0 (by omega)
  have f12 : fld 7 0 x.e2w = 0#7 := fld_lit 0 (by omega)
  have f13 : (if fld 1 9 w = 1#1 then some (fld 3 6 w) else none) = tok := fld_tok (mod_at d3 (encTok_lt tok))
  have f14 : (fld 1 9 w = 1#1 ∨ fld 3 6 w = 0#3) = True := eq_true (fld_tokOk (tok := tok) (mod_at d3 (encTok_lt tok)))
  clear hw d0 d1 d2 d3 d4 d5 d6 d7
  simp only [Bool.and_eq_true] at hwf
  obtain ⟨w1, w2⟩ := hwf
  have hm : decodeMatrix w x = (decMmah w x) := by unfold decodeMatrix; rw [show w / 16777216 % 256 = 4 from hop]; rfl
  show decodeMatrix w x = _
  rw [hm]
  unfold decMmah
  simp only [need, f0, f1, f2, f3, f4, f5, f6, f7, f8, f9, f10, f11, f12, f13, f14, w1, w2, hx0, if_true, decide_true, Option.isNone, Option.isSome, Bool.and_self, Option.getD]
  rfl

theorem decodeLane_mmack (ta : TsReg) (tb : TsReg) (hd : ShReg) (rm : BitVec 3) (tok : Tok)
    (hwf : (true) = true) (w : Nat) (hw : 83886080 + ta.toNat * 1048576 + tb.toNat * 65536 + hd.toNat * 8192 + rm.toNat * 1024 + encTok tok * 64 = w) :
    decodeLane .m w ⟨none, none⟩ = .ok (.mmack ta tb hd rm tok) := by
  have d0 : w / 2 ^ 0 = (((((5 * 2 ^ 4 + ta.toNat) * 2 ^ 4 + tb.toNat) * 2 ^ 3 + hd.toNat) * 2 ^ 3 + rm.toNat) * 2 ^ 4 + encTok tok) * 2 ^ 6 + 0 := by omega
  have d1 := div_next d0 (by decide)
  have d2 := div_next d1 (encTok_lt tok)
  have d3 := div_next d2 rm.isLt
  have d4 := div_next d3 hd.isLt
  have d5 := div_next d4 tb.isLt
  have hop := congrArg (· % 256) (div_next d5 ta.isLt)
  have f0 : fld 4 20 w = ta := fld_at d5
  have f1 : fld 4 16 w = tb := fld_at d4
  have f2 : fld 3 13 w = hd := fld_at d3
  have f3 : fld 3 10 w = rm := fld_at d2
  have f4 : fld 6 0 w = 0#6 := fld_num d0
  have f5 : (if fld 1 9 w = 1#1 then some (fld 3 6 w) else none) = tok := fld_tok (mod_at d1 (encTok_lt tok))
  have f6 : (fld 1 9 w = 1#1 ∨ fld 3 6 w = 0#3) = True := eq_true (fld_tokOk (tok := tok) (mod_at d1 (encTok_lt tok)))
  clear hw d0 d1 d2 d3 d4 d5
  have hm : decodeMatrix w ⟨none, none⟩ = (decMmack w ⟨none, none⟩) := by unfold decodeMatrix; rw [show w / 16777216 % 256 = 5 from hop]; rfl
  show decodeMatrix w ⟨none, none⟩ = _
  rw [hm]
  unfold decMmack
  simp only [need, f0, f1, f2, f3, f4, f5, f6, if_true, decide_true, Option.isNone, Option.isSome, Bool.and_self, Option.getD]
  rfl

theorem decodeLane_mmabx (ta : TsReg) (tb : TsReg) (hd : ShReg) (tok : Tok)
    (hwf : (true) = true) (w : Nat) (hw : 100663296 + ta.toNat * 1048576 + tb.toNat * 65536 + hd.toNat * 8192 + encTok tok * 64 = w) :
    decodeLane .m w ⟨none, none⟩ = .ok (.mmabx ta tb hd tok) := by
  have d0 : w / 2 ^ 0 = (((((6 * 2 ^ 4 + ta.toNat) * 2 ^ 4 + tb.toNat) * 2 ^ 3 + hd.toNat) * 2 ^ 3 + 0) * 2 ^ 4 + encTok tok) * 2 ^ 6 + 0 := by omega
  have d1 := div_next d0 (by decide)
  have d2 := div_next d1 (encTok_lt tok)
  have d3 := div_next d2 (by decide)
  have d4 := div_next d3 hd.isLt
  have d5 := div_next d4 tb.isLt
  have hop := congrArg (· % 256) (div_next d5 ta.isLt)
  have f0 : fld 4 20 w = ta := fld_at d5
  have f1 : fld 4 16 w = tb := fld_at d4
  have f2 : fld 3 13 w = hd := fld_at d3
  have f3 : fld 6 0 w = 0#6 := fld_num d0
  have f4 : fld 3 10 w = 0#3 := fld_num d2
  have f5 : (if fld 1 9 w = 1#1 then some (fld 3 6 w) else none) = tok := fld_tok (mod_at d1 (encTok_lt tok))
  have f6 : (fld 1 9 w = 1#1 ∨ fld 3 6 w = 0#3) = True := eq_true (fld_tokOk (tok := tok) (mod_at d1 (encTok_lt tok)))
  clear hw d0 d1 d2 d3 d4 d5
  have hm : decodeMatrix w ⟨none, none⟩ = (decMmabx w ⟨none, none⟩) := by unfold decodeMatrix; rw [show w / 16777216 % 256 = 6 from hop]; rfl
  show decodeMatrix w ⟨none, none⟩ = _
  rw [hm]
  unfold decMmabx
  simp only [need, f0, f1, f2, f3, f4, f5, f6, if_true, decide_true, Option.isNone, Option.isSome, Bool.and_self, Option.getD]
  rfl

theorem decodeLane_mmaba (ta : TsReg) (tb : TsReg) (hd : ShReg) (tok : Tok)
    (hwf : (true) = true) (w : Nat) (hw : 117440512 + ta.toNat * 1048576 + tb.toNat * 65536 + hd.toNat * 8192 + encTok tok * 64 = w) :
    decodeLane .m w ⟨none, none⟩ = .ok (.mmaba ta tb hd tok) := by
  have d0 : w / 2 ^ 0 = (((((7 * 2 ^ 4 + ta.toNat) * 2 ^ 4 + tb.toNat) * 2 ^ 3 + hd.toNat) * 2 ^ 3 + 0) * 2 ^ 4 + encTok tok) * 2 ^ 6 + 0 := by omega
  have d1 := div_next d0 (by decide)
  have d2 := div_next d1 (encTok_lt tok)
  have d3 := div_next d2 (by decide)
  have d4 := div_next d3 hd.isLt
  have d5 := div_next d4 tb.isLt
  have hop := congrArg (· % 256) (div_next d5 ta.isLt)
  have f0 : fld 4 20 w = ta := fld_at d5
  have f1 : fld 4 16 w = tb := fld_at d4
  have f2 : fld 3 13 w = hd := fld_at d3
  have f3 : fld 6 0 w = 0#6 := fld_num d0
  have f4 : fld 3 10 w = 0#3 := fld_num d2
  have f5 : (if fld 1 9 w = 1#1 then some (fld 3 6 w) else none) = tok := fld_tok (mod_at d1 (encTok_lt tok))
  have f6 : (fld 1 9 w = 1#1 ∨ fld 3 6 w = 0#3) = True := eq_true (fld_tokOk (tok := tok) (mod_at d1 (encTok_lt tok)))
  clear hw d0 d1 d2 d3 d4 d5
  have hm : decodeMatrix w ⟨none, none⟩ = (decMmaba w ⟨none, none⟩) := by unfold decodeMatrix; rw [show w / 16777216 % 256 = 7 from hop]; rfl
  show decodeMatrix w ⟨none, none⟩ = _
  rw [hm]
  unfold decMmaba
  simp only [need, f0, f1, f2, f3, f4, f5, f6, if_true, decide_true, Option.isNone, Option.isSome, Bool.and_self, Option.getD]
  rfl

theorem decodeLane_mclr (hd : ShReg) (tok : Tok)
    (hwf : (true) = true) (w : Nat) (hw : 134217728 + hd.toNat * 8192 + encTok tok * 64 = w) :
    decodeLane .m w ⟨none, none⟩ = .ok (.mclr hd tok) := by
  have d0 : w / 2 ^ 0 = (((((8 * 2 ^ 8 + 0) * 2 ^ 3 + hd.toNat) * 2 ^ 3 + 0) * 2 ^ 4 + encTok tok) * 2 ^ 5 + 0) * 2 ^ 1 + 0 := by omega
  have d1 := div_next d0 (by decide)
  have d2 := div_next d1 (by decide)
  have d3 := div_next d2 (encTok_lt tok)
  have d4 := div_next d3 (by decide)
  have d5 := div_next d4 hd.isLt
  have hop := congrArg (· % 256) (div_next d5 (by decide))
  have f0 : fld 3 13 w = hd := fld_at d4
  have f1 : fld 5 1 w = 0#5 := fld_num d1
  have f2 : fld 3 10 w = 0#3 := fld_num d3
  have f3 : fld 8 16 w = 0#8 := fld_num d5
  have f4 : fld 1 0 w = 0#1 := fld_num d0
  have f5 : (if fld 1 9 w = 1#1 then some (fld 3 6 w) else none) = tok := fld_tok (mod_at d2 (encTok_lt tok))
  have f6 : (fld 1 9 w = 1#1 ∨ fld 3 6 w = 0#3) = True := eq_true (fld_tokOk (tok := tok) (mod_at d2 (encTok_lt tok)))
  clear hw d0 d1 d2 d3 d4 d5
  have hm : decodeMatrix w ⟨none, none⟩ = (if fld 1 0 w = 0#1 then decMclr w ⟨none, none⟩ else decMclrAll w ⟨none, none⟩) := by unfold decodeMatrix; rw [show w / 16777216 % 256 = 8 from hop]; rfl
  show decodeMatrix w ⟨none, none⟩ = _
  rw [hm]
  simp only [f1, f2, f3, f4, f5, f6, if_true, reduceCtorEq, Option.isSome, Bool.false_eq_true, if_false, BitVec.reduceEq, ↓reduceIte]
  unfold decMclr
  simp only [need, f0, f1, f2, f3, f4, f5, f6, if_true, decide_true, Option.isNone, Option.isSome, Bool.and_self, Option.getD]
  rfl

theorem decodeLane_mclrAll (hd : ShReg) (tok : Tok)
    (hwf : (true) = true) (w : Nat) (hw : 134217729 + hd.toNat * 8192 + encTok tok * 64 = w) :
    decodeLane .m w ⟨none, none⟩ = .ok (.mclrAll hd tok) := by
  have d0 : w / 2 ^ 0 = (((((8 * 2 ^ 8 + 0) * 2 ^ 3 + hd.toNat) * 2 ^ 3 + 0) * 2 ^ 4 + encTok tok) * 2 ^ 5 + 0) * 2 ^ 1 + 1 := by omega
  have d1 := div_next d0 (by decide)
  have d2 := div_next d1 (by decide)
  have d3 := div_next d2 (encTok_lt tok)
  have d4 := div_next d3 (by decide)
  have d5 := div_next d4 hd.isLt
  have hop := congrArg (· % 256) (div_next d5 (by decide))
  have f0 : fld 3 13 w = hd := fld_at d4
  have f1 : fld 5 1 w = 0#5 := fld_num d1
  have f2 : fld 3 10 w = 0#3 := fld_num d3
  have f3 : fld 8 16 w = 0#8 := fld_num d5
  have f4 : fld 1 0 w = 1#1 := fld_num d0
  have f5 : (if fld 1 9 w = 1#1 then some (fld 3 6 w) else none) = tok := fld_tok (mod_at d2 (encTok_lt tok))
  have f6 : (fld 1 9 w = 1#1 ∨ fld 3 6 w = 0#3) = True := eq_true (fld_tokOk (tok := tok) (mod_at d2 (encTok_lt tok)))
  clear hw d0 d1 d2 d3 d4 d5
  have hm : decodeMatrix w ⟨none, none⟩ = (if fld 1 0 w = 0#1 then decMclr w ⟨none, none⟩ else decMclrAll w ⟨none, none⟩) := by unfold decodeMatrix; rw [show w / 16777216 % 256 = 8 from hop]; rfl
  show decodeMatrix w ⟨none, none⟩ = _
  rw [hm]
  simp only [f1, f2, f3, f4, f5, f6, if_true, reduceCtorEq, Option.isSome, Bool.false_eq_true, if_false, BitVec.reduceEq, ↓reduceIte]
  unfold decMclrAll
  simp only [need, f0, f1, f2, f3, f4, f5, f6, if_true, decide_true, Option.isNone, Option.isSome, Bool.and_self, Option.getD]
  rfl

theorem decodeLane_mldacc (ta : TsReg) (hd : ShReg) (tok : Tok)
    (hwf : (true) = true) (w : Nat) (hw : 150994944 + ta.toNat * 1048576 + hd.toNat * 8192 + encTok tok * 64 = w) :
    decodeLane .m w ⟨none, none⟩ = .ok (.mldacc ta hd tok) := by
  have d0 : w / 2 ^ 0 = (((((9 * 2 ^ 4 + ta.toNat) * 2 ^ 4 + 0) * 2 ^ 3 + hd.toNat) * 2 ^ 3 + 0) * 2 ^ 4 + encTok tok) * 2 ^ 6 + 0 := by omega
  have d1 := div_next d0 (by decide)
  have d2 := div_next d1 (encTok_lt tok)
  have d3 := div_next d2 (by decide)
  have d4 := div_next d3 hd.isLt
  have d5 := div_next d4 (by decide)
  have hop := congrArg (· % 256) (div_next d5 ta.isLt)
  have f0 : fld 4 20 w = ta := fld_at d5
  have f1 : fld 3 13 w = hd := fld_at d3
  have f2 : fld 6 0 w = 0#6 := fld_num d0
  have f3 : fld 3 10 w = 0#3 := fld_num d2
  have f4 : fld 4 16 w = 0#4 := fld_num d4
  have f5 : (if fld 1 9 w = 1#1 then some (fld 3 6 w) else none) = tok := fld_tok (mod_at d1 (encTok_lt tok))
  have f6 : (fld 1 9 w = 1#1 ∨ fld 3 6 w = 0#3) = True := eq_true (fld_tokOk (tok := tok) (mod_at d1 (encTok_lt tok)))
  clear hw d0 d1 d2 d3 d4 d5
  have hm : decodeMatrix w ⟨none, none⟩ = (decMldacc w ⟨none, none⟩) := by unfold decodeMatrix; rw [show w / 16777216 % 256 = 9 from hop]; rfl
  show decodeMatrix w ⟨none, none⟩ = _
  rw [hm]
  unfold decMldacc
  simp only [need, f0, f1, f2, f3, f4, f5, f6, if_true, decide_true, Option.isNone, Option.isSome, Bool.and_self, Option.getD]
  rfl

theorem decodeLane_mstacc (ta : TsReg) (hd : ShReg) (rm : BitVec 3) (tok : Tok)
    (hwf : (true) = true) (w : Nat) (hw : 167772160 + ta.toNat * 1048576 + hd.toNat * 8192 + rm.toNat * 1024 + encTok tok * 64 = w) :
    decodeLane .m w ⟨none, none⟩ = .ok (.mstacc ta hd rm tok) := by
  have d0 : w / 2 ^ 0 = (((((10 * 2 ^ 4 + ta.toNat) * 2 ^ 4 + 0) * 2 ^ 3 + hd.toNat) * 2 ^ 3 + rm.toNat) * 2 ^ 4 + encTok tok) * 2 ^ 6 + 0 := by omega
  have d1 := div_next d0 (by decide)
  have d2 := div_next d1 (encTok_lt tok)
  have d3 := div_next d2 rm.isLt
  have d4 := div_next d3 hd.isLt
  have d5 := div_next d4 (by decide)
  have hop := congrArg (· % 256) (div_next d5 ta.isLt)
  have f0 : fld 4 20 w = ta := fld_at d5
  have f1 : fld 3 13 w = hd := fld_at d3
  have f2 : fld 3 10 w = rm := fld_at d2
  have f3 : fld 6 0 w = 0#6 := fld_num d0
  have f4 : fld 4 16 w = 0#4 := fld_num d4
  have f5 : (if fld 1 9 w = 1#1 then some (fld 3 6 w) else none) = tok := fld_tok (mod_at d1 (encTok_lt tok))
  have f6 : (fld 1 9 w = 1#1 ∨ fld 3 6 w = 0#3) = True := eq_true (fld_tokOk (tok := tok) (mod_at d1 (encTok_lt tok)))
  clear hw d0 d1 d2 d3 d4 d5
  have hm : decodeMatrix w ⟨none, none⟩ = (decMstacc w ⟨none, none⟩) := by unfold decodeMatrix; rw [show w / 16777216 % 256 = 10 from hop]; rfl
  show decodeMatrix w ⟨none, none⟩ = _
  rw [hm]
  unfold decMstacc
  simp only [need, f0, f1, f2, f3, f4, f5, f6, if_true, decide_true, Option.isNone, Option.isSome, Bool.and_self, Option.getD]
  rfl

theorem decodeLane_mchk (ta : TsReg) (hd : ShReg) (rm : BitVec 3) (tok : Tok)
    (hwf : (true) = true) (w : Nat) (hw : 184549376 + ta.toNat * 1048576 + hd.toNat * 8192 + rm.toNat * 1024 + encTok tok * 64 = w) :
    decodeLane .m w ⟨none, none⟩ = .ok (.mchk ta hd rm tok) := by
  have d0 : w / 2 ^ 0 = (((((11 * 2 ^ 4 + ta.toNat) * 2 ^ 4 + 0) * 2 ^ 3 + hd.toNat) * 2 ^ 3 + rm.toNat) * 2 ^ 4 + encTok tok) * 2 ^ 6 + 0 := by omega
  have d1 := div_next d0 (by decide)
  have d2 := div_next d1 (encTok_lt tok)
  have d3 := div_next d2 rm.isLt
  have d4 := div_next d3 hd.isLt
  have d5 := div_next d4 (by decide)
  have hop := congrArg (· % 256) (div_next d5 ta.isLt)
  have f0 : fld 4 20 w = ta := fld_at d5
  have f1 : fld 3 13 w = hd := fld_at d3
  have f2 : fld 3 10 w = rm := fld_at d2
  have f3 : fld 6 0 w = 0#6 := fld_num d0
  have f4 : fld 4 16 w = 0#4 := fld_num d4
  have f5 : (if fld 1 9 w = 1#1 then some (fld 3 6 w) else none) = tok := fld_tok (mod_at d1 (encTok_lt tok))
  have f6 : (fld 1 9 w = 1#1 ∨ fld 3 6 w = 0#3) = True := eq_true (fld_tokOk (tok := tok) (mod_at d1 (encTok_lt tok)))
  clear hw d0 d1 d2 d3 d4 d5
  have hm : decodeMatrix w ⟨none, none⟩ = (decMchk w ⟨none, none⟩) := by unfold decodeMatrix; rw [show w / 16777216 % 256 = 11 from hop]; rfl
  show decodeMatrix w ⟨none, none⟩ = _
  rw [hm]
  unfold decMchk
  simp only [need, f0, f1, f2, f3, f4, f5, f6, if_true, decide_true, Option.isNone, Option.isSome, Bool.and_self, Option.getD]
  rfl

theorem decodeLane_mseed (q : BitVec 4) (xs : CSrc) (tok : Tok)
    (hwf : (decide (xs.toNat < 32)) = true) (w : Nat) (hw : 201326592 + q.toNat * 1048576 + xs.toNat * 1 + encTok tok * 64 = w) :
    decodeLane .m w ⟨none, none⟩ = .ok (.mseed q xs tok) := by
  have d0 : w / 2 ^ 0 = (((12 * 2 ^ 4 + q.toNat) * 2 ^ 10 + 0) * 2 ^ 4 + encTok tok) * 2 ^ 6 + xs.toNat := by omega
  have d1 := div_next d0 xs.isLt
  have d2 := div_next d1 (encTok_lt tok)
  have d3 := div_next d2 (by decide)
  have hop := congrArg (· % 256) (div_next d3 q.isLt)
  have f0 : fld 4 20 w = q := fld_at d3
  have f1 : fld 6 0 w = xs := fld_at d0
  have f2 : fld 10 10 w = 0#10 := fld_num d2
  have f3 : (if fld 1 9 w = 1#1 then some (fld 3 6 w) else none) = tok := fld_tok (mod_at d1 (encTok_lt tok))
  have f4 : (fld 1 9 w = 1#1 ∨ fld 3 6 w = 0#3) = True := eq_true (fld_tokOk (tok := tok) (mod_at d1 (encTok_lt tok)))
  clear hw d0 d1 d2 d3
  have hm : decodeMatrix w ⟨none, none⟩ = (decMseed w ⟨none, none⟩) := by unfold decodeMatrix; rw [show w / 16777216 % 256 = 12 from hop]; rfl
  show decodeMatrix w ⟨none, none⟩ = _
  rw [hm]
  unfold decMseed
  simp only [need, f0, f1, f2, f3, f4, hwf, if_true, decide_true, Option.isNone, Option.isSome, Bool.and_self, Option.getD]
  rfl

theorem decodeLane_xcopyLd (t : TsReg) (hd : ThReg) (tok : Tok) (fl : Fl) (e1 : CSrc) (e2 : CSrc) (e3 : CSrc) (e4 : CSrc)
    (hwf : (decide (e1.toNat < 32) && decide (e2.toNat < 32) && decide (e3.toNat < 32) && decide (e4.toNat < 32)) = true) (w : Nat) (hw : 16777216 + t.toNat * 1048576 + hd.toNat * 65536 + encTok tok * 256 + encFl fl * 4 = w) :
    decodeLane .x w ⟨none, optE (encE e1.toNat e2.toNat e3.toNat e4.toNat)⟩ = .ok (.xcopyLd t hd tok fl e1 e2 e3 e4) := by
  have he : ((⟨none, optE (encE e1.toNat e2.toNat e3.toNat e4.toNat)⟩ : Ext)).e2w = e1.toNat * 2097152 + e2.toNat * 16384 + e3.toNat * 128 + e4.toNat := e2w_optE (Nat.lt_of_lt_of_le e1.isLt (by decide)) (Nat.lt_of_lt_of_le e2.isLt (by decide)) (Nat.lt_of_lt_of_le e3.isLt (by decide)) (Nat.lt_of_lt_of_le e4.isLt (by decide))
  generalize hx : (⟨none, optE (encE e1.toNat e2.toNat e3.toNat e4.toNat)⟩ : Ext) = x at he ⊢
  have hx0 : x.e0 = none := by rw [← hx]
  have d0 : w / 2 ^ 0 = ((((((1 * 2 ^ 4 + t.toNat) * 2 ^ 4 + hd.toNat) * 2 ^ 2 + 0) * 2 ^ 2 + 0) * 2 ^ 4 + encTok tok) * 2 ^ 6 + encFl fl) * 2 ^ 2 + 0 := by omega
  have d1 := div_next d0 (by decide)
  have d2 := div_next d1 (encFl_lt fl)
  have d3 := div_next d2 (encTok_lt tok)
  have d4 := div_next d3 (by decide)
  have d5 := div_next d4 (by decide)
  have d6 := div_next d5 hd.isLt
  have hop := congrArg (· % 256) (div_next d6 t.isLt)
  have f0 : fld 4 20 w = t := fld_at d6
  have f1 : fld 4 16 w = hd := fld_at d5
  have f2 : fld 6 21 x.e2w = e1 := fld_eq (by omega)
  have f3 : fld 6 14 x.e2w = e2 := fld_eq (by omega)
  have f4 : fld 6 7 x.e2w = e3 := fld_eq (by omega)
  have f5 : fld 6 0 x.e2w = e4 := fld_eq (by omega)
  have f6 : fld 1 27 x.e2w = 0#1 := fld_lit 0 (by omega)
  have f7 : fld 1 20 x.e2w = 0#1 := fld_lit 0 (by omega)
  have f8 : fld 1 13 x.e2w = 0#1 := fld_lit 0 (by omega)
  have f9 : fld 1 6 x.e2w = 0#1 := fld_lit 0 (by omega)
  have f10 : fld 2 0 w = 0#2 := fld_num d0
  have f11 : fld 2 14 w = 0#2 := fld_num d4
  have f12 : fld 2 12 w = 0#2 := fld_num d3
  have f13 : (if fld 1 11 w = 1#1 then some (fld 3 8 w) else none) = tok := fld_tok (mod_at d2 (encTok_lt tok))
  have f14 : (fld 1 11 w = 1#1 ∨ fld 3 8 w = 0#3) = True := eq_true (fld_tokOk (tok := tok) (mod_at d2 (encTok_lt tok)))
  have f15 : (if fld 1 7 w = 1#1 then some (fld 5 2 w) else none) = fl := fld_fl (mod_at d1 (encFl_lt fl))
  have f16 : (fld 1 7 w = 1#1 ∨ fld 5 2 w = 0#5) = True := eq_true (fld_flOk (fl := fl) (mod_at d1 (encFl_lt fl)))
  clear hw d0 d1 d2 d3 d4 d5 d6
  simp only [Bool.and_eq_true] at hwf
  obtain ⟨⟨⟨w1, w2⟩, w3⟩, w4⟩ := hwf
  have hm : decodeCopy w x = (if fld 2 12 w = 0#2 then decXcopyLd w x else if fld 2 12 w = 1#2 then decXcopySt w x else if fld 2 12 w = 2#2 then decXcopySs w x else decReserved true x) := by unfold decodeCopy; rw [show w / 16777216 % 256 = 1 from hop]; rfl
  show decodeCopy w x = _
  rw [hm]
  simp only [f10, f11, f12, f13, f14, f15, f16, if_true, reduceCtorEq, Option.isSome, Bool.false_eq_true, if_false, BitVec.reduceEq, ↓reduceIte]
  unfold decXcopyLd
  simp only [need, f0, f1, f2, f3, f4, f5, f6, f7, f8, f9, f10, f11, f12, f13, f14, f15, f16, w1, w2, w3, w4, hx0, if_true, decide_true, Option.isNone, Option.isSome, Bool.and_self, Option.getD]
  rfl

theorem decodeLane_xcopySt (t : TsReg) (hd : ThReg) (tok : Tok) (fl : Fl) (e1 : CSrc) (e2 : CSrc) (e3 : CSrc) (e4 : CSrc)
    (hwf : (decide (e1.toNat < 32) && decide (e2.toNat < 32) && decide (e3.toNat < 32) && decide (e4.toNat < 32)) = true) (w : Nat) (hw : 16781312 + t.toNat * 1048576 + hd.toNat * 65536 + encTok tok * 256 + encFl fl * 4 = w) :
    decodeLane .x w ⟨none, optE (encE e1.toNat e2.toNat e3.toNat e4.toNat)⟩ = .ok (.xcopySt t hd tok fl e1 e2 e3 e4) := by
  have he : ((⟨none, optE (encE e1.toNat e2.toNat e3.toNat e4.toNat)⟩ : Ext)).e2w = e1.toNat * 2097152 + e2.toNat * 16384 + e3.toNat * 128 + e4.toNat := e2w_optE (Nat.lt_of_lt_of_le e1.isLt (by decide)) (Nat.lt_of_lt_of_le e2.isLt (by decide)) (Nat.lt_of_lt_of_le e3.isLt (by decide)) (Nat.lt_of_lt_of_le e4.isLt (by decide))
  generalize hx : (⟨none, optE (encE e1.toNat e2.toNat e3.toNat e4.toNat)⟩ : Ext) = x at he ⊢
  have hx0 : x.e0 = none := by rw [← hx]
  have d0 : w / 2 ^ 0 = ((((((1 * 2 ^ 4 + t.toNat) * 2 ^ 4 + hd.toNat) * 2 ^ 2 + 0) * 2 ^ 2 + 1) * 2 ^ 4 + encTok tok) * 2 ^ 6 + encFl fl) * 2 ^ 2 + 0 := by omega
  have d1 := div_next d0 (by decide)
  have d2 := div_next d1 (encFl_lt fl)
  have d3 := div_next d2 (encTok_lt tok)
  have d4 := div_next d3 (by decide)
  have d5 := div_next d4 (by decide)
  have d6 := div_next d5 hd.isLt
  have hop := congrArg (· % 256) (div_next d6 t.isLt)
  have f0 : fld 4 20 w = t := fld_at d6
  have f1 : fld 4 16 w = hd := fld_at d5
  have f2 : fld 6 21 x.e2w = e1 := fld_eq (by omega)
  have f3 : fld 6 14 x.e2w = e2 := fld_eq (by omega)
  have f4 : fld 6 7 x.e2w = e3 := fld_eq (by omega)
  have f5 : fld 6 0 x.e2w = e4 := fld_eq (by omega)
  have f6 : fld 1 27 x.e2w = 0#1 := fld_lit 0 (by omega)
  have f7 : fld 1 20 x.e2w = 0#1 := fld_lit 0 (by omega)
  have f8 : fld 1 13 x.e2w = 0#1 := fld_lit 0 (by omega)
  have f9 : fld 1 6 x.e2w = 0#1 := fld_lit 0 (by omega)
  have f10 : fld 2 0 w = 0#2 := fld_num d0
  have f11 : fld 2 14 w = 0#2 := fld_num d4
  have f12 : fld 2 12 w = 1#2 := fld_num d3
  have f13 : (if fld 1 11 w = 1#1 then some (fld 3 8 w) else none) = tok := fld_tok (mod_at d2 (encTok_lt tok))
  have f14 : (fld 1 11 w = 1#1 ∨ fld 3 8 w = 0#3) = True := eq_true (fld_tokOk (tok := tok) (mod_at d2 (encTok_lt tok)))
  have f15 : (if fld 1 7 w = 1#1 then some (fld 5 2 w) else none) = fl := fld_fl (mod_at d1 (encFl_lt fl))
  have f16 : (fld 1 7 w = 1#1 ∨ fld 5 2 w = 0#5) = True := eq_true (fld_flOk (fl := fl) (mod_at d1 (encFl_lt fl)))
  clear hw d0 d1 d2 d3 d4 d5 d6
  simp only [Bool.and_eq_true] at hwf
  obtain ⟨⟨⟨w1, w2⟩, w3⟩, w4⟩ := hwf
  have hm : decodeCopy w x = (if fld 2 12 w = 0#2 then decXcopyLd w x else if fld 2 12 w = 1#2 then decXcopySt w x else if fld 2 12 w = 2#2 then decXcopySs w x else decReserved true x) := by unfold decodeCopy; rw [show w / 16777216 % 256 = 1 from hop]; rfl
  show decodeCopy w x = _
  rw [hm]
  simp only [f10, f11, f12, f13, f14, f15, f16, if_true, reduceCtorEq, Option.isSome, Bool.false_eq_true, if_false, BitVec.reduceEq, ↓reduceIte]
  unfold decXcopySt
  simp only [need, f0, f1, f2, f3, f4, f5, f6, f7, f8, f9, f10, f11, f12, f13, f14, f15, f16, w1, w2, w3, w4, hx0, if_true, decide_true, Option.isNone, Option.isSome, Bool.and_self, Option.getD]
  rfl

theorem decodeLane_xcopySs (td : TsReg) (ts : TsReg) (tok : Tok) (fl : Fl)
    (hwf : (true) = true) (w : Nat) (hw : 16785408 + td.toNat * 1048576 + ts.toNat * 65536 + encTok tok * 256 + encFl fl * 4 = w) :
    decodeLane .x w ⟨none, none⟩ = .ok (.xcopySs td ts tok fl) := by
  have he : ((⟨none, none⟩ : Ext)).e2w = 0 := rfl
  generalize hx : (⟨none, none⟩ : Ext) = x at he ⊢
  have hx0 : x.e0 = none := by rw [← hx]
  have d0 : w / 2 ^ 0 = ((((((1 * 2 ^ 4 + td.toNat) * 2 ^ 4 + ts.toNat) * 2 ^ 2 + 0) * 2 ^ 2 + 2) * 2 ^ 4 + encTok tok) * 2 ^ 6 + encFl fl) * 2 ^ 2 + 0 := by omega
  have d1 := div_next d0 (by decide)
  have d2 := div_next d1 (encFl_lt fl)
  have d3 := div_next d2 (encTok_lt tok)
  have d4 := div_next d3 (by decide)
  have d5 := div_next d4 (by decide)
  have d6 := div_next d5 ts.isLt
  have hop := congrArg (· % 256) (div_next d6 td.isLt)
  have f0 : fld 4 20 w = td := fld_at d6
  have f1 : fld 4 16 w = ts := fld_at d5
  have f2 : fld 2 0 w = 0#2 := fld_num d0
  have f3 : fld 2 14 w = 0#2 := fld_num d4
  have f4 : fld 7 21 x.e2w = 0#7 := fld_lit 0 (by omega)
  have f5 : fld 7 14 x.e2w = 0#7 := fld_lit 0 (by omega)
  have f6 : fld 7 7 x.e2w = 0#7 := fld_lit 0 (by omega)
  have f7 : fld 7 0 x.e2w = 0#7 := fld_lit 0 (by omega)
  have f8 : fld 2 12 w = 2#2 := fld_num d3
  have f9 : (if fld 1 11 w = 1#1 then some (fld 3 8 w) else none) = tok := fld_tok (mod_at d2 (encTok_lt tok))
  have f10 : (fld 1 11 w = 1#1 ∨ fld 3 8 w = 0#3) = True := eq_true (fld_tokOk (tok := tok) (mod_at d2 (encTok_lt tok)))
  have f11 : (if fld 1 7 w = 1#1 then some (fld 5 2 w) else none) = fl := fld_fl (mod_at d1 (encFl_lt fl))
  have f12 : (fld 1 7 w = 1#1 ∨ fld 5 2 w = 0#5) = True := eq_true (fld_flOk (fl := fl) (mod_at d1 (encFl_lt fl)))
  clear hw d0 d1 d2 d3 d4 d5 d6
  have hm : decodeCopy w x = (if fld 2 12 w = 0#2 then decXcopyLd w x else if fld 2 12 w = 1#2 then decXcopySt w x else if fld 2 12 w = 2#2 then decXcopySs w x else decReserved true x) := by unfold decodeCopy; rw [show w / 16777216 % 256 = 1 from hop]; rfl
  show decodeCopy w x = _
  rw [hm]
  simp only [f2, f3, f8, f9, f10, f11, f12, if_true, reduceCtorEq, Option.isSome, Bool.false_eq_true, if_false, BitVec.reduceEq, ↓reduceIte]
  unfold decXcopySs
  simp only [need, f0, f1, f2, f3, f4, f5, f6, f7, f8, f9, f10, f11, f12, hx0, if_true, decide_true, Option.isNone, Option.isSome, Bool.and_self, Option.getD]
  rfl

theorem decodeLane_xcopys (t : TsReg) (hd : ThReg) (tok : Tok) (fl : Fl) (e1 : CSrc) (e2 : CSrc)
    (hwf : (decide (e1.toNat < 32) && decide (e2.toNat < 32)) = true) (w : Nat) (hw : 33554432 + t.toNat * 1048576 + hd.toNat * 65536 + encTok tok * 256 + encFl fl * 4 = w) :
    decodeLane .x w ⟨none, optE (encE e1.toNat e2.toNat 0 0)⟩ = .ok (.xcopys t hd tok fl e1 e2) := by
  have he : ((⟨none, optE (encE e1.toNat e2.toNat 0 0)⟩ : Ext)).e2w = e1.toNat * 2097152 + e2.toNat * 16384 + 0 * 128 + 0 := e2w_optE (Nat.lt_of_lt_of_le e1.isLt (by decide)) (Nat.lt_of_lt_of_le e2.isLt (by decide)) (by decide) (by decide)
  generalize hx : (⟨none, optE (encE e1.toNat e2.toNat 0 0)⟩ : Ext) = x at he ⊢
  have hx0 : x.e0 = none := by rw [← hx]
  have d0 : w / 2 ^ 0 = (((((2 * 2 ^ 4 + t.toNat) * 2 ^ 4 + hd.toNat) * 2 ^ 4 + 0) * 2 ^ 4 + encTok tok) * 2 ^ 6 + encFl fl) * 2 ^ 2 + 0 := by omega
  have d1 := div_next d0 (by decide)
  have d2 := div_next d1 (encFl_lt fl)
  have d3 := div_next d2 (encTok_lt tok)
  have d4 := div_next d3 (by decide)
  have d5 := div_next d4 hd.isLt
  have hop := congrArg (· % 256) (div_next d5 t.isLt)
  have f0 : fld 4 20 w = t := fld_at d5
  have f1 : fld 4 16 w = hd := fld_at d4
  have f2 : fld 6 21 x.e2w = e1 := fld_eq (by omega)
  have f3 : fld 6 14 x.e2w = e2 := fld_eq (by omega)
  have f4 : fld 1 27 x.e2w = 0#1 := fld_lit 0 (by omega)
  have f5 : fld 1 20 x.e2w = 0#1 := fld_lit 0 (by omega)
  have f6 : fld 2 0 w = 0#2 := fld_num d0
  have f7 : fld 4 12 w = 0#4 := fld_num d3
  have f8 : fld 7 7 x.e2w = 0#7 := fld_lit 0 (by omega)
  have f9 : fld 7 0 x.e2w = 0#7 := fld_lit 0 (by omega)
  have f10 : (if fld 1 11 w = 1#1 then some (fld 3 8 w) else none) = tok := fld_tok (mod_at d2 (encTok_lt tok))
  have f11 : (fld 1 11 w = 1#1 ∨ fld 3 8 w = 0#3) = True := eq_true (fld_tokOk (tok := tok) (mod_at d2 (encTok_lt tok)))
  have f12 : (if fld 1 7 w = 1#1 then some (fld 5 2 w) else none) = fl := fld_fl (mod_at d1 (encFl_lt fl))
  have f13 : (fld 1 7 w = 1#1 ∨ fld 5 2 w = 0#5) = True := eq_true (fld_flOk (fl := fl) (mod_at d1 (encFl_lt fl)))
  clear hw d0 d1 d2 d3 d4 d5
  simp only [Bool.and_eq_true] at hwf
  obtain ⟨w1, w2⟩ := hwf
  have hm : decodeCopy w x = (decXcopys w x) := by unfold decodeCopy; rw [show w / 16777216 % 256 = 2 from hop]; rfl
  show decodeCopy w x = _
  rw [hm]
  unfold decXcopys
  simp only [need, f0, f1, f2, f3, f4, f5, f6, f7, f8, f9, f10, f11, f12, f13, w1, w2, hx0, if_true, decide_true, Option.isNone, Option.isSome, Bool.and_self, Option.getD]
  rfl

theorem decodeLane_xcb (c : CbReg) (hd : ThReg) (tok : Tok) (fl : Fl) (e1 : CSrc) (e2 : CSrc) (e3 : CSrc) (e4 : CSrc)
    (hwf : (decide (e1.toNat < 32) && decide (e2.toNat < 32) && decide (e3.toNat < 32) && decide (e4.toNat < 32)) = true) (w : Nat) (hw : 50331648 + c.toNat * 1048576 + hd.toNat * 65536 + encTok tok * 256 + encFl fl * 4 = w) :
    decodeLane .x w ⟨none, optE (encE e1.toNat e2.toNat e3.toNat e4.toNat)⟩ = .ok (.xcb c hd tok fl e1 e2 e3 e4) := by
  have he : ((⟨none, optE (encE e1.toNat e2.toNat e3.toNat e4.toNat)⟩ : Ext)).e2w = e1.toNat * 2097152 + e2.toNat * 16384 + e3.toNat * 128 + e4.toNat := e2w_optE (Nat.lt_of_lt_of_le e1.isLt (by decide)) (Nat.lt_of_lt_of_le e2.isLt (by decide)) (Nat.lt_of_lt_of_le e3.isLt (by decide)) (Nat.lt_of_lt_of_le e4.isLt (by decide))
  generalize hx : (⟨none, optE (encE e1.toNat e2.toNat e3.toNat e4.toNat)⟩ : Ext) = x at he ⊢
  have hx0 : x.e0 = none := by rw [← hx]
  have d0 : w / 2 ^ 0 = ((((((3 * 2 ^ 1 + 0) * 2 ^ 3 + c.toNat) * 2 ^ 4 + hd.toNat) * 2 ^ 4 + 0) * 2 ^ 4 + encTok tok) * 2 ^ 6 + encFl fl) * 2 ^ 2 + 0 := by omega
  have d1 := div_next d0 (by decide)
  have d2 := div_next d1 (encFl_lt fl)
  have d3 := div_next d2 (encTok_lt tok)
  have d4 := div_next d3 (by decide)
  have d5 := div_next d4 hd.isLt
  have d6 := div_next d5 c.isLt
  have hop := congrArg (· % 256) (div_next d6 (by decide))
  have f0 : fld 3 20 w = c := fld_at d5
  have f1 : fld 4 16 w = hd := fld_at d4
  have f2 : fld 6 21 x.e2w = e1 := fld_eq (by omega)
  have f3 : fld 6 14 x.e2w = e2 := fld_eq (by omega)
  have f4 : fld 6 7 x.e2w = e3 := fld_eq (by omega)
  have f5 : fld 6 0 x.e2w = e4 := fld_eq (by omega)
  have f6 : fld 1 27 x.e2w = 0#1 := fld_lit 0 (by omega)
  have f7 : fld 1 20 x.e2w = 0#1 := fld_lit 0 (by omega)
  have f8 : fld 1 13 x.e2w = 0#1 := fld_lit 0 (by omega)
  have f9 : fld 1 6 x.e2w = 0#1 := fld_lit 0 (by omega)
  have f10 : fld 2 0 w = 0#2 := fld_num d0
  have f11 : fld 4 12 w = 0#4 := fld_num d3
  have f12 : fld 1 23 w = 0#1 := fld_num d6
  have f13 : (if fld 1 11 w = 1#1 then some (fld 3 8 w) else none) = tok := fld_tok (mod_at d2 (encTok_lt tok))
  have f14 : (fld 1 11 w = 1#1 ∨ fld 3 8 w = 0#3) = True := eq_true (fld_tokOk (tok := tok) (mod_at d2 (encTok_lt tok)))
  have f15 : (if fld 1 7 w = 1#1 then some (fld 5 2 w) else none) = fl := fld_fl (mod_at d1 (encFl_lt fl))
  have f16 : (fld 1 7 w = 1#1 ∨ fld 5 2 w = 0#5) = True := eq_true (fld_flOk (fl := fl) (mod_at d1 (encFl_lt fl)))
  clear hw d0 d1 d2 d3 d4 d5 d6
  simp only [Bool.and_eq_true] at hwf
  obtain ⟨⟨⟨w1, w2⟩, w3⟩, w4⟩ := hwf
  have hm : decodeCopy w x = (decXcb w x) := by unfold decodeCopy; rw [show w / 16777216 % 256 = 3 from hop]; rfl
  show decodeCopy w x = _
  rw [hm]
  unfold decXcb
  simp only [need, f0, f1, f2, f3, f4, f5, f6, f7, f8, f9, f10, f11, f12, f13, f14, f15, f16, w1, w2, w3, w4, hx0, if_true, decide_true, Option.isNone, Option.isSome, Bool.and_self, Option.getD]
  rfl

theorem decodeLane_xhost (t : TsReg) (dir : Bool) (tok : Tok) (fl : Fl) (e1 : CSrc) (e2 : CSrc) (e3 : CSrc)
    (hwf : (decide (e1.toNat < 32) && decide (e2.toNat < 32) && decide (e3.toNat < 32)) = true) (w : Nat) (hw : 67108864 + t.toNat * 1048576 + dir.toNat * 4096 + encTok tok * 256 + encFl fl * 4 = w) :
    decodeLane .x w ⟨none, optE (encE e1.toNat e2.toNat e3.toNat 0)⟩ = .ok (.xhost t dir tok fl e1 e2 e3) := by
  have he : ((⟨none, optE (encE e1.toNat e2.toNat e3.toNat 0)⟩ : Ext)).e2w = e1.toNat * 2097152 + e2.toNat * 16384 + e3.toNat * 128 + 0 := e2w_optE (Nat.lt_of_lt_of_le e1.isLt (by decide)) (Nat.lt_of_lt_of_le e2.isLt (by decide)) (Nat.lt_of_lt_of_le e3.isLt (by decide)) (by decide)
  generalize hx : (⟨none, optE (encE e1.toNat e2.toNat e3.toNat 0)⟩ : Ext) = x at he ⊢
  have hx0 : x.e0 = none := by rw [← hx]
  have d0 : w / 2 ^ 0 = (((((4 * 2 ^ 4 + t.toNat) * 2 ^ 7 + 0) * 2 ^ 1 + dir.toNat) * 2 ^ 4 + encTok tok) * 2 ^ 6 + encFl fl) * 2 ^ 2 + 0 := by omega
  have d1 := div_next d0 (by decide)
  have d2 := div_next d1 (encFl_lt fl)
  have d3 := div_next d2 (encTok_lt tok)
  have d4 := div_next d3 (Bool.toNat_lt dir)
  have d5 := div_next d4 (by decide)
  have hop := congrArg (· % 256) (div_next d5 t.isLt)
  have f0 : fld 4 20 w = t := fld_at d5
  have f1 : decide (fld 1 12 w = 1#1) = dir := fld_bool (mod_at d3 (Bool.toNat_lt dir))
  have f2 : fld 6 21 x.e2w = e1 := fld_eq (by omega)
  have f3 : fld 6 14 x.e2w = e2 := fld_eq (by omega)
  have f4 : fld 6 7 x.e2w = e3 := fld_eq (by omega)
  have f5 : fld 1 27 x.e2w = 0#1 := fld_lit 0 (by omega)
  have f6 : fld 1 20 x.e2w = 0#1 := fld_lit 0 (by omega)
  have f7 : fld 1 13 x.e2w = 0#1 := fld_lit 0 (by omega)
  have f8 : fld 2 0 w = 0#2 := fld_num d0
  have f9 : fld 7 13 w = 0#7 := fld_num d4
  have f10 : fld 7 0 x.e2w = 0#7 := fld_lit 0 (by omega)
  have f11 : (if fld 1 11 w = 1#1 then some (fld 3 8 w) else none) = tok := fld_tok (mod_at d2 (encTok_lt tok))
  have f12 : (fld 1 11 w = 1#1 ∨ fld 3 8 w = 0#3) = True := eq_true (fld_tokOk (tok := tok) (mod_at d2 (encTok_lt tok)))
  have f13 : (if fld 1 7 w = 1#1 then some (fld 5 2 w) else none) = fl := fld_fl (mod_at d1 (encFl_lt fl))
  have f14 : (fld 1 7 w = 1#1 ∨ fld 5 2 w = 0#5) = True := eq_true (fld_flOk (fl := fl) (mod_at d1 (encFl_lt fl)))
  clear hw d0 d1 d2 d3 d4 d5
  simp only [Bool.and_eq_true] at hwf
  obtain ⟨⟨w1, w2⟩, w3⟩ := hwf
  have hm : decodeCopy w x = (decXhost w x) := by unfold decodeCopy; rw [show w / 16777216 % 256 = 4 from hop]; rfl
  show decodeCopy w x = _
  rw [hm]
  unfold decXhost
  simp only [need, f0, f1, f2, f3, f4, f5, f6, f7, f8, f9, f10, f11, f12, f13, f14, w1, w2, w3, hx0, if_true, decide_true, Option.isNone, Option.isSome, Bool.and_self, Option.getD]
  rfl

theorem decodeLane_xpeer (t : TsReg) (dir : Bool) (tok : Tok) (fl : Fl) (e1 : CSrc)
    (hwf : (decide (e1.toNat < 32)) = true) (w : Nat) (hw : 83886080 + t.toNat * 1048576 + dir.toNat * 4096 + encTok tok * 256 + encFl fl * 4 = w) :
    decodeLane .x w ⟨none, optE (encE e1.toNat 0 0 0)⟩ = .ok (.xpeer t dir tok fl e1) := by
  have he : ((⟨none, optE (encE e1.toNat 0 0 0)⟩ : Ext)).e2w = e1.toNat * 2097152 + 0 * 16384 + 0 * 128 + 0 := e2w_optE (Nat.lt_of_lt_of_le e1.isLt (by decide)) (by decide) (by decide) (by decide)
  generalize hx : (⟨none, optE (encE e1.toNat 0 0 0)⟩ : Ext) = x at he ⊢
  have hx0 : x.e0 = none := by rw [← hx]
  have d0 : w / 2 ^ 0 = (((((5 * 2 ^ 4 + t.toNat) * 2 ^ 7 + 0) * 2 ^ 1 + dir.toNat) * 2 ^ 4 + encTok tok) * 2 ^ 6 + encFl fl) * 2 ^ 2 + 0 := by omega
  have d1 := div_next d0 (by decide)
  have d2 := div_next d1 (encFl_lt fl)
  have d3 := div_next d2 (encTok_lt tok)
  have d4 := div_next d3 (Bool.toNat_lt dir)
  have d5 := div_next d4 (by decide)
  have hop := congrArg (· % 256) (div_next d5 t.isLt)
  have f0 : fld 4 20 w = t := fld_at d5
  have f1 : decide (fld 1 12 w = 1#1) = dir := fld_bool (mod_at d3 (Bool.toNat_lt dir))
  have f2 : fld 6 21 x.e2w = e1 := fld_eq (by omega)
  have f3 : fld 1 27 x.e2w = 0#1 := fld_lit 0 (by omega)
  have f4 : fld 2 0 w = 0#2 := fld_num d0
  have f5 : fld 7 13 w = 0#7 := fld_num d4
  have f6 : fld 7 14 x.e2w = 0#7 := fld_lit 0 (by omega)
  have f7 : fld 7 7 x.e2w = 0#7 := fld_lit 0 (by omega)
  have f8 : fld 7 0 x.e2w = 0#7 := fld_lit 0 (by omega)
  have f9 : (if fld 1 11 w = 1#1 then some (fld 3 8 w) else none) = tok := fld_tok (mod_at d2 (encTok_lt tok))
  have f10 : (fld 1 11 w = 1#1 ∨ fld 3 8 w = 0#3) = True := eq_true (fld_tokOk (tok := tok) (mod_at d2 (encTok_lt tok)))
  have f11 : (if fld 1 7 w = 1#1 then some (fld 5 2 w) else none) = fl := fld_fl (mod_at d1 (encFl_lt fl))
  have f12 : (fld 1 7 w = 1#1 ∨ fld 5 2 w = 0#5) = True := eq_true (fld_flOk (fl := fl) (mod_at d1 (encFl_lt fl)))
  clear hw d0 d1 d2 d3 d4 d5
  have hm : decodeCopy w x = (decXpeer w x) := by unfold decodeCopy; rw [show w / 16777216 % 256 = 5 from hop]; rfl
  show decodeCopy w x = _
  rw [hm]
  unfold decXpeer
  simp only [need, f0, f1, f2, f3, f4, f5, f6, f7, f8, f9, f10, f11, f12, hwf, hx0, if_true, decide_true, Option.isNone, Option.isSome, Bool.and_self, Option.getD]
  rfl

theorem decodeLane_xcoll (t : TsReg) (rm : BitVec 3) (op : BitVec 2) (tok : Tok) (fl : Fl) (e1 : CSrc) (e2 : CSrc)
    (hwf : (decide (e1.toNat < 32) && decide (e2.toNat < 32) && decide (op.toNat ≤ 2)) = true) (w : Nat) (hw : 100663296 + t.toNat * 1048576 + rm.toNat * 65536 + op.toNat * 4096 + encTok tok * 256 + encFl fl * 4 = w) :
    decodeLane .x w ⟨none, optE (encE e1.toNat e2.toNat 0 0)⟩ = .ok (.xcoll t rm op tok fl e1 e2) := by
  have he : ((⟨none, optE (encE e1.toNat e2.toNat 0 0)⟩ : Ext)).e2w = e1.toNat * 2097152 + e2.toNat * 16384 + 0 * 128 + 0 := e2w_optE (Nat.lt_of_lt_of_le e1.isLt (by decide)) (Nat.lt_of_lt_of_le e2.isLt (by decide)) (by decide) (by decide)
  generalize hx : (⟨none, optE (encE e1.toNat e2.toNat 0 0)⟩ : Ext) = x at he ⊢
  have hx0 : x.e0 = none := by rw [← hx]
  have d0 : w / 2 ^ 0 = (((((((6 * 2 ^ 4 + t.toNat) * 2 ^ 1 + 0) * 2 ^ 3 + rm.toNat) * 2 ^ 2 + 0) * 2 ^ 2 + op.toNat) * 2 ^ 4 + encTok tok) * 2 ^ 6 + encFl fl) * 2 ^ 2 + 0 := by omega
  have d1 := div_next d0 (by decide)
  have d2 := div_next d1 (encFl_lt fl)
  have d3 := div_next d2 (encTok_lt tok)
  have d4 := div_next d3 op.isLt
  have d5 := div_next d4 (by decide)
  have d6 := div_next d5 rm.isLt
  have d7 := div_next d6 (by decide)
  have hop := congrArg (· % 256) (div_next d7 t.isLt)
  have f0 : fld 4 20 w = t := fld_at d7
  have f1 : fld 3 16 w = rm := fld_at d5
  have f2 : fld 2 12 w = op := fld_at d3
  have f3 : fld 6 21 x.e2w = e1 := fld_eq (by omega)
  have f4 : fld 6 14 x.e2w = e2 := fld_eq (by omega)
  have f5 : fld 1 27 x.e2w = 0#1 := fld_lit 0 (by omega)
  have f6 : fld 1 20 x.e2w = 0#1 := fld_lit 0 (by omega)
  have f7 : fld 2 0 w = 0#2 := fld_num d0
  have f8 : fld 2 14 w = 0#2 := fld_num d4
  have f9 : fld 1 19 w = 0#1 := fld_num d6
  have f10 : fld 7 7 x.e2w = 0#7 := fld_lit 0 (by omega)
  have f11 : fld 7 0 x.e2w = 0#7 := fld_lit 0 (by omega)
  have f12 : (if fld 1 11 w = 1#1 then some (fld 3 8 w) else none) = tok := fld_tok (mod_at d2 (encTok_lt tok))
  have f13 : (fld 1 11 w = 1#1 ∨ fld 3 8 w = 0#3) = True := eq_true (fld_tokOk (tok := tok) (mod_at d2 (encTok_lt tok)))
  have f14 : (if fld 1 7 w = 1#1 then some (fld 5 2 w) else none) = fl := fld_fl (mod_at d1 (encFl_lt fl))
  have f15 : (fld 1 7 w = 1#1 ∨ fld 5 2 w = 0#5) = True := eq_true (fld_flOk (fl := fl) (mod_at d1 (encFl_lt fl)))
  clear hw d0 d1 d2 d3 d4 d5 d6 d7
  simp only [Bool.and_eq_true] at hwf
  obtain ⟨⟨w1, w2⟩, w3⟩ := hwf
  have hm : decodeCopy w x = (decXcoll w x) := by unfold decodeCopy; rw [show w / 16777216 % 256 = 6 from hop]; rfl
  show decodeCopy w x = _
  rw [hm]
  unfold decXcoll
  simp only [need, f0, f1, f2, f3, f4, f5, f6, f7, f8, f9, f10, f11, f12, f13, f14, f15, w1, w2, w3, hx0, if_true, decide_true, Option.isNone, Option.isSome, Bool.and_self, Option.getD]
  rfl

theorem decodeLane_xgath (q : QReg) (hd : ThReg) (t : TsReg) (tok : Tok) (fl : Fl) (e1 : CSrc) (e2 : CSrc)
    (hwf : (decide (e1.toNat < 32) && decide (e2.toNat < 32) && decide (q.toNat ≤ 3)) = true) (w : Nat) (hw : 117440512 + q.toNat * 1048576 + hd.toNat * 65536 + t.toNat * 4096 + encTok tok * 256 + encFl fl * 4 = w) :
    decodeLane .x w ⟨none, optE (encE e1.toNat e2.toNat 0 0)⟩ = .ok (.xgath q hd t tok fl e1 e2) := by
  have he : ((⟨none, optE (encE e1.toNat e2.toNat 0 0)⟩ : Ext)).e2w = e1.toNat * 2097152 + e2.toNat * 16384 + 0 * 128 + 0 := e2w_optE (Nat.lt_of_lt_of_le e1.isLt (by decide)) (Nat.lt_of_lt_of_le e2.isLt (by decide)) (by decide) (by decide)
  generalize hx : (⟨none, optE (encE e1.toNat e2.toNat 0 0)⟩ : Ext) = x at he ⊢
  have hx0 : x.e0 = none := by rw [← hx]
  have d0 : w / 2 ^ 0 = ((((((7 * 2 ^ 1 + 0) * 2 ^ 3 + q.toNat) * 2 ^ 4 + hd.toNat) * 2 ^ 4 + t.toNat) * 2 ^ 4 + encTok tok) * 2 ^ 6 + encFl fl) * 2 ^ 2 + 0 := by omega
  have d1 := div_next d0 (by decide)
  have d2 := div_next d1 (encFl_lt fl)
  have d3 := div_next d2 (encTok_lt tok)
  have d4 := div_next d3 t.isLt
  have d5 := div_next d4 hd.isLt
  have d6 := div_next d5 q.isLt
  have hop := congrArg (· % 256) (div_next d6 (by decide))
  have f0 : fld 3 20 w = q := fld_at d5
  have f1 : fld 4 16 w = hd := fld_at d4
  have f2 : fld 4 12 w = t := fld_at d3
  have f3 : fld 6 21 x.e2w = e1 := fld_eq (by omega)
  have f4 : fld 6 14 x.e2w = e2 := fld_eq (by omega)
  have f5 : fld 1 23 w = 0#1 := fld_num d6
  have f6 : fld 1 27 x.e2w = 0#1 := fld_lit 0 (by omega)
  have f7 : fld 1 20 x.e2w = 0#1 := fld_lit 0 (by omega)
  have f8 : fld 2 0 w = 0#2 := fld_num d0
  have f9 : fld 7 7 x.e2w = 0#7 := fld_lit 0 (by omega)
  have f10 : fld 7 0 x.e2w = 0#7 := fld_lit 0 (by omega)
  have f11 : (if fld 1 11 w = 1#1 then some (fld 3 8 w) else none) = tok := fld_tok (mod_at d2 (encTok_lt tok))
  have f12 : (fld 1 11 w = 1#1 ∨ fld 3 8 w = 0#3) = True := eq_true (fld_tokOk (tok := tok) (mod_at d2 (encTok_lt tok)))
  have f13 : (if fld 1 7 w = 1#1 then some (fld 5 2 w) else none) = fl := fld_fl (mod_at d1 (encFl_lt fl))
  have f14 : (fld 1 7 w = 1#1 ∨ fld 5 2 w = 0#5) = True := eq_true (fld_flOk (fl := fl) (mod_at d1 (encFl_lt fl)))
  clear hw d0 d1 d2 d3 d4 d5 d6
  simp only [Bool.and_eq_true] at hwf
  obtain ⟨⟨w1, w2⟩, w3⟩ := hwf
  have hm : decodeCopy w x = (decXgath w x) := by unfold decodeCopy; rw [show w / 16777216 % 256 = 7 from hop]; rfl
  show decodeCopy w x = _
  rw [hm]
  unfold decXgath
  simp only [need, f0, f1, f2, f3, f4, f5, f6, f7, f8, f9, f10, f11, f12, f13, f14, w1, w2, w3, hx0, if_true, decide_true, Option.isNone, Option.isSome, Bool.and_self, Option.getD]
  rfl

theorem decodeLane_xpf (hd : ThReg) (e1 : CSrc) (e2 : CSrc) (e3 : CSrc) (e4 : CSrc)
    (hwf : (decide (e1.toNat < 32) && decide (e2.toNat < 32) && decide (e3.toNat < 32) && decide (e4.toNat < 32)) = true) (w : Nat) (hw : 134217728 + hd.toNat * 65536 = w) :
    decodeLane .x w ⟨none, optE (encE e1.toNat e2.toNat e3.toNat e4.toNat)⟩ = .ok (.xpf hd e1 e2 e3 e4) := by
  have he : ((⟨none, optE (encE e1.toNat e2.toNat e3.toNat e4.toNat)⟩ : Ext)).e2w = e1.toNat * 2097152 + e2.toNat * 16384 + e3.toNat * 128 + e4.toNat := e2w_optE (Nat.lt_of_lt_of_le e1.isLt (by decide)) (Nat.lt_of_lt_of_le e2.isLt (by decide)) (Nat.lt_of_lt_of_le e3.isLt (by decide)) (Nat.lt_of_lt_of_le e4.isLt (by decide))
  generalize hx : (⟨none, optE (encE e1.toNat e2.toNat e3.toNat e4.toNat)⟩ : Ext) = x at he ⊢
  have hx0 : x.e0 = none := by rw [← hx]
  have d0 : w / 2 ^ 0 = ((8 * 2 ^ 4 + 0) * 2 ^ 4 + hd.toNat) * 2 ^ 16 + 0 := by omega
  have d1 := div_next d0 (by decide)
  have d2 := div_next d1 hd.isLt
  have hop := congrArg (· % 256) (div_next d2 (by decide))
  have f0 : fld 4 16 w = hd := fld_at d1
  have f1 : fld 6 21 x.e2w = e1 := fld_eq (by omega)
  have f2 : fld 6 14 x.e2w = e2 := fld_eq (by omega)
  have f3 : fld 6 7 x.e2w = e3 := fld_eq (by omega)
  have f4 : fld 6 0 x.e2w = e4 := fld_eq (by omega)
  have f5 : fld 1 27 x.e2w = 0#1 := fld_lit 0 (by omega)
  have f6 : fld 1 20 x.e2w = 0#1 := fld_lit 0 (by omega)
  have f7 : fld 1 13 x.e2w = 0#1 := fld_lit 0 (by omega)
  have f8 : fld 1 6 x.e2w = 0#1 := fld_lit 0 (by omega)
  have f9 : fld 16 0 w = 0#16 := fld_num d0
  have f10 : fld 4 20 w = 0#4 := fld_num d2
  clear hw d0 d1 d2
  simp only [Bool.and_eq_true] at hwf
  obtain ⟨⟨⟨w1, w2⟩, w3⟩, w4⟩ := hwf
  have hm : decodeCopy w x = (decXpf w x) := by unfold decodeCopy; rw [show w / 16777216 % 256 = 8 from hop]; rfl
  show decodeCopy w x = _
  rw [hm]
  unfold decXpf
  simp only [need, f0, f1, f2, f3, f4, f5, f6, f7, f8, f9, f10, w1, w2, w3, w4, hx0, if_true, decide_true, Option.isNone, Option.isSome, Bool.and_self, Option.getD]
  rfl

theorem decodeLane_xfence (scope : Scope) (tok : Tok) (fl : Fl)
    (hwf : (true) = true) (w : Nat) (hw : 150994944 + scope.toNat * 1048576 + encTok tok * 256 + encFl fl * 4 = w) :
    decodeLane .x w ⟨none, none⟩ = .ok (.xfence scope tok fl) := by
  have d0 : w / 2 ^ 0 = (((((9 * 2 ^ 1 + 0) * 2 ^ 3 + scope.toNat) * 2 ^ 8 + 0) * 2 ^ 4 + encTok tok) * 2 ^ 6 + encFl fl) * 2 ^ 2 + 0 := by omega
  have d1 := div_next d0 (by decide)
  have d2 := div_next d1 (encFl_lt fl)
  have d3 := div_next d2 (encTok_lt tok)
  have d4 := div_next d3 (by decide)
  have d5 := div_next d4 (Scope.toNat_lt scope)
  have hop := congrArg (· % 256) (div_next d5 (by decide))
  have f0 : Scope.ofNat? (fld 3 20 w).toNat = some scope := fld_scope (mod_at d4 (Scope.toNat_lt scope)) (by decide)
  have f1 : fld 2 0 w = 0#2 := fld_num d0
  have f2 : fld 8 12 w = 0#8 := fld_num d3
  have f3 : fld 1 23 w = 0#1 := fld_num d5
  have f4 : (if fld 1 11 w = 1#1 then some (fld 3 8 w) else none) = tok := fld_tok (mod_at d2 (encTok_lt tok))
  have f5 : (fld 1 11 w = 1#1 ∨ fld 3 8 w = 0#3) = True := eq_true (fld_tokOk (tok := tok) (mod_at d2 (encTok_lt tok)))
  have f6 : (if fld 1 7 w = 1#1 then some (fld 5 2 w) else none) = fl := fld_fl (mod_at d1 (encFl_lt fl))
  have f7 : (fld 1 7 w = 1#1 ∨ fld 5 2 w = 0#5) = True := eq_true (fld_flOk (fl := fl) (mod_at d1 (encFl_lt fl)))
  clear hw d0 d1 d2 d3 d4 d5
  have hm : decodeCopy w ⟨none, none⟩ = (decXfence w ⟨none, none⟩) := by unfold decodeCopy; rw [show w / 16777216 % 256 = 9 from hop]; rfl
  show decodeCopy w ⟨none, none⟩ = _
  rw [hm]
  unfold decXfence
  simp only [need, f0, f1, f2, f3, f4, f5, f6, f7, if_true, decide_true, Option.isNone, Option.isSome, Bool.and_self, Option.getD]
  rfl

end Sys2Proof
end

