-- ==== Sys2Proof/Laws/Sparse.lean ====
section
/-! SUPPORT. What a sparse map answers after an update, and that every update keeps its canonical form. -/

namespace Sys2Proof.Sparse

variable {α : Type}

theorem get_erase_same (d : α) (m : Sparse α) (i : Nat) : get d (erase m i) i = d := by
  induction m with
  | nil => rfl
  | cons p m ih =>
    obtain ⟨k, v⟩ := p
    by_cases h : k = i
    · rw [erase, if_pos h]; exact ih
    · rw [erase, if_neg h, get, if_neg h]; exact ih

theorem get_erase_ne (d : α) (m : Sparse α) {i j : Nat} (hij : j ≠ i) : get d (erase m i) j = get d m j := by
  induction m with
  | nil => rfl
  | cons p m ih =>
    obtain ⟨k, v⟩ := p
    by_cases h : k = i
    · rw [erase, if_pos h, get, if_neg (fun e => hij (e.symm.trans h)), ih]
    · rw [erase, if_neg h, get, get, ih]

theorem get_insert_same (d : α) (m : Sparse α) (i : Nat) (v : α) : get d (insert i v (erase m i)) i = v := by
  induction m with
  | nil => simp [erase, insert, get]
  | cons p m ih =>
    obtain ⟨k, w⟩ := p
    by_cases h : k = i
    · rw [erase, if_pos h]; exact ih
    · rw [erase, if_neg h, insert]
      by_cases g : i < k
      · rw [if_pos g, get, if_pos rfl]
      · rw [if_neg g, get, if_neg h]; exact ih

theorem get_insert_ne (d : α) (m : Sparse α) {i j : Nat} (v : α) (hij : j ≠ i) : get d (insert i v m) j = get d m j := by
  induction m with
  | nil => simp [insert, get, Ne.symm hij]
  | cons p m ih =>
    obtain ⟨k, w⟩ := p
    rw [insert]
    split
    · rw [get, if_neg (Ne.symm hij)]
    · rw [get, get, ih]

theorem all_erase {p : Nat × α → Bool} {m : Sparse α} (h : m.all p = true) (i : Nat) : (erase m i).all p = true := by
  induction m with
  | nil => rfl
  | cons q m ih =>
    obtain ⟨k, v⟩ := q
    rw [List.all_cons, Bool.and_eq_true] at h
    rw [erase]
    split
    · exact ih h.2
    · rw [List.all_cons, h.1, ih h.2]; rfl

theorem all_insert {p : Nat × α → Bool} {m : Sparse α} {i : Nat} {v : α} (h : m.all p = true) (hp : p (i, v) = true) :
    (insert i v m).all p = true := by
  induction m with
  | nil => simp [insert, hp]
  | cons q m ih =>
    obtain ⟨k, w⟩ := q
    rw [insert]
    split
    · rw [List.all_cons, hp, h]; rfl
    · rw [List.all_cons, Bool.and_eq_true] at h
      rw [List.all_cons, h.1, ih h.2]; rfl

variable [DecidableEq α]

/-- A key that was set holds the value. -/
@[simp] theorem get_set_same (d : α) (m : Sparse α) (i : Nat) (v : α) : get d (set d m i v) i = v := by
  unfold set
  split
  · rename_i h; rw [get_erase_same, h]
  · exact get_insert_same d m i v

/-- Every other key holds what it held. -/
theorem get_set_ne (d : α) (m : Sparse α) {i j : Nat} (v : α) (h : j ≠ i) : get d (set d m i v) j = get d m j := by
  unfold set
  split
  · exact get_erase_ne d m h
  · rw [get_insert_ne d _ v h, get_erase_ne d m h]

theorem get_set (d : α) (m : Sparse α) (i j : Nat) (v : α) : get d (set d m i v) j = if j = i then v else get d m j := by
  by_cases h : j = i
  · rw [if_pos h, h, get_set_same]
  · rw [if_neg h, get_set_ne d m v h]

theorem wf_cons {d : α} {k : Nat} {v : α} {m : Sparse α} :
    wf d ((k, v) :: m) = true ↔ v ≠ d ∧ (m.all fun p => decide (k < p.1)) = true ∧ wf d m = true := by
  unfold wf; rw [Bool.and_eq_true, Bool.and_eq_true, decide_eq_true_iff, and_assoc]
  cases m <;> rfl

theorem wf_erase {d : α} {m : Sparse α} (h : wf d m = true) (i : Nat) : wf d (erase m i) = true := by
  induction m with
  | nil => rfl
  | cons p m ih =>
    obtain ⟨k, v⟩ := p
    have h := wf_cons.1 h
    rw [erase]
    split
    · exact ih h.2.2
    · exact wf_cons.2 ⟨h.1, all_erase h.2.1 i, ih h.2.2⟩

theorem wf_insert {d : α} {m : Sparse α} (h : wf d m = true) {i : Nat} {v : α} (hv : v ≠ d) (hi : get d m i = d) :
    wf d (insert i v m) = true := by
  induction m with
  | nil => exact wf_cons.2 ⟨hv, rfl, rfl⟩
  | cons p m ih =>
    obtain ⟨k, w⟩ := p
    have hm := wf_cons.1 h
    have hk : k ≠ i := by
      rintro rfl
      rw [get, if_pos rfl] at hi
      exact hm.1 hi
    rw [get, if_neg hk] at hi
    rw [insert]
    split
    · rename_i g
      refine wf_cons.2 ⟨hv, ?_, h⟩
      rw [List.all_cons, Bool.and_eq_true, decide_eq_true_iff]
      refine ⟨g, List.all_eq_true.2 fun q hq => decide_eq_true ?_⟩
      exact Nat.lt_trans g (of_decide_eq_true (List.all_eq_true.1 hm.2.1 q hq))
    · rename_i g
      exact wf_cons.2 ⟨hm.1, all_insert hm.2.1 (decide_eq_true (by omega)), ih hm.2.2 hi⟩

/-- Setting a key keeps the canonical form. -/
theorem wf_set {d : α} {m : Sparse α} (h : wf d m = true) (i : Nat) (v : α) : wf d (set d m i v) = true := by
  unfold set
  split
  · exact wf_erase h i
  · rename_i hv; exact wf_insert (wf_erase h i) hv (get_erase_same d m i)

/-- Keeping part of a map keeps the canonical form. -/
theorem wf_filter {d : α} {m : Sparse α} (h : wf d m = true) (p : Nat × α → Bool) : wf d (m.filter p) = true := by
  induction m with
  | nil => rfl
  | cons q m ih =>
    obtain ⟨k, v⟩ := q
    have hm := wf_cons.1 h
    rw [List.filter_cons]
    split
    · refine wf_cons.2 ⟨hm.1, List.all_eq_true.2 fun q hq => ?_, ih hm.2.2⟩
      exact List.all_eq_true.1 hm.2.1 q (List.mem_filter.1 hq).1
    · exact ih hm.2.2

/-- Setting consecutive keys keeps the canonical form. -/
theorem wf_setMany {d : α} {m : Sparse α} (h : wf d m = true) (a : Nat) (l : List α) : wf d (setMany d m a l) = true := by
  induction l generalizing m a with
  | nil => exact h
  | cons v l ih => exact ih (wf_set h a v) (a + 1)

theorem get_setMany_lt (d : α) (l : List α) (m : Sparse α) (a j : Nat) (h : j < a) :
    get d (setMany d m a l) j = get d m j := by
  induction l generalizing m a with
  | nil => rfl
  | cons v l ih => rw [setMany, ih _ _ (by omega), get_set_ne d m v (by omega)]

theorem get_setMany_ge (d : α) (l : List α) (m : Sparse α) (a j : Nat) (h : a + l.length ≤ j) :
    get d (setMany d m a l) j = get d m j := by
  induction l generalizing m a with
  | nil => rfl
  | cons v l ih =>
    rw [List.length_cons] at h
    rw [setMany, ih _ _ (by omega), get_set_ne d m v (by omega)]

/-- Reading consecutive keys gives what was set there. -/
theorem getMany_setMany (d : α) (l : List α) (m : Sparse α) (a : Nat) : getMany d (setMany d m a l) a l.length = l := by
  induction l generalizing m a with
  | nil => rfl
  | cons v l ih =>
    rw [setMany, List.length_cons, getMany, get_setMany_lt d l _ _ a (by omega), get_set_same, ih]

end Sys2Proof.Sparse
end

