-- ==== Sys2Proof/Laws/State.lean ====
section
/-! SUPPORT. What each update of the state leaves in each of its parts. -/

namespace Sys2Proof.Machine

open Sys2Proof

@[simp] theorem State.setCore_cur (s : State) (c : Core) :
    (s.setCore c).cur = s.cur := rfl
@[simp] theorem State.setCore_lanterns (s : State) (c : Core) :
    (s.setCore c).lanterns = s.lanterns := rfl
@[simp] theorem State.setCore_dev (s : State) (c : Core) :
    (s.setCore c).dev = s.dev := rfl
@[simp] theorem State.setCore_agenda (s : State) (c : Core) :
    (s.setCore c).agenda = s.agenda := rfl
@[simp] theorem State.setCoreAt_cur (s : State) (n : Nat) (c : Core) :
    (s.setCoreAt n c).cur = s.cur := rfl
@[simp] theorem State.setCoreAt_lanterns (s : State) (n : Nat) (c : Core) :
    (s.setCoreAt n c).lanterns = s.lanterns := rfl
@[simp] theorem State.setCoreAt_dev (s : State) (n : Nat) (c : Core) :
    (s.setCoreAt n c).dev = s.dev := rfl
@[simp] theorem State.setCoreAt_agenda (s : State) (n : Nat) (c : Core) :
    (s.setCoreAt n c).agenda = s.agenda := rfl
@[simp] theorem State.focus_cores (s : State) (n : Nat) :
    (s.focus n).cores = s.cores := rfl
@[simp] theorem State.focus_lanterns (s : State) (n : Nat) :
    (s.focus n).lanterns = s.lanterns := rfl
@[simp] theorem State.focus_dev (s : State) (n : Nat) :
    (s.focus n).dev = s.dev := rfl
@[simp] theorem State.focus_agenda (s : State) (n : Nat) :
    (s.focus n).agenda = s.agenda := rfl
@[simp] theorem State.focus_cur (s : State) (n : Nat) :
    (s.focus n).cur = n := rfl
@[simp] theorem State.core_setCore (s : State) (c : Core) :
    (s.setCore c).core = c := Sparse.get_set_same ..
@[simp] theorem State.coreAt_setCoreAt (s : State) (n : Nat) (c : Core) :
    (s.setCoreAt n c).coreAt n = c := Sparse.get_set_same ..
theorem State.coreAt_setCoreAt_ne (s : State) {n k : Nat} (c : Core) (h : k ≠ n) : (s.setCoreAt n c).coreAt k = s.coreAt k :=
  Sparse.get_set_ne _ _ _ h
theorem State.coreAt_setCore_ne (s : State) {k : Nat} (c : Core) (h : k ≠ s.cur) : (s.setCore c).coreAt k = s.coreAt k :=
  Sparse.get_set_ne _ _ _ h
@[simp] theorem State.coreAt_cur (s : State) :
    s.coreAt s.cur = s.core := rfl
@[simp] theorem State.core_focus (s : State) (n : Nat) :
    (s.focus n).core = s.coreAt n := rfl
@[simp] theorem State.modC_cur (s : State) (f : SegC → SegC) :
    (s.modC f).cur = s.cur := rfl
@[simp] theorem State.modC_lanterns (s : State) (f : SegC → SegC) :
    (s.modC f).lanterns = s.lanterns := rfl
@[simp] theorem State.modC_dev (s : State) (f : SegC → SegC) :
    (s.modC f).dev = s.dev := rfl
@[simp] theorem State.modC_agenda (s : State) (f : SegC → SegC) :
    (s.modC f).agenda = s.agenda := rfl
@[simp] theorem State.modC_core_c (s : State) (f : SegC → SegC) :
    (s.modC f).core.c = f s.core.c := by rw [State.modC, State.core_setCore]
@[simp] theorem State.modC_core_a (s : State) (f : SegC → SegC) :
    (s.modC f).core.a = s.core.a := by rw [State.modC, State.core_setCore]
@[simp] theorem State.modC_core_v (s : State) (f : SegC → SegC) :
    (s.modC f).core.v = s.core.v := by rw [State.modC, State.core_setCore]
@[simp] theorem State.modC_core_x (s : State) (f : SegC → SegC) :
    (s.modC f).core.x = s.core.x := by rw [State.modC, State.core_setCore]
@[simp] theorem State.modC_core_w (s : State) (f : SegC → SegC) :
    (s.modC f).core.w = s.core.w := by rw [State.modC, State.core_setCore]
@[simp] theorem State.modC_core_spad (s : State) (f : SegC → SegC) :
    (s.modC f).core.spad = s.core.spad := by rw [State.modC, State.core_setCore]
@[simp] theorem State.modC_core_tag (s : State) (f : SegC → SegC) :
    (s.modC f).core.tag = s.core.tag := by rw [State.modC, State.core_setCore]
@[simp] theorem State.modC_core_sys (s : State) (f : SegC → SegC) :
    (s.modC f).core.sys = s.core.sys := by rw [State.modC, State.core_setCore]
@[simp] theorem State.modC_core_turn (s : State) (f : SegC → SegC) :
    (s.modC f).core.turn = s.core.turn := by rw [State.modC, State.core_setCore]
theorem State.coreAt_modC_ne (s : State) (f : SegC → SegC) {k : Nat} (h : k ≠ s.cur) : (s.modC f).coreAt k = s.coreAt k :=
  State.coreAt_setCore_ne s _ h
@[simp] theorem State.modA_cur (s : State) (f : SegA → SegA) :
    (s.modA f).cur = s.cur := rfl
@[simp] theorem State.modA_lanterns (s : State) (f : SegA → SegA) :
    (s.modA f).lanterns = s.lanterns := rfl
@[simp] theorem State.modA_dev (s : State) (f : SegA → SegA) :
    (s.modA f).dev = s.dev := rfl
@[simp] theorem State.modA_agenda (s : State) (f : SegA → SegA) :
    (s.modA f).agenda = s.agenda := rfl
@[simp] theorem State.modA_core_c (s : State) (f : SegA → SegA) :
    (s.modA f).core.c = s.core.c := by rw [State.modA, State.core_setCore]
@[simp] theorem State.modA_core_a (s : State) (f : SegA → SegA) :
    (s.modA f).core.a = f s.core.a := by rw [State.modA, State.core_setCore]
@[simp] theorem State.modA_core_v (s : State) (f : SegA → SegA) :
    (s.modA f).core.v = s.core.v := by rw [State.modA, State.core_setCore]
@[simp] theorem State.modA_core_x (s : State) (f : SegA → SegA) :
    (s.modA f).core.x = s.core.x := by rw [State.modA, State.core_setCore]
@[simp] theorem State.modA_core_w (s : State) (f : SegA → SegA) :
    (s.modA f).core.w = s.core.w := by rw [State.modA, State.core_setCore]
@[simp] theorem State.modA_core_spad (s : State) (f : SegA → SegA) :
    (s.modA f).core.spad = s.core.spad := by rw [State.modA, State.core_setCore]
@[simp] theorem State.modA_core_tag (s : State) (f : SegA → SegA) :
    (s.modA f).core.tag = s.core.tag := by rw [State.modA, State.core_setCore]
@[simp] theorem State.modA_core_sys (s : State) (f : SegA → SegA) :
    (s.modA f).core.sys = s.core.sys := by rw [State.modA, State.core_setCore]
@[simp] theorem State.modA_core_turn (s : State) (f : SegA → SegA) :
    (s.modA f).core.turn = s.core.turn := by rw [State.modA, State.core_setCore]
theorem State.coreAt_modA_ne (s : State) (f : SegA → SegA) {k : Nat} (h : k ≠ s.cur) : (s.modA f).coreAt k = s.coreAt k :=
  State.coreAt_setCore_ne s _ h
@[simp] theorem State.modV_cur (s : State) (f : SegV → SegV) :
    (s.modV f).cur = s.cur := rfl
@[simp] theorem State.modV_lanterns (s : State) (f : SegV → SegV) :
    (s.modV f).lanterns = s.lanterns := rfl
@[simp] theorem State.modV_dev (s : State) (f : SegV → SegV) :
    (s.modV f).dev = s.dev := rfl
@[simp] theorem State.modV_agenda (s : State) (f : SegV → SegV) :
    (s.modV f).agenda = s.agenda := rfl
@[simp] theorem State.modV_core_c (s : State) (f : SegV → SegV) :
    (s.modV f).core.c = s.core.c := by rw [State.modV, State.core_setCore]
@[simp] theorem State.modV_core_a (s : State) (f : SegV → SegV) :
    (s.modV f).core.a = s.core.a := by rw [State.modV, State.core_setCore]
@[simp] theorem State.modV_core_v (s : State) (f : SegV → SegV) :
    (s.modV f).core.v = f s.core.v := by rw [State.modV, State.core_setCore]
@[simp] theorem State.modV_core_x (s : State) (f : SegV → SegV) :
    (s.modV f).core.x = s.core.x := by rw [State.modV, State.core_setCore]
@[simp] theorem State.modV_core_w (s : State) (f : SegV → SegV) :
    (s.modV f).core.w = s.core.w := by rw [State.modV, State.core_setCore]
@[simp] theorem State.modV_core_spad (s : State) (f : SegV → SegV) :
    (s.modV f).core.spad = s.core.spad := by rw [State.modV, State.core_setCore]
@[simp] theorem State.modV_core_tag (s : State) (f : SegV → SegV) :
    (s.modV f).core.tag = s.core.tag := by rw [State.modV, State.core_setCore]
@[simp] theorem State.modV_core_sys (s : State) (f : SegV → SegV) :
    (s.modV f).core.sys = s.core.sys := by rw [State.modV, State.core_setCore]
@[simp] theorem State.modV_core_turn (s : State) (f : SegV → SegV) :
    (s.modV f).core.turn = s.core.turn := by rw [State.modV, State.core_setCore]
theorem State.coreAt_modV_ne (s : State) (f : SegV → SegV) {k : Nat} (h : k ≠ s.cur) : (s.modV f).coreAt k = s.coreAt k :=
  State.coreAt_setCore_ne s _ h
@[simp] theorem State.modX_cur (s : State) (f : SegX → SegX) :
    (s.modX f).cur = s.cur := rfl
@[simp] theorem State.modX_lanterns (s : State) (f : SegX → SegX) :
    (s.modX f).lanterns = s.lanterns := rfl
@[simp] theorem State.modX_dev (s : State) (f : SegX → SegX) :
    (s.modX f).dev = s.dev := rfl
@[simp] theorem State.modX_agenda (s : State) (f : SegX → SegX) :
    (s.modX f).agenda = s.agenda := rfl
@[simp] theorem State.modX_core_c (s : State) (f : SegX → SegX) :
    (s.modX f).core.c = s.core.c := by rw [State.modX, State.core_setCore]
@[simp] theorem State.modX_core_a (s : State) (f : SegX → SegX) :
    (s.modX f).core.a = s.core.a := by rw [State.modX, State.core_setCore]
@[simp] theorem State.modX_core_v (s : State) (f : SegX → SegX) :
    (s.modX f).core.v = s.core.v := by rw [State.modX, State.core_setCore]
@[simp] theorem State.modX_core_x (s : State) (f : SegX → SegX) :
    (s.modX f).core.x = f s.core.x := by rw [State.modX, State.core_setCore]
@[simp] theorem State.modX_core_w (s : State) (f : SegX → SegX) :
    (s.modX f).core.w = s.core.w := by rw [State.modX, State.core_setCore]
@[simp] theorem State.modX_core_spad (s : State) (f : SegX → SegX) :
    (s.modX f).core.spad = s.core.spad := by rw [State.modX, State.core_setCore]
@[simp] theorem State.modX_core_tag (s : State) (f : SegX → SegX) :
    (s.modX f).core.tag = s.core.tag := by rw [State.modX, State.core_setCore]
@[simp] theorem State.modX_core_sys (s : State) (f : SegX → SegX) :
    (s.modX f).core.sys = s.core.sys := by rw [State.modX, State.core_setCore]
@[simp] theorem State.modX_core_turn (s : State) (f : SegX → SegX) :
    (s.modX f).core.turn = s.core.turn := by rw [State.modX, State.core_setCore]
theorem State.coreAt_modX_ne (s : State) (f : SegX → SegX) {k : Nat} (h : k ≠ s.cur) : (s.modX f).coreAt k = s.coreAt k :=
  State.coreAt_setCore_ne s _ h
@[simp] theorem State.modW_cur (s : State) (f : SegW → SegW) :
    (s.modW f).cur = s.cur := rfl
@[simp] theorem State.modW_lanterns (s : State) (f : SegW → SegW) :
    (s.modW f).lanterns = s.lanterns := rfl
@[simp] theorem State.modW_dev (s : State) (f : SegW → SegW) :
    (s.modW f).dev = s.dev := rfl
@[simp] theorem State.modW_agenda (s : State) (f : SegW → SegW) :
    (s.modW f).agenda = s.agenda := rfl
@[simp] theorem State.modW_core_c (s : State) (f : SegW → SegW) :
    (s.modW f).core.c = s.core.c := by rw [State.modW, State.core_setCore]
@[simp] theorem State.modW_core_a (s : State) (f : SegW → SegW) :
    (s.modW f).core.a = s.core.a := by rw [State.modW, State.core_setCore]
@[simp] theorem State.modW_core_v (s : State) (f : SegW → SegW) :
    (s.modW f).core.v = s.core.v := by rw [State.modW, State.core_setCore]
@[simp] theorem State.modW_core_x (s : State) (f : SegW → SegW) :
    (s.modW f).core.x = s.core.x := by rw [State.modW, State.core_setCore]
@[simp] theorem State.modW_core_w (s : State) (f : SegW → SegW) :
    (s.modW f).core.w = f s.core.w := by rw [State.modW, State.core_setCore]
@[simp] theorem State.modW_core_spad (s : State) (f : SegW → SegW) :
    (s.modW f).core.spad = s.core.spad := by rw [State.modW, State.core_setCore]
@[simp] theorem State.modW_core_tag (s : State) (f : SegW → SegW) :
    (s.modW f).core.tag = s.core.tag := by rw [State.modW, State.core_setCore]
@[simp] theorem State.modW_core_sys (s : State) (f : SegW → SegW) :
    (s.modW f).core.sys = s.core.sys := by rw [State.modW, State.core_setCore]
@[simp] theorem State.modW_core_turn (s : State) (f : SegW → SegW) :
    (s.modW f).core.turn = s.core.turn := by rw [State.modW, State.core_setCore]
theorem State.coreAt_modW_ne (s : State) (f : SegW → SegW) {k : Nat} (h : k ≠ s.cur) : (s.modW f).coreAt k = s.coreAt k :=
  State.coreAt_setCore_ne s _ h
@[simp] theorem State.modSys_cur (s : State) (f : CoreSys → CoreSys) :
    (s.modSys f).cur = s.cur := rfl
@[simp] theorem State.modSys_lanterns (s : State) (f : CoreSys → CoreSys) :
    (s.modSys f).lanterns = s.lanterns := rfl
@[simp] theorem State.modSys_dev (s : State) (f : CoreSys → CoreSys) :
    (s.modSys f).dev = s.dev := rfl
@[simp] theorem State.modSys_agenda (s : State) (f : CoreSys → CoreSys) :
    (s.modSys f).agenda = s.agenda := rfl
@[simp] theorem State.modSys_core_c (s : State) (f : CoreSys → CoreSys) :
    (s.modSys f).core.c = s.core.c := by rw [State.modSys, State.core_setCore]
@[simp] theorem State.modSys_core_a (s : State) (f : CoreSys → CoreSys) :
    (s.modSys f).core.a = s.core.a := by rw [State.modSys, State.core_setCore]
@[simp] theorem State.modSys_core_v (s : State) (f : CoreSys → CoreSys) :
    (s.modSys f).core.v = s.core.v := by rw [State.modSys, State.core_setCore]
@[simp] theorem State.modSys_core_x (s : State) (f : CoreSys → CoreSys) :
    (s.modSys f).core.x = s.core.x := by rw [State.modSys, State.core_setCore]
@[simp] theorem State.modSys_core_w (s : State) (f : CoreSys → CoreSys) :
    (s.modSys f).core.w = s.core.w := by rw [State.modSys, State.core_setCore]
@[simp] theorem State.modSys_core_spad (s : State) (f : CoreSys → CoreSys) :
    (s.modSys f).core.spad = s.core.spad := by rw [State.modSys, State.core_setCore]
@[simp] theorem State.modSys_core_tag (s : State) (f : CoreSys → CoreSys) :
    (s.modSys f).core.tag = s.core.tag := by rw [State.modSys, State.core_setCore]
@[simp] theorem State.modSys_core_sys (s : State) (f : CoreSys → CoreSys) :
    (s.modSys f).core.sys = f s.core.sys := by rw [State.modSys, State.core_setCore]
@[simp] theorem State.modSys_core_turn (s : State) (f : CoreSys → CoreSys) :
    (s.modSys f).core.turn = s.core.turn := by rw [State.modSys, State.core_setCore]
theorem State.coreAt_modSys_ne (s : State) (f : CoreSys → CoreSys) {k : Nat} (h : k ≠ s.cur) : (s.modSys f).coreAt k = s.coreAt k :=
  State.coreAt_setCore_ne s _ h
@[simp] theorem State.modDev_cur (s : State) (f : Device → Device) :
    (s.modDev f).cur = s.cur := rfl
@[simp] theorem State.modDev_cores (s : State) (f : Device → Device) :
    (s.modDev f).cores = s.cores := rfl
@[simp] theorem State.modDev_lanterns (s : State) (f : Device → Device) :
    (s.modDev f).lanterns = s.lanterns := rfl
@[simp] theorem State.modDev_agenda (s : State) (f : Device → Device) :
    (s.modDev f).agenda = s.agenda := rfl
@[simp] theorem State.modDev_dev (s : State) (f : Device → Device) :
    (s.modDev f).dev = f s.dev := rfl
@[simp] theorem State.modDev_core (s : State) (f : Device → Device) :
    (s.modDev f).core = s.core := rfl
@[simp] theorem State.modMem_cur (s : State) (f : Mem → Mem) :
    (s.modMem f).cur = s.cur := rfl
@[simp] theorem State.modMem_cores (s : State) (f : Mem → Mem) :
    (s.modMem f).cores = s.cores := rfl
@[simp] theorem State.modMem_lanterns (s : State) (f : Mem → Mem) :
    (s.modMem f).lanterns = s.lanterns := rfl
@[simp] theorem State.modMem_agenda (s : State) (f : Mem → Mem) :
    (s.modMem f).agenda = s.agenda := rfl
@[simp] theorem State.modMem_m (s : State) (f : Mem → Mem) :
    (s.modMem f).dev.m = f s.dev.m := rfl
@[simp] theorem State.modMem_core (s : State) (f : Mem → Mem) :
    (s.modMem f).core = s.core := rfl
@[simp] theorem State.setLanternAt_cur (s : State) (n : Nat) (l : Lantern) :
    (s.setLanternAt n l).cur = s.cur := rfl
@[simp] theorem State.setLanternAt_cores (s : State) (n : Nat) (l : Lantern) :
    (s.setLanternAt n l).cores = s.cores := rfl
@[simp] theorem State.setLanternAt_dev (s : State) (n : Nat) (l : Lantern) :
    (s.setLanternAt n l).dev = s.dev := rfl
@[simp] theorem State.setLanternAt_agenda (s : State) (n : Nat) (l : Lantern) :
    (s.setLanternAt n l).agenda = s.agenda := rfl
@[simp] theorem State.setLanternAt_core (s : State) (n : Nat) (l : Lantern) :
    (s.setLanternAt n l).core = s.core := rfl
@[simp] theorem State.lanternAt_setLanternAt (s : State) (n : Nat) (l : Lantern) :
    (s.setLanternAt n l).lanternAt n = l := Sparse.get_set_same ..
theorem State.lanternAt_setLanternAt_ne (s : State) {n k : Nat} (l : Lantern) (h : k ≠ n) :
    (s.setLanternAt n l).lanternAt k = s.lanternAt k :=
  Sparse.get_set_ne _ _ _ h
@[simp] theorem State.setLantern_cur (s : State) (l : Lantern) :
    (s.setLantern l).cur = s.cur := rfl
@[simp] theorem State.setLantern_cores (s : State) (l : Lantern) :
    (s.setLantern l).cores = s.cores := rfl
@[simp] theorem State.setLantern_dev (s : State) (l : Lantern) :
    (s.setLantern l).dev = s.dev := rfl
@[simp] theorem State.setLantern_agenda (s : State) (l : Lantern) :
    (s.setLantern l).agenda = s.agenda := rfl
@[simp] theorem State.setLantern_core (s : State) (l : Lantern) :
    (s.setLantern l).core = s.core := rfl
@[simp] theorem State.lantern_setLantern (s : State) (l : Lantern) :
    (s.setLantern l).lantern = l := Sparse.get_set_same ..
@[simp] theorem State.setU_cur (s : State) (u : UnitCtx) :
    (s.setU u).cur = s.cur := rfl
@[simp] theorem State.setU_lanterns (s : State) (u : UnitCtx) :
    (s.setU u).lanterns = s.lanterns := rfl
@[simp] theorem State.setU_dev (s : State) (u : UnitCtx) :
    (s.setU u).dev = s.dev := rfl
@[simp] theorem State.setU_agenda (s : State) (u : UnitCtx) :
    (s.setU u).agenda = s.agenda := rfl
@[simp] theorem State.setU_core_a (s : State) (u : UnitCtx) :
    (s.setU u).core.a = s.core.a := State.modC_core_a ..
@[simp] theorem State.setU_core_v (s : State) (u : UnitCtx) :
    (s.setU u).core.v = s.core.v := State.modC_core_v ..
@[simp] theorem State.setU_core_x (s : State) (u : UnitCtx) :
    (s.setU u).core.x = s.core.x := State.modC_core_x ..
@[simp] theorem State.setU_core_w (s : State) (u : UnitCtx) :
    (s.setU u).core.w = s.core.w := State.modC_core_w ..
@[simp] theorem State.setU_core_spad (s : State) (u : UnitCtx) :
    (s.setU u).core.spad = s.core.spad := State.modC_core_spad ..
@[simp] theorem State.setU_core_tag (s : State) (u : UnitCtx) :
    (s.setU u).core.tag = s.core.tag := State.modC_core_tag ..
@[simp] theorem State.setU_core_sys (s : State) (u : UnitCtx) :
    (s.setU u).core.sys = s.core.sys := State.modC_core_sys ..
@[simp] theorem State.setU_core_turn (s : State) (u : UnitCtx) :
    (s.setU u).core.turn = s.core.turn := State.modC_core_turn ..
@[simp] theorem State.modMat_cur (s : State) (f : MatIss → MatIss) :
    (s.modMat f).cur = s.cur := rfl
@[simp] theorem State.modMat_lanterns (s : State) (f : MatIss → MatIss) :
    (s.modMat f).lanterns = s.lanterns := rfl
@[simp] theorem State.modMat_dev (s : State) (f : MatIss → MatIss) :
    (s.modMat f).dev = s.dev := rfl
@[simp] theorem State.modMat_agenda (s : State) (f : MatIss → MatIss) :
    (s.modMat f).agenda = s.agenda := rfl
@[simp] theorem State.modMat_core_a (s : State) (f : MatIss → MatIss) :
    (s.modMat f).core.a = s.core.a := State.modC_core_a ..
@[simp] theorem State.modMat_core_v (s : State) (f : MatIss → MatIss) :
    (s.modMat f).core.v = s.core.v := State.modC_core_v ..
@[simp] theorem State.modMat_core_x (s : State) (f : MatIss → MatIss) :
    (s.modMat f).core.x = s.core.x := State.modC_core_x ..
@[simp] theorem State.modMat_core_w (s : State) (f : MatIss → MatIss) :
    (s.modMat f).core.w = s.core.w := State.modC_core_w ..
@[simp] theorem State.modMat_core_spad (s : State) (f : MatIss → MatIss) :
    (s.modMat f).core.spad = s.core.spad := State.modC_core_spad ..
@[simp] theorem State.modMat_core_tag (s : State) (f : MatIss → MatIss) :
    (s.modMat f).core.tag = s.core.tag := State.modC_core_tag ..
@[simp] theorem State.modMat_core_sys (s : State) (f : MatIss → MatIss) :
    (s.modMat f).core.sys = s.core.sys := State.modC_core_sys ..
@[simp] theorem State.modMat_core_turn (s : State) (f : MatIss → MatIss) :
    (s.modMat f).core.turn = s.core.turn := State.modC_core_turn ..
@[simp] theorem State.modSeq_cur (s : State) (f : Seq → Seq) :
    (s.modSeq f).cur = s.cur := rfl
@[simp] theorem State.modSeq_lanterns (s : State) (f : Seq → Seq) :
    (s.modSeq f).lanterns = s.lanterns := rfl
@[simp] theorem State.modSeq_dev (s : State) (f : Seq → Seq) :
    (s.modSeq f).dev = s.dev := rfl
@[simp] theorem State.modSeq_agenda (s : State) (f : Seq → Seq) :
    (s.modSeq f).agenda = s.agenda := rfl
@[simp] theorem State.modSeq_core_a (s : State) (f : Seq → Seq) :
    (s.modSeq f).core.a = s.core.a := State.modC_core_a ..
@[simp] theorem State.modSeq_core_v (s : State) (f : Seq → Seq) :
    (s.modSeq f).core.v = s.core.v := State.modC_core_v ..
@[simp] theorem State.modSeq_core_x (s : State) (f : Seq → Seq) :
    (s.modSeq f).core.x = s.core.x := State.modC_core_x ..
@[simp] theorem State.modSeq_core_w (s : State) (f : Seq → Seq) :
    (s.modSeq f).core.w = s.core.w := State.modC_core_w ..
@[simp] theorem State.modSeq_core_spad (s : State) (f : Seq → Seq) :
    (s.modSeq f).core.spad = s.core.spad := State.modC_core_spad ..
@[simp] theorem State.modSeq_core_tag (s : State) (f : Seq → Seq) :
    (s.modSeq f).core.tag = s.core.tag := State.modC_core_tag ..
@[simp] theorem State.modSeq_core_sys (s : State) (f : Seq → Seq) :
    (s.modSeq f).core.sys = s.core.sys := State.modC_core_sys ..
@[simp] theorem State.modSeq_core_turn (s : State) (f : Seq → Seq) :
    (s.modSeq f).core.turn = s.core.turn := State.modC_core_turn ..
@[simp] theorem State.advance_cur (s : State) (e : Engine) :
    (s.advance e).cur = s.cur := rfl
@[simp] theorem State.advance_lanterns (s : State) (e : Engine) :
    (s.advance e).lanterns = s.lanterns := rfl
@[simp] theorem State.advance_dev (s : State) (e : Engine) :
    (s.advance e).dev = s.dev := rfl
@[simp] theorem State.advance_agenda (s : State) (e : Engine) :
    (s.advance e).agenda = s.agenda := rfl
@[simp] theorem State.advance_core_a (s : State) (e : Engine) :
    (s.advance e).core.a = s.core.a := State.modC_core_a ..
@[simp] theorem State.advance_core_v (s : State) (e : Engine) :
    (s.advance e).core.v = s.core.v := State.modC_core_v ..
@[simp] theorem State.advance_core_x (s : State) (e : Engine) :
    (s.advance e).core.x = s.core.x := State.modC_core_x ..
@[simp] theorem State.advance_core_w (s : State) (e : Engine) :
    (s.advance e).core.w = s.core.w := State.modC_core_w ..
@[simp] theorem State.advance_core_spad (s : State) (e : Engine) :
    (s.advance e).core.spad = s.core.spad := State.modC_core_spad ..
@[simp] theorem State.advance_core_tag (s : State) (e : Engine) :
    (s.advance e).core.tag = s.core.tag := State.modC_core_tag ..
@[simp] theorem State.advance_core_sys (s : State) (e : Engine) :
    (s.advance e).core.sys = s.core.sys := State.modC_core_sys ..
@[simp] theorem State.advance_core_turn (s : State) (e : Engine) :
    (s.advance e).core.turn = s.core.turn := State.modC_core_turn ..
@[simp] theorem State.endEngine_cur (s : State) (e : Engine) :
    (s.endEngine e).cur = s.cur := rfl
@[simp] theorem State.endEngine_lanterns (s : State) (e : Engine) :
    (s.endEngine e).lanterns = s.lanterns := rfl
@[simp] theorem State.endEngine_dev (s : State) (e : Engine) :
    (s.endEngine e).dev = s.dev := rfl
@[simp] theorem State.endEngine_agenda (s : State) (e : Engine) :
    (s.endEngine e).agenda = s.agenda := rfl
@[simp] theorem State.endEngine_core_a (s : State) (e : Engine) :
    (s.endEngine e).core.a = s.core.a := State.modC_core_a ..
@[simp] theorem State.endEngine_core_v (s : State) (e : Engine) :
    (s.endEngine e).core.v = s.core.v := State.modC_core_v ..
@[simp] theorem State.endEngine_core_x (s : State) (e : Engine) :
    (s.endEngine e).core.x = s.core.x := State.modC_core_x ..
@[simp] theorem State.endEngine_core_w (s : State) (e : Engine) :
    (s.endEngine e).core.w = s.core.w := State.modC_core_w ..
@[simp] theorem State.endEngine_core_spad (s : State) (e : Engine) :
    (s.endEngine e).core.spad = s.core.spad := State.modC_core_spad ..
@[simp] theorem State.endEngine_core_tag (s : State) (e : Engine) :
    (s.endEngine e).core.tag = s.core.tag := State.modC_core_tag ..
@[simp] theorem State.endEngine_core_sys (s : State) (e : Engine) :
    (s.endEngine e).core.sys = s.core.sys := State.modC_core_sys ..
@[simp] theorem State.endEngine_core_turn (s : State) (e : Engine) :
    (s.endEngine e).core.turn = s.core.turn := State.modC_core_turn ..
@[simp] theorem State.write_cur (s : State) (e : Engine) (w : SharedWrite) :
    (s.write e w).cur = s.cur := rfl
@[simp] theorem State.write_lanterns (s : State) (e : Engine) (w : SharedWrite) :
    (s.write e w).lanterns = s.lanterns := rfl
@[simp] theorem State.write_dev (s : State) (e : Engine) (w : SharedWrite) :
    (s.write e w).dev = s.dev := rfl
@[simp] theorem State.write_agenda (s : State) (e : Engine) (w : SharedWrite) :
    (s.write e w).agenda = s.agenda := rfl
@[simp] theorem State.write_core_a (s : State) (e : Engine) (w : SharedWrite) :
    (s.write e w).core.a = s.core.a := State.modC_core_a ..
@[simp] theorem State.write_core_v (s : State) (e : Engine) (w : SharedWrite) :
    (s.write e w).core.v = s.core.v := State.modC_core_v ..
@[simp] theorem State.write_core_x (s : State) (e : Engine) (w : SharedWrite) :
    (s.write e w).core.x = s.core.x := State.modC_core_x ..
@[simp] theorem State.write_core_w (s : State) (e : Engine) (w : SharedWrite) :
    (s.write e w).core.w = s.core.w := State.modC_core_w ..
@[simp] theorem State.write_core_spad (s : State) (e : Engine) (w : SharedWrite) :
    (s.write e w).core.spad = s.core.spad := State.modC_core_spad ..
@[simp] theorem State.write_core_tag (s : State) (e : Engine) (w : SharedWrite) :
    (s.write e w).core.tag = s.core.tag := State.modC_core_tag ..
@[simp] theorem State.write_core_sys (s : State) (e : Engine) (w : SharedWrite) :
    (s.write e w).core.sys = s.core.sys := State.modC_core_sys ..
@[simp] theorem State.write_core_turn (s : State) (e : Engine) (w : SharedWrite) :
    (s.write e w).core.turn = s.core.turn := State.modC_core_turn ..
@[simp] theorem State.setFlag_cur (s : State) (f n : Nat) :
    (s.setFlag f n).cur = s.cur := rfl
@[simp] theorem State.setFlag_lanterns (s : State) (f n : Nat) :
    (s.setFlag f n).lanterns = s.lanterns := rfl
@[simp] theorem State.setFlag_dev (s : State) (f n : Nat) :
    (s.setFlag f n).dev = s.dev := rfl
@[simp] theorem State.setFlag_agenda (s : State) (f n : Nat) :
    (s.setFlag f n).agenda = s.agenda := rfl
@[simp] theorem State.setFlag_core_a (s : State) (f n : Nat) :
    (s.setFlag f n).core.a = s.core.a := State.modC_core_a ..
@[simp] theorem State.setFlag_core_v (s : State) (f n : Nat) :
    (s.setFlag f n).core.v = s.core.v := State.modC_core_v ..
@[simp] theorem State.setFlag_core_x (s : State) (f n : Nat) :
    (s.setFlag f n).core.x = s.core.x := State.modC_core_x ..
@[simp] theorem State.setFlag_core_w (s : State) (f n : Nat) :
    (s.setFlag f n).core.w = s.core.w := State.modC_core_w ..
@[simp] theorem State.setFlag_core_spad (s : State) (f n : Nat) :
    (s.setFlag f n).core.spad = s.core.spad := State.modC_core_spad ..
@[simp] theorem State.setFlag_core_tag (s : State) (f n : Nat) :
    (s.setFlag f n).core.tag = s.core.tag := State.modC_core_tag ..
@[simp] theorem State.setFlag_core_sys (s : State) (f n : Nat) :
    (s.setFlag f n).core.sys = s.core.sys := State.modC_core_sys ..
@[simp] theorem State.setFlag_core_turn (s : State) (f n : Nat) :
    (s.setFlag f n).core.turn = s.core.turn := State.modC_core_turn ..
@[simp] theorem State.setToken_cur (s : State) (k n : Nat) :
    (s.setToken k n).cur = s.cur := rfl
@[simp] theorem State.setToken_lanterns (s : State) (k n : Nat) :
    (s.setToken k n).lanterns = s.lanterns := rfl
@[simp] theorem State.setToken_dev (s : State) (k n : Nat) :
    (s.setToken k n).dev = s.dev := rfl
@[simp] theorem State.setToken_agenda (s : State) (k n : Nat) :
    (s.setToken k n).agenda = s.agenda := rfl
@[simp] theorem State.setToken_core_a (s : State) (k n : Nat) :
    (s.setToken k n).core.a = s.core.a := State.modC_core_a ..
@[simp] theorem State.setToken_core_v (s : State) (k n : Nat) :
    (s.setToken k n).core.v = s.core.v := State.modC_core_v ..
@[simp] theorem State.setToken_core_x (s : State) (k n : Nat) :
    (s.setToken k n).core.x = s.core.x := State.modC_core_x ..
@[simp] theorem State.setToken_core_w (s : State) (k n : Nat) :
    (s.setToken k n).core.w = s.core.w := State.modC_core_w ..
@[simp] theorem State.setToken_core_spad (s : State) (k n : Nat) :
    (s.setToken k n).core.spad = s.core.spad := State.modC_core_spad ..
@[simp] theorem State.setToken_core_tag (s : State) (k n : Nat) :
    (s.setToken k n).core.tag = s.core.tag := State.modC_core_tag ..
@[simp] theorem State.setToken_core_sys (s : State) (k n : Nat) :
    (s.setToken k n).core.sys = s.core.sys := State.modC_core_sys ..
@[simp] theorem State.setToken_core_turn (s : State) (k n : Nat) :
    (s.setToken k n).core.turn = s.core.turn := State.modC_core_turn ..
@[simp] theorem State.setU_u (s : State) (u : UnitCtx) :
    (s.setU u).u = u := by rw [State.u, State.setU, State.modC_core_c]
@[simp] theorem State.modMat_u (s : State) (f : MatIss → MatIss) :
    (s.modMat f).u = s.u := by rw [State.u, State.modMat, State.modC_core_c]; rfl
@[simp] theorem State.modSeq_u (s : State) (f : Seq → Seq) :
    (s.modSeq f).u = s.u := by rw [State.u, State.modSeq, State.modC_core_c]; rfl
@[simp] theorem State.setFlag_u (s : State) (f n : Nat) :
    (s.setFlag f n).u = s.u := by rw [State.u, State.setFlag, State.modC_core_c]; rfl
@[simp] theorem State.setToken_u (s : State) (k n : Nat) :
    (s.setToken k n).u = s.u := by rw [State.u, State.setToken, State.modC_core_c]; rfl
@[simp] theorem State.setU_busy (s : State) (u : UnitCtx) :
    (s.setU u).core.c.busy = s.core.c.busy := by rw [State.setU, State.modC_core_c]
@[simp] theorem State.setU_k (s : State) (u : UnitCtx) :
    (s.setU u).core.c.k = s.core.c.k := by rw [State.setU, State.modC_core_c]
@[simp] theorem State.setU_f (s : State) (u : UnitCtx) :
    (s.setU u).core.c.f = s.core.c.f := by rw [State.setU, State.modC_core_c]
@[simp] theorem State.setU_csr (s : State) (u : UnitCtx) :
    (s.setU u).core.c.csr = s.core.c.csr := by rw [State.setU, State.modC_core_c]
@[simp] theorem State.setU_mat (s : State) (u : UnitCtx) :
    (s.setU u).core.c.mat = s.core.c.mat := by rw [State.setU, State.modC_core_c]
@[simp] theorem State.setU_seq (s : State) (u : UnitCtx) :
    (s.setU u).core.c.seq = s.core.c.seq := by rw [State.setU, State.modC_core_c]
@[simp] theorem State.setU_pend (s : State) (u : UnitCtx) :
    (s.setU u).core.c.pend = s.core.c.pend := by rw [State.setU, State.modC_core_c]
@[simp] theorem State.setU_waits (s : State) (u : UnitCtx) :
    (s.setU u).core.c.waits = s.core.c.waits := by rw [State.setU, State.modC_core_c]
@[simp] theorem State.modMat_busy (s : State) (f : MatIss → MatIss) :
    (s.modMat f).core.c.busy = s.core.c.busy := by rw [State.modMat, State.modC_core_c]
@[simp] theorem State.modMat_k (s : State) (f : MatIss → MatIss) :
    (s.modMat f).core.c.k = s.core.c.k := by rw [State.modMat, State.modC_core_c]
@[simp] theorem State.modMat_f (s : State) (f : MatIss → MatIss) :
    (s.modMat f).core.c.f = s.core.c.f := by rw [State.modMat, State.modC_core_c]
@[simp] theorem State.modMat_csr (s : State) (f : MatIss → MatIss) :
    (s.modMat f).core.c.csr = s.core.c.csr := by rw [State.modMat, State.modC_core_c]
@[simp] theorem State.modMat_seq (s : State) (f : MatIss → MatIss) :
    (s.modMat f).core.c.seq = s.core.c.seq := by rw [State.modMat, State.modC_core_c]
@[simp] theorem State.modMat_pend (s : State) (f : MatIss → MatIss) :
    (s.modMat f).core.c.pend = s.core.c.pend := by rw [State.modMat, State.modC_core_c]
@[simp] theorem State.modMat_waits (s : State) (f : MatIss → MatIss) :
    (s.modMat f).core.c.waits = s.core.c.waits := by rw [State.modMat, State.modC_core_c]
@[simp] theorem State.modSeq_busy (s : State) (f : Seq → Seq) :
    (s.modSeq f).core.c.busy = s.core.c.busy := by rw [State.modSeq, State.modC_core_c]
@[simp] theorem State.modSeq_k (s : State) (f : Seq → Seq) :
    (s.modSeq f).core.c.k = s.core.c.k := by rw [State.modSeq, State.modC_core_c]
@[simp] theorem State.modSeq_f (s : State) (f : Seq → Seq) :
    (s.modSeq f).core.c.f = s.core.c.f := by rw [State.modSeq, State.modC_core_c]
@[simp] theorem State.modSeq_csr (s : State) (f : Seq → Seq) :
    (s.modSeq f).core.c.csr = s.core.c.csr := by rw [State.modSeq, State.modC_core_c]
@[simp] theorem State.modSeq_mat (s : State) (f : Seq → Seq) :
    (s.modSeq f).core.c.mat = s.core.c.mat := by rw [State.modSeq, State.modC_core_c]
@[simp] theorem State.modSeq_pend (s : State) (f : Seq → Seq) :
    (s.modSeq f).core.c.pend = s.core.c.pend := by rw [State.modSeq, State.modC_core_c]
@[simp] theorem State.modSeq_waits (s : State) (f : Seq → Seq) :
    (s.modSeq f).core.c.waits = s.core.c.waits := by rw [State.modSeq, State.modC_core_c]
@[simp] theorem State.setFlag_busy (s : State) (f n : Nat) :
    (s.setFlag f n).core.c.busy = s.core.c.busy := by rw [State.setFlag, State.modC_core_c]
@[simp] theorem State.setFlag_k (s : State) (f n : Nat) :
    (s.setFlag f n).core.c.k = s.core.c.k := by rw [State.setFlag, State.modC_core_c]
@[simp] theorem State.setFlag_csr (s : State) (f n : Nat) :
    (s.setFlag f n).core.c.csr = s.core.c.csr := by rw [State.setFlag, State.modC_core_c]
@[simp] theorem State.setFlag_mat (s : State) (f n : Nat) :
    (s.setFlag f n).core.c.mat = s.core.c.mat := by rw [State.setFlag, State.modC_core_c]
@[simp] theorem State.setFlag_seq (s : State) (f n : Nat) :
    (s.setFlag f n).core.c.seq = s.core.c.seq := by rw [State.setFlag, State.modC_core_c]
@[simp] theorem State.setFlag_pend (s : State) (f n : Nat) :
    (s.setFlag f n).core.c.pend = s.core.c.pend := by rw [State.setFlag, State.modC_core_c]
@[simp] theorem State.setFlag_waits (s : State) (f n : Nat) :
    (s.setFlag f n).core.c.waits = s.core.c.waits := by rw [State.setFlag, State.modC_core_c]
@[simp] theorem State.setToken_busy (s : State) (k n : Nat) :
    (s.setToken k n).core.c.busy = s.core.c.busy := by rw [State.setToken, State.modC_core_c]
@[simp] theorem State.setToken_f (s : State) (k n : Nat) :
    (s.setToken k n).core.c.f = s.core.c.f := by rw [State.setToken, State.modC_core_c]
@[simp] theorem State.setToken_csr (s : State) (k n : Nat) :
    (s.setToken k n).core.c.csr = s.core.c.csr := by rw [State.setToken, State.modC_core_c]
@[simp] theorem State.setToken_mat (s : State) (k n : Nat) :
    (s.setToken k n).core.c.mat = s.core.c.mat := by rw [State.setToken, State.modC_core_c]
@[simp] theorem State.setToken_seq (s : State) (k n : Nat) :
    (s.setToken k n).core.c.seq = s.core.c.seq := by rw [State.setToken, State.modC_core_c]
@[simp] theorem State.setToken_pend (s : State) (k n : Nat) :
    (s.setToken k n).core.c.pend = s.core.c.pend := by rw [State.setToken, State.modC_core_c]
@[simp] theorem State.setToken_waits (s : State) (k n : Nat) :
    (s.setToken k n).core.c.waits = s.core.c.waits := by rw [State.setToken, State.modC_core_c]
@[simp] theorem State.advance_busy (s : State) (e : Engine) :
    (s.advance e).core.c.busy = s.core.c.busy := State.setU_busy ..
@[simp] theorem State.advance_k (s : State) (e : Engine) :
    (s.advance e).core.c.k = s.core.c.k := State.setU_k ..
@[simp] theorem State.advance_f (s : State) (e : Engine) :
    (s.advance e).core.c.f = s.core.c.f := State.setU_f ..
@[simp] theorem State.advance_csr (s : State) (e : Engine) :
    (s.advance e).core.c.csr = s.core.c.csr := State.setU_csr ..
@[simp] theorem State.advance_mat (s : State) (e : Engine) :
    (s.advance e).core.c.mat = s.core.c.mat := State.setU_mat ..
@[simp] theorem State.advance_seq (s : State) (e : Engine) :
    (s.advance e).core.c.seq = s.core.c.seq := State.setU_seq ..
@[simp] theorem State.advance_pend (s : State) (e : Engine) :
    (s.advance e).core.c.pend = s.core.c.pend := State.setU_pend ..
@[simp] theorem State.advance_waits (s : State) (e : Engine) :
    (s.advance e).core.c.waits = s.core.c.waits := State.setU_waits ..
@[simp] theorem State.write_busy (s : State) (e : Engine) (w : SharedWrite) :
    (s.write e w).core.c.busy = s.core.c.busy := State.setU_busy ..
@[simp] theorem State.write_k (s : State) (e : Engine) (w : SharedWrite) :
    (s.write e w).core.c.k = s.core.c.k := State.setU_k ..
@[simp] theorem State.write_f (s : State) (e : Engine) (w : SharedWrite) :
    (s.write e w).core.c.f = s.core.c.f := State.setU_f ..
@[simp] theorem State.write_csr (s : State) (e : Engine) (w : SharedWrite) :
    (s.write e w).core.c.csr = s.core.c.csr := State.setU_csr ..
@[simp] theorem State.write_mat (s : State) (e : Engine) (w : SharedWrite) :
    (s.write e w).core.c.mat = s.core.c.mat := State.setU_mat ..
@[simp] theorem State.write_seq (s : State) (e : Engine) (w : SharedWrite) :
    (s.write e w).core.c.seq = s.core.c.seq := State.setU_seq ..
@[simp] theorem State.write_pend (s : State) (e : Engine) (w : SharedWrite) :
    (s.write e w).core.c.pend = s.core.c.pend := State.setU_pend ..
@[simp] theorem State.write_waits (s : State) (e : Engine) (w : SharedWrite) :
    (s.write e w).core.c.waits = s.core.c.waits := State.setU_waits ..
@[simp] theorem State.endEngine_busy (s : State) (e : Engine) :
    (s.endEngine e).core.c.busy = s.core.c.busy := State.setU_busy ..
@[simp] theorem State.endEngine_k (s : State) (e : Engine) :
    (s.endEngine e).core.c.k = s.core.c.k := State.setU_k ..
@[simp] theorem State.endEngine_f (s : State) (e : Engine) :
    (s.endEngine e).core.c.f = s.core.c.f := State.setU_f ..
@[simp] theorem State.endEngine_csr (s : State) (e : Engine) :
    (s.endEngine e).core.c.csr = s.core.c.csr := State.setU_csr ..
@[simp] theorem State.endEngine_mat (s : State) (e : Engine) :
    (s.endEngine e).core.c.mat = s.core.c.mat := State.setU_mat ..
@[simp] theorem State.endEngine_seq (s : State) (e : Engine) :
    (s.endEngine e).core.c.seq = s.core.c.seq := State.setU_seq ..
@[simp] theorem State.endEngine_pend (s : State) (e : Engine) :
    (s.endEngine e).core.c.pend = s.core.c.pend := State.setU_pend ..
@[simp] theorem State.endEngine_waits (s : State) (e : Engine) :
    (s.endEngine e).core.c.waits = s.core.c.waits := State.setU_waits ..
@[simp] theorem State.modMat_mat (s : State) (f : MatIss → MatIss) :
    (s.modMat f).core.c.mat = f s.core.c.mat := by rw [State.modMat, State.modC_core_c]
@[simp] theorem State.modSeq_seq (s : State) (f : Seq → Seq) :
    (s.modSeq f).core.c.seq = f s.core.c.seq := by rw [State.modSeq, State.modC_core_c]
@[simp] theorem State.flag_setFlag (s : State) (f n : Nat) :
    (s.setFlag f n).flag f = n := by rw [State.flag, State.setFlag, State.modC_core_c]; exact Sparse.get_set_same ..
@[simp] theorem State.token_setToken (s : State) (k n : Nat) :
    (s.setToken k n).token k = n := by rw [State.token, State.setToken, State.modC_core_c]; exact Sparse.get_set_same ..
@[simp] theorem State.modUnit_cur (s : State) (f : UnitCtx → UnitCtx) :
    (s.modUnit f).cur = s.cur := by unfold State.modUnit; split <;> rfl
@[simp] theorem State.modUnit_lanterns (s : State) (f : UnitCtx → UnitCtx) :
    (s.modUnit f).lanterns = s.lanterns := by unfold State.modUnit; split <;> rfl
@[simp] theorem State.modUnit_dev (s : State) (f : UnitCtx → UnitCtx) :
    (s.modUnit f).dev = s.dev := by unfold State.modUnit; split <;> rfl
@[simp] theorem State.modUnit_agenda (s : State) (f : UnitCtx → UnitCtx) :
    (s.modUnit f).agenda = s.agenda := by unfold State.modUnit; split <;> rfl
@[simp] theorem State.modUnit_core_a (s : State) (f : UnitCtx → UnitCtx) :
    (s.modUnit f).core.a = s.core.a := by unfold State.modUnit; split <;> simp
@[simp] theorem State.modUnit_core_v (s : State) (f : UnitCtx → UnitCtx) :
    (s.modUnit f).core.v = s.core.v := by unfold State.modUnit; split <;> simp
@[simp] theorem State.modUnit_core_x (s : State) (f : UnitCtx → UnitCtx) :
    (s.modUnit f).core.x = s.core.x := by unfold State.modUnit; split <;> simp
@[simp] theorem State.modUnit_core_w (s : State) (f : UnitCtx → UnitCtx) :
    (s.modUnit f).core.w = s.core.w := by unfold State.modUnit; split <;> simp
@[simp] theorem State.modUnit_core_spad (s : State) (f : UnitCtx → UnitCtx) :
    (s.modUnit f).core.spad = s.core.spad := by unfold State.modUnit; split <;> simp
@[simp] theorem State.modUnit_core_tag (s : State) (f : UnitCtx → UnitCtx) :
    (s.modUnit f).core.tag = s.core.tag := by unfold State.modUnit; split <;> simp
@[simp] theorem State.modUnit_core_turn (s : State) (f : UnitCtx → UnitCtx) :
    (s.modUnit f).core.turn = s.core.turn := by unfold State.modUnit; split <;> simp
@[simp] theorem State.modUnit_busy (s : State) (f : UnitCtx → UnitCtx) :
    (s.modUnit f).core.c.busy = s.core.c.busy := by unfold State.modUnit; split <;> simp
@[simp] theorem State.modUnit_k (s : State) (f : UnitCtx → UnitCtx) :
    (s.modUnit f).core.c.k = s.core.c.k := by unfold State.modUnit; split <;> simp
@[simp] theorem State.modUnit_f (s : State) (f : UnitCtx → UnitCtx) :
    (s.modUnit f).core.c.f = s.core.c.f := by unfold State.modUnit; split <;> simp
@[simp] theorem State.modUnit_csr (s : State) (f : UnitCtx → UnitCtx) :
    (s.modUnit f).core.c.csr = s.core.c.csr := by unfold State.modUnit; split <;> simp
@[simp] theorem State.modUnit_mat (s : State) (f : UnitCtx → UnitCtx) :
    (s.modUnit f).core.c.mat = s.core.c.mat := by unfold State.modUnit; split <;> simp
@[simp] theorem State.modUnit_seq (s : State) (f : UnitCtx → UnitCtx) :
    (s.modUnit f).core.c.seq = s.core.c.seq := by unfold State.modUnit; split <;> simp
@[simp] theorem State.modUnit_pend (s : State) (f : UnitCtx → UnitCtx) :
    (s.modUnit f).core.c.pend = s.core.c.pend := by unfold State.modUnit; split <;> simp
@[simp] theorem State.modUnit_waits (s : State) (f : UnitCtx → UnitCtx) :
    (s.modUnit f).core.c.waits = s.core.c.waits := by unfold State.modUnit; split <;> simp
@[simp] theorem State.stick_some (s : State) (e : Engine) (b : Word) :
    s.stick (some e) b = s.write e (.stick b) := rfl
@[simp] theorem State.stick_none (s : State) (b : Word) :
    s.stick none b = s.modUnit fun u => { u with log := logInsert (u.eC.pos - 1) (.stick b) u.log } := rfl
@[simp] theorem State.advance_u (s : State) (e : Engine) :
    (s.advance e).u = s.u.setEng e { s.u.eng e with lane := (s.u.eng e).lane + 1 } := State.setU_u ..
@[simp] theorem State.write_u (s : State) (e : Engine) (w : SharedWrite) :
    (s.write e w).u = { s.u with log := logInsert (s.u.eng e).pos w s.u.log } := State.setU_u ..
@[simp] theorem State.write_fetch (s : State) (e g : Engine) (w : SharedWrite) :
    (s.write e w).u.eng g = s.u.eng g := by rw [State.write_u]; cases g <;> rfl
@[simp] theorem State.freshen_cur (s : State) :
    (s.freshen).cur = s.cur := rfl
@[simp] theorem State.freshen_cores (s : State) :
    (s.freshen).cores = s.cores := rfl
@[simp] theorem State.freshen_lanterns (s : State) :
    (s.freshen).lanterns = s.lanterns := rfl
@[simp] theorem State.freshen_agenda (s : State) :
    (s.freshen).agenda = s.agenda := rfl
@[simp] theorem State.freshen_core (s : State) :
    s.freshen.core = s.core := rfl
@[simp] theorem State.freshen_m (s : State) :
    s.freshen.dev.m = s.dev.m := rfl
@[simp] theorem UnitCtx.setEng_sh (u : UnitCtx) (e : Engine) (p : EngPos) : (u.setEng e p).sh = u.sh := by cases e <;> rfl
@[simp] theorem UnitCtx.setEng_log (u : UnitCtx) (e : Engine) (p : EngPos) : (u.setEng e p).log = u.log := by cases e <;> rfl
@[simp] theorem UnitCtx.setEng_text (u : UnitCtx) (e : Engine) (p : EngPos) : (u.setEng e p).text = u.text := by cases e <;> rfl
@[simp] theorem UnitCtx.setEng_base (u : UnitCtx) (e : Engine) (p : EngPos) : (u.setEng e p).base = u.base := by cases e <;> rfl
@[simp] theorem UnitCtx.setEng_front (u : UnitCtx) (e : Engine) (p : EngPos) : (u.setEng e p).front = u.front := by cases e <;> rfl
@[simp] theorem UnitCtx.setEng_latC (u : UnitCtx) (e : Engine) (p : EngPos) : (u.setEng e p).latC = u.latC := by cases e <;> rfl
@[simp] theorem UnitCtx.setEng_rs (u : UnitCtx) (e : Engine) (p : EngPos) : (u.setEng e p).rs = u.rs := by cases e <;> rfl
@[simp] theorem UnitCtx.setEng_rdepth (u : UnitCtx) (e : Engine) (p : EngPos) : (u.setEng e p).rdepth = u.rdepth := by cases e <;> rfl
@[simp] theorem UnitCtx.setEng_rspill (u : UnitCtx) (e : Engine) (p : EngPos) : (u.setEng e p).rspill = u.rspill := by cases e <;> rfl
@[simp] theorem UnitCtx.setEng_wspill (u : UnitCtx) (e : Engine) (p : EngPos) : (u.setEng e p).wspill = u.wspill := by cases e <;> rfl
@[simp] theorem UnitCtx.setEng_callPending (u : UnitCtx) (e : Engine) (p : EngPos) : (u.setEng e p).callPending = u.callPending := by cases e <;> rfl
@[simp] theorem UnitCtx.setEng_world (u : UnitCtx) (e : Engine) (p : EngPos) : (u.setEng e p).world = u.world := by cases e <;> rfl
@[simp] theorem UnitCtx.setEng_lid (u : UnitCtx) (e : Engine) (p : EngPos) : (u.setEng e p).lid = u.lid := by cases e <;> rfl
@[simp] theorem UnitCtx.setEng_idx (u : UnitCtx) (e : Engine) (p : EngPos) : (u.setEng e p).idx = u.idx := by cases e <;> rfl
@[simp] theorem UnitCtx.setEng_run (u : UnitCtx) (e : Engine) (p : EngPos) : (u.setEng e p).run = u.run := by cases e <;> rfl
@[simp] theorem UnitCtx.setEng_grans (u : UnitCtx) (e : Engine) (p : EngPos) : (u.setEng e p).grans = u.grans := by cases e <;> rfl
@[simp] theorem UnitCtx.eng_setEng (u : UnitCtx) (e : Engine) (p : EngPos) : (u.setEng e p).eng e = p := by cases e <;> rfl
theorem UnitCtx.eng_setEng_ne (u : UnitCtx) {e g : Engine} (p : EngPos) (h : g ≠ e) : (u.setEng e p).eng g = u.eng g := by
  cases e <;> cases g <;> first | rfl | exact absurd rfl h
@[simp] theorem Lantern.quad_setQuad (l : Lantern) (q : Nat) (d : Quad) : (l.setQuad q d).quad q = d := Sparse.get_set_same ..
theorem Lantern.quad_setQuad_ne (l : Lantern) {q k : Nat} (d : Quad) (h : k ≠ q) : (l.setQuad q d).quad k = l.quad k :=
  Sparse.get_set_ne _ _ _ h

end Sys2Proof.Machine
end

