-- ==== Sys2Proof/Laws/Memory.lean ====
section
/-! SUPPORT. Memory: a read after a write, the bytes a write leaves alone, and that every operation keeps the canonical form
(10 R357). -/

namespace Sys2Proof.Machine

open Sys2Proof Host

namespace Memory

@[simp] theorem read_write_same (m : List Cell) (a : Nat) (b : Byte) : read (write m a b) a = b := Sparse.get_set_same ..

theorem read_write_ne (m : List Cell) {a x : Nat} (b : Byte) (h : x ≠ a) : read (write m a b) x = read m x :=
  Sparse.get_set_ne _ _ _ h

theorem wf_write {m : List Cell} (h : wf m = true) (a : Nat) (b : Byte) : wf (write m a b) = true := Sparse.wf_set h a b

theorem wf_writes {m : List Cell} (h : wf m = true) (a : Nat) (bs : Bytes) : wf (writes m a bs) = true :=
  Sparse.wf_setMany h a bs

/-- Bytes outside a write read as before. -/
theorem read_writes_out (m : List Cell) (a : Nat) (bs : Bytes) {x : Nat} (h : x < a ∨ a + bs.length ≤ x) :
    read (writes m a bs) x = read m x :=
  h.elim (Sparse.get_setMany_lt _ bs m a x) (Sparse.get_setMany_ge _ bs m a x)

/-- A read of what was written. -/
theorem reads_writes (m : List Cell) (a : Nat) (bs : Bytes) : reads (writes m a bs) a bs.length = bs :=
  Sparse.getMany_setMany _ bs m a

end Memory

/-- A byte write in place touches no memory but the device's, and no mark. -/
theorem Mem.putByte_keep (m : Mem) (k : KeyId) (a : Nat) (b : Byte) :
    (m.putByte k a b).host = m.host ∧ (m.putByte k a b).peer = m.peer ∧ (m.putByte k a b).desc = m.desc ∧
    (m.putByte k a b).poison = m.poison ∧ (m.putByte k a b).weak = m.weak := ⟨rfl, rfl, rfl, rfl, rfl⟩

theorem Mem.putRaw_keep (bs : Bytes) (m : Mem) (k : KeyId) (a : Nat) :
    (m.putRaw k a bs).host = m.host ∧ (m.putRaw k a bs).peer = m.peer ∧ (m.putRaw k a bs).desc = m.desc ∧
    (m.putRaw k a bs).poison = m.poison ∧ (m.putRaw k a bs).weak = m.weak := by
  induction bs generalizing m a with
  | nil => exact ⟨rfl, rfl, rfl, rfl, rfl⟩
  | cons b bs ih => exact ih _ (a + 1)

theorem Mem.putRaw_mem (bs : Bytes) (m : Mem) (k : KeyId) (a : Nat) : (m.putRaw k a bs).mem = Memory.writes m.mem a bs := by
  induction bs generalizing m a with
  | nil => rfl
  | cons b bs ih => exact ih _ (a + 1)

theorem Mem.putCells_keep (l : List (Nat × Byte)) (m : Mem) (k : KeyId) :
    let n := l.foldl (fun m x => m.putByte k x.1 x.2) m
    n.host = m.host ∧ n.peer = m.peer ∧ n.desc = m.desc ∧ n.poison = m.poison ∧ n.weak = m.weak := by
  induction l generalizing m with
  | nil => exact ⟨rfl, rfl, rfl, rfl, rfl⟩
  | cons x l ih => exact ih _

/-- A write in place touches no memory but the device's, and no mark. -/
theorem Mem.put_keep (bs : Bytes) (m : Mem) (k : KeyId) (a : Nat) :
    (m.put k a bs).host = m.host ∧ (m.put k a bs).peer = m.peer ∧ (m.put k a bs).desc = m.desc ∧
    (m.put k a bs).poison = m.poison ∧ (m.put k a bs).weak = m.weak := by
  have h := Mem.putCells_keep (m.adopt Stage.empty k a bs.length) (m.putRaw k a bs) k
  have g := Mem.putRaw_keep bs m k a
  exact ⟨h.1.trans g.1, h.2.1.trans g.2.1, h.2.2.1.trans g.2.2.1, h.2.2.2.1.trans g.2.2.2.1, h.2.2.2.2.trans g.2.2.2.2⟩

theorem Mem.putCells_wf (l : List (Nat × Byte)) {m : Mem} (k : KeyId) (h : Memory.wf m.mem = true) :
    Memory.wf (l.foldl (fun m x => m.putByte k x.1 x.2) m).mem = true := by
  induction l generalizing m with
  | nil => exact h
  | cons x l ih => exact ih (Memory.wf_write h x.1 x.2)

/-- A write in place keeps every memory canonical. -/
theorem Mem.Canonical.put {m : Mem} (h : m.Canonical) (k : KeyId) (a : Nat) (bs : Bytes) : (m.put k a bs).Canonical := by
  have g := Mem.put_keep bs m k a
  refine ⟨Mem.putCells_wf _ k ?_, by rw [g.1]; exact h.2.1, by rw [g.2.1]; exact h.2.2⟩
  rw [Mem.putRaw_mem]; exact Memory.wf_writes h.1 a bs

theorem Mem.foldl_keep {β : Type} (f : Mem → β → Mem) (hf : ∀ m b, m.Canonical → (f m b).Canonical) (l : List β) {m : Mem}
    (h : m.Canonical) : (l.foldl f m).Canonical := by
  induction l generalizing m with
  | nil => exact h
  | cons b l ih => exact ih (hf m b h)

theorem Mem.Canonical.repair {m : Mem} (h : m.Canonical) (a n : Nat) : (m.repair a n).Canonical := by
  unfold Mem.repair
  refine Mem.foldl_keep _ (fun m b h => ?_) _ h
  exact h

/-- Committing staged writes keeps every memory canonical. -/
theorem Mem.Canonical.commit {m : Mem} (h : m.Canonical) (g : Stage) : (m.commit g).Canonical := by
  unfold Mem.commit
  dsimp only
  refine Mem.foldl_keep _ ?_ _ (Mem.foldl_keep _ ?_ _ (Mem.foldl_keep _ (fun m c h => ?_) _ (Mem.foldl_keep _ (fun m c h => ?_) _ h)))
  · exact fun m c h => h
  · exact fun m c h => h
  · split
    · exact h
    · exact h
  · split
    · exact h.put _ _ _
    · exact h

/-- Every memory is canonical at reset. -/
theorem State.reset_canonical : State.reset.Canonical := ⟨⟨rfl, rfl, rfl⟩, fun _ h => nomatch h⟩

theorem State.poke_canonical {s : State} (h : s.dev.m.Canonical) (a : Nat) (bs : Bytes) : (s.poke a bs).dev.m.Canonical :=
  (h.put _ a bs).repair a bs.length

/-- A staged byte reads back. -/
theorem Mem.raw_staged (m : Mem) (g : Stage) {a : Nat} {b : Byte} (h : Sparse.get none g.mem a = some b) :
    (m.raw g a).1 = b := by
  unfold Mem.raw; rw [h]

/-- A byte read under the key it was written with is the byte written (10 R352). -/
theorem Mem.plain_same {m : Mem} {g : Stage} {k : KeyId} {a : Nat} {b : Byte} (h : m.raw g a = (b, some k)) : m.plain g k a = b := by
  unfold Mem.plain; rw [h]; exact if_pos rfl

@[simp] theorem State.setSpad_dev (s : State) (a : Nat) (bs : Bytes) : (s.setSpad a bs).dev = s.dev := rfl
@[simp] theorem State.setSpad_lanterns (s : State) (a : Nat) (bs : Bytes) : (s.setSpad a bs).lanterns = s.lanterns := rfl
@[simp] theorem State.setSpad_core (s : State) (a : Nat) (bs : Bytes) :
    (s.setSpad a bs).core = { s.core with spad := Memory.writes s.core.spad a bs } := State.core_setCore ..
@[simp] theorem State.setDesc_core (s : State) (b : Nat) (d : Desc) :
    (s.setDesc b d).core = { s.core with tag := Sparse.set Desc.zero s.core.tag b d } := State.core_setCore ..

theorem State.setSpad_wf {s : State} (h : Memory.wf s.core.spad = true) (a : Nat) (bs : Bytes) :
    Memory.wf (s.setSpad a bs).core.spad = true := by
  rw [State.setSpad_core]; exact Memory.wf_writes h a bs

end Sys2Proof.Machine
end

