-- ==== Sys2Proof/Laws/Ops.lean ====
section
/-! SUPPORT. What the shared operations answer: a lane that completes, checks that pass, operands that are ready. -/

namespace Sys2Proof.Machine

open Sys2Proof Host

@[simp] theorem lane_ok (e : Engine) (s t : State) : lane e s (.ok t) = .next (t.advance e) := rfl
@[simp] theorem lane_pure (e : Engine) (s t : State) : lane e s (pure t) = .next (t.advance e) := rfl
@[simp] theorem lane_stall (e : Engine) (s : State) : lane e s (.error .stall) = .next s := rfl
@[simp] theorem lane_wait (e : Engine) (s : State) : lane e s wait = .next s := rfl
@[simp] theorem lane_trap (e : Engine) (s : State) (c : Cause) :
    lane e s (trap c) = .next (s.takeTrap e c 0 0 (s.laneAt e)) := rfl
@[simp] theorem lane_trapAt (e : Engine) (s : State) (c : Cause) (a : Word) :
    lane e s (trapAt c a) = .next (s.takeTrap e c a 0 (s.laneAt e)) := rfl

@[simp] theorem ok_bind {α β : Type} (a : α) (f : α → M β) : ((.ok a : M α) >>= f) = f a := rfl
@[simp] theorem pure_bind_M {α β : Type} (a : α) (f : α → M β) : ((pure a : M α) >>= f) = f a := rfl
@[simp] theorem error_bind {α β : Type} (x : Stop) (f : α → M β) : ((.error x : M α) >>= f) = .error x := rfl
@[simp] theorem trap_bind {α β : Type} (c : Cause) (f : α → M β) : ((trap c : M α) >>= f) = trap c := rfl
@[simp] theorem wait_bind {α β : Type} (f : α → M β) : ((wait : M α) >>= f) = wait := rfl

@[simp] theorem chk_true (c : Cause) : chk true c = .ok ⟨⟩ := rfl
@[simp] theorem chk_false (c : Cause) : chk false c = trap c := rfl
@[simp] theorem chkAt_true (c : Cause) (a : Word) : chkAt true c a = .ok ⟨⟩ := rfl
@[simp] theorem chkAt_false (c : Cause) (a : Word) : chkAt false c a = trapAt c a := rfl
@[simp] theorem holdUntil_true : holdUntil true = .ok ⟨⟩ := rfl
@[simp] theorem holdUntil_false : holdUntil false = wait := rfl

theorem chk_of {b : Bool} (h : b = true) (c : Cause) : chk b c = .ok ⟨⟩ := by rw [h]; rfl
theorem chkAt_of {b : Bool} (h : b = true) (c : Cause) (a : Word) : chkAt b c a = .ok ⟨⟩ := by rw [h]; rfl
theorem holdUntil_of {b : Bool} (h : b = true) : holdUntil b = .ok ⟨⟩ := by rw [h]; rfl

/-- Ready control operands pass their checks. -/
theorem State.useC_of_ready {s : State} {srcs : List CSrc} {dsts : List CReg} (h : s.ReadyC srcs dsts) :
    s.useC srcs dsts = .ok ⟨⟩ := by
  have h1 : srcs.all s.latchFilled = true := List.all_eq_true.2 fun f hf => by
    have := h.1 f hf
    unfold State.latchFilled isLatch
    by_cases g : 32 ≤ f.toNat
    · rw [if_pos g] at this; simp [this]
    · simp [g]
  have h2 : (srcs.all fun f => isLatch f || (s.view .c).inFrame f.toNat) = true := List.all_eq_true.2 fun f hf => by
    have := h.1 f hf
    unfold isLatch Shared.inFrame
    by_cases g : 32 ≤ f.toNat
    · simp [g]
    · rw [if_neg g] at this; simp [this]
  have h3 : (dsts.all fun d => (s.view .c).inFrame d.toNat) = true :=
    List.all_eq_true.2 fun d hd => decide_eq_true (h.2 d hd)
  unfold State.useC
  rw [h1, h2, h3]; rfl

/-- Ready control registers of another engine's lane pass their check. -/
theorem State.useX_of_ready {s : State} {e : Engine} {srcs : List CSrc} (h : s.ReadyX e srcs) : s.useX e srcs = .ok ⟨⟩ :=
  chk_of (List.all_eq_true.2 fun f hf => decide_eq_true (h f hf)) _

/-- Ready access operands pass their check. -/
theorem State.useA_of_ready {s : State} {srcs : List ASrc} (h : s.ReadyA srcs) : s.useA srcs = .ok ⟨⟩ :=
  chk_of (List.all_eq_true.2 fun f hf => by rcases h f hf with g | g <;> simp [g]) _

/-- Ready vector operands pass their checks. -/
theorem State.useV_of_ready {s : State} {srcs : List VSrc} (h : s.ReadyV srcs) : s.useV srcs = .ok ⟨⟩ := by
  unfold State.useV
  rw [chk_of (List.all_eq_true.2 fun f hf => ?_), ok_bind, holdUntil_of (List.all_eq_true.2 fun f hf => ?_)]
  · rcases h f hf with g | g | g
    · have : f.toNat < 68 := by omega
      simp [this]
    · simp [g.1]
    · rcases g.2 with g' | g'
      · simp [g']
      · simp [g']
  · rcases h f hf with g | g | g
    · simp [g]
    · simp [g.2]
    · simp [g.1]

theorem State.roomV_of_room {s : State} {d : VDst} (h : s.Room d) : s.roomV d = .ok ⟨⟩ := by
  unfold State.roomV
  split
  · rename_i q hq; exact holdUntil_of (decide_eq_true (h q hq))
  · rfl

/-- An aligned address below 2^56 passes its checks. -/
theorem scalarAddr_of {a : Word} {n : Nat} (h1 : a.toNat < 2 ^ 56) (h2 : a.toNat % n = 0) : scalarAddr a n = .ok ⟨⟩ := by
  unfold scalarAddr
  rw [chkAt_of (decide_eq_true h1), ok_bind, chkAt_of (decide_eq_true h2)]

/-- No granule of intact bytes is poisoned for the run. -/
theorem State.Intact.good {s : State} {pa n x : Nat} (h : s.Intact pa n) (hx : x ∈ granules pa n) :
    s.dev.m.badGranule s.overlay x = false := by
  obtain ⟨h1, -, h3⟩ := h.2 x hx
  simp [Mem.badGranule, h1, h3]

theorem State.readable_of_intact {s : State} {va : Word} {pa n : Nat} (h : s.Intact pa n) :
    s.readable s.overlay va pa n = .ok ⟨⟩ := by
  unfold State.readable
  rw [if_neg (by have := h.1; omega)]
  refine chkAt_of ?_ _ _
  rw [Bool.not_eq_true', Mem.poisoned, List.any_eq_false]
  intro x hx
  rw [h.good hx]; exact Bool.false_ne_true

theorem State.mergeable_of_intact {s : State} {va : Word} {pa n : Nat} (h : s.Intact pa n) :
    s.mergeable s.overlay va pa n = .ok ⟨⟩ := by
  unfold State.mergeable
  rw [if_neg (by have := h.1; omega)]
  have h1 (p : Nat → Bool) : ((granules pa n).filter p).any (s.dev.m.badGranule s.overlay) = false := by
    rw [List.any_eq_false]
    intro x hx
    rw [h.good (List.mem_filter.1 hx).1]; exact Bool.false_ne_true
  have h2 (p : Nat → Bool) : (((granules pa n).filter p).find? fun x =>
      Sparse.get false s.dev.m.weak x && !Sparse.get false s.overlay.whole x) = none := by
    rw [List.find?_eq_none]
    intro x hx
    rw [(h.2 x (List.mem_filter.1 hx).1).2.1]; exact Bool.false_ne_true
  dsimp only
  rw [if_neg (by rw [h1]; exact Bool.false_ne_true), h2]

/-- What AES-256-GCM seals, it opens again under the same key, IV and additional data (09 R344, 13 R400). -/
theorem gcmOpen_gcmSeal (k : KeyId) (iv : Nat) (aad p : Bytes) : gcmOpen k iv aad (gcmSeal k iv aad p) = some p := by
  have hx (c : Bytes) : (gcmXor k iv c).length = c.length := by simp [gcmXor]
  have ht (c : Bytes) : (gcmTag k iv aad c).length = 16 := by simp [gcmTag]
  have hxx : gcmXor k iv (gcmXor k iv p) = p := by
    apply List.ext_getElem (by simp [gcmXor])
    intro i h1 h2
    simp [gcmXor, BitVec.xor_assoc]
  simp only [gcmSeal, gcmOpen, List.length_append, ht, Nat.add_sub_cancel, List.take_left', List.drop_left', hxx]
  simp

end Sys2Proof.Machine
end

