-- ==== Sys2Proof/Laws/PerInstr.lean ====
section
/-! SUPPORT. Statements made for every instruction, with one lemma per constructor. -/

set_option linter.unusedVariables false

namespace Sys2Proof.Laws

open Sys2Proof

/-- Decoding the encoding of a well-formed instruction gives it back (05 R157-R180). -/
def Roundtrip.Statement (i : Instr) : Prop :=
  i.wf = true → ∀ n, encode i = some n → decodeLane n.engine n.word n.ext = .ok i

theorem Roundtrip.of_lane {i : Instr} {e : Engine} {w : Nat} {e0 e2 : Option (BitVec 28)}
    (he : encode i = some ⟨e, w, e0, e2⟩) (h : i.wf = true → decodeLane e w ⟨e0, e2⟩ = .ok i) : Roundtrip.Statement i := by
  intro hwf n hn
  rw [he] at hn
  obtain rfl := Option.some.inj hn
  exact h hwf

theorem Roundtrip.nop (e : Engine) : Roundtrip.Statement (.nop e) :=
  Roundtrip.of_lane rfl fun hwf => decodeLane_nop e hwf _ rfl

theorem Roundtrip.endE (e : Engine) : Roundtrip.Statement (.endE e) :=
  Roundtrip.of_lane rfl fun hwf => decodeLane_endE e hwf _ rfl

theorem Roundtrip.finc (e : Engine) (f : FReg) (n : Imm 18) : Roundtrip.Statement (.finc e f n) :=
  Roundtrip.of_lane rfl fun hwf => decodeLane_finc e f n hwf _ rfl

theorem Roundtrip.fwait (e : Engine) (f : FReg) (sub : Bool) (n : Imm 18) : Roundtrip.Statement (.fwait e f sub n) :=
  Roundtrip.of_lane rfl fun hwf => decodeLane_fwait e f sub n hwf _ rfl

theorem Roundtrip.fwaitComplete (core : Nat) : Roundtrip.Statement (.fwaitComplete core) :=
  fun _ _ h => nomatch h

theorem Roundtrip.fset (e : Engine) (f : FReg) (n : Imm 18) : Roundtrip.Statement (.fset e f n) :=
  Roundtrip.of_lane rfl fun hwf => decodeLane_fset e f n hwf _ rfl

theorem Roundtrip.kwait (e : Engine) (k : KReg) (n : Imm 6) : Roundtrip.Statement (.kwait e k n) :=
  Roundtrip.of_lane rfl fun hwf => decodeLane_kwait e k n hwf _ rfl

theorem Roundtrip.add (rd : CReg) (s1 : CSrc) (s2 : CSrc) : Roundtrip.Statement (.add rd s1 s2) :=
  Roundtrip.of_lane rfl fun hwf => decodeLane_add rd s1 s2 hwf _ rfl

theorem Roundtrip.addImm (rd : CReg) (s1 : CSrc) (imm : Imm 12) : Roundtrip.Statement (.addImm rd s1 imm) :=
  Roundtrip.of_lane rfl fun hwf => decodeLane_addImm rd s1 imm hwf _ rfl

theorem Roundtrip.sub (rd : CReg) (s1 : CSrc) (s2 : CSrc) : Roundtrip.Statement (.sub rd s1 s2) :=
  Roundtrip.of_lane rfl fun hwf => decodeLane_sub rd s1 s2 hwf _ rfl

theorem Roundtrip.subImm (rd : CReg) (s1 : CSrc) (imm : Imm 12) : Roundtrip.Statement (.subImm rd s1 imm) :=
  Roundtrip.of_lane rfl fun hwf => decodeLane_subImm rd s1 imm hwf _ rfl

theorem Roundtrip.mul (rd : CReg) (s1 : CSrc) (s2 : CSrc) : Roundtrip.Statement (.mul rd s1 s2) :=
  Roundtrip.of_lane rfl fun hwf => decodeLane_mul rd s1 s2 hwf _ rfl

theorem Roundtrip.mulImm (rd : CReg) (s1 : CSrc) (imm : Imm 12) : Roundtrip.Statement (.mulImm rd s1 imm) :=
  Roundtrip.of_lane rfl fun hwf => decodeLane_mulImm rd s1 imm hwf _ rfl

theorem Roundtrip.mulhu (rd : CReg) (s1 : CSrc) (s2 : CSrc) : Roundtrip.Statement (.mulhu rd s1 s2) :=
  Roundtrip.of_lane rfl fun hwf => decodeLane_mulhu rd s1 s2 hwf _ rfl

theorem Roundtrip.mulhuImm (rd : CReg) (s1 : CSrc) (imm : Imm 12) : Roundtrip.Statement (.mulhuImm rd s1 imm) :=
  Roundtrip.of_lane rfl fun hwf => decodeLane_mulhuImm rd s1 imm hwf _ rfl

theorem Roundtrip.mulhs (rd : CReg) (s1 : CSrc) (s2 : CSrc) : Roundtrip.Statement (.mulhs rd s1 s2) :=
  Roundtrip.of_lane rfl fun hwf => decodeLane_mulhs rd s1 s2 hwf _ rfl

theorem Roundtrip.mulhsImm (rd : CReg) (s1 : CSrc) (imm : Imm 12) : Roundtrip.Statement (.mulhsImm rd s1 imm) :=
  Roundtrip.of_lane rfl fun hwf => decodeLane_mulhsImm rd s1 imm hwf _ rfl

theorem Roundtrip.divu (rd : CReg) (s1 : CSrc) (s2 : CSrc) : Roundtrip.Statement (.divu rd s1 s2) :=
  Roundtrip.of_lane rfl fun hwf => decodeLane_divu rd s1 s2 hwf _ rfl

theorem Roundtrip.divuImm (rd : CReg) (s1 : CSrc) (imm : Imm 12) : Roundtrip.Statement (.divuImm rd s1 imm) :=
  Roundtrip.of_lane rfl fun hwf => decodeLane_divuImm rd s1 imm hwf _ rfl

theorem Roundtrip.divs (rd : CReg) (s1 : CSrc) (s2 : CSrc) : Roundtrip.Statement (.divs rd s1 s2) :=
  Roundtrip.of_lane rfl fun hwf => decodeLane_divs rd s1 s2 hwf _ rfl

theorem Roundtrip.divsImm (rd : CReg) (s1 : CSrc) (imm : Imm 12) : Roundtrip.Statement (.divsImm rd s1 imm) :=
  Roundtrip.of_lane rfl fun hwf => decodeLane_divsImm rd s1 imm hwf _ rfl

theorem Roundtrip.remu (rd : CReg) (s1 : CSrc) (s2 : CSrc) : Roundtrip.Statement (.remu rd s1 s2) :=
  Roundtrip.of_lane rfl fun hwf => decodeLane_remu rd s1 s2 hwf _ rfl

theorem Roundtrip.remuImm (rd : CReg) (s1 : CSrc) (imm : Imm 12) : Roundtrip.Statement (.remuImm rd s1 imm) :=
  Roundtrip.of_lane rfl fun hwf => decodeLane_remuImm rd s1 imm hwf _ rfl

theorem Roundtrip.rems (rd : CReg) (s1 : CSrc) (s2 : CSrc) : Roundtrip.Statement (.rems rd s1 s2) :=
  Roundtrip.of_lane rfl fun hwf => decodeLane_rems rd s1 s2 hwf _ rfl

theorem Roundtrip.remsImm (rd : CReg) (s1 : CSrc) (imm : Imm 12) : Roundtrip.Statement (.remsImm rd s1 imm) :=
  Roundtrip.of_lane rfl fun hwf => decodeLane_remsImm rd s1 imm hwf _ rfl

theorem Roundtrip.and (rd : CReg) (s1 : CSrc) (s2 : CSrc) : Roundtrip.Statement (.and rd s1 s2) :=
  Roundtrip.of_lane rfl fun hwf => decodeLane_and rd s1 s2 hwf _ rfl

theorem Roundtrip.andImm (rd : CReg) (s1 : CSrc) (imm : Imm 12) : Roundtrip.Statement (.andImm rd s1 imm) :=
  Roundtrip.of_lane rfl fun hwf => decodeLane_andImm rd s1 imm hwf _ rfl

theorem Roundtrip.or (rd : CReg) (s1 : CSrc) (s2 : CSrc) : Roundtrip.Statement (.or rd s1 s2) :=
  Roundtrip.of_lane rfl fun hwf => decodeLane_or rd s1 s2 hwf _ rfl

theorem Roundtrip.orImm (rd : CReg) (s1 : CSrc) (imm : Imm 12) : Roundtrip.Statement (.orImm rd s1 imm) :=
  Roundtrip.of_lane rfl fun hwf => decodeLane_orImm rd s1 imm hwf _ rfl

theorem Roundtrip.xor (rd : CReg) (s1 : CSrc) (s2 : CSrc) : Roundtrip.Statement (.xor rd s1 s2) :=
  Roundtrip.of_lane rfl fun hwf => decodeLane_xor rd s1 s2 hwf _ rfl

theorem Roundtrip.xorImm (rd : CReg) (s1 : CSrc) (imm : Imm 12) : Roundtrip.Statement (.xorImm rd s1 imm) :=
  Roundtrip.of_lane rfl fun hwf => decodeLane_xorImm rd s1 imm hwf _ rfl

theorem Roundtrip.andn (rd : CReg) (s1 : CSrc) (s2 : CSrc) : Roundtrip.Statement (.andn rd s1 s2) :=
  Roundtrip.of_lane rfl fun hwf => decodeLane_andn rd s1 s2 hwf _ rfl

theorem Roundtrip.andnImm (rd : CReg) (s1 : CSrc) (imm : Imm 12) : Roundtrip.Statement (.andnImm rd s1 imm) :=
  Roundtrip.of_lane rfl fun hwf => decodeLane_andnImm rd s1 imm hwf _ rfl

theorem Roundtrip.shl (rd : CReg) (s1 : CSrc) (s2 : CSrc) : Roundtrip.Statement (.shl rd s1 s2) :=
  Roundtrip.of_lane rfl fun hwf => decodeLane_shl rd s1 s2 hwf _ rfl

theorem Roundtrip.shlImm (rd : CReg) (s1 : CSrc) (imm : Imm 12) : Roundtrip.Statement (.shlImm rd s1 imm) :=
  Roundtrip.of_lane rfl fun hwf => decodeLane_shlImm rd s1 imm hwf _ rfl

theorem Roundtrip.shr (rd : CReg) (s1 : CSrc) (s2 : CSrc) : Roundtrip.Statement (.shr rd s1 s2) :=
  Roundtrip.of_lane rfl fun hwf => decodeLane_shr rd s1 s2 hwf _ rfl

theorem Roundtrip.shrImm (rd : CReg) (s1 : CSrc) (imm : Imm 12) : Roundtrip.Statement (.shrImm rd s1 imm) :=
  Roundtrip.of_lane rfl fun hwf => decodeLane_shrImm rd s1 imm hwf _ rfl

theorem Roundtrip.sar (rd : CReg) (s1 : CSrc) (s2 : CSrc) : Roundtrip.Statement (.sar rd s1 s2) :=
  Roundtrip.of_lane rfl fun hwf => decodeLane_sar rd s1 s2 hwf _ rfl

theorem Roundtrip.sarImm (rd : CReg) (s1 : CSrc) (imm : Imm 12) : Roundtrip.Statement (.sarImm rd s1 imm) :=
  Roundtrip.of_lane rfl fun hwf => decodeLane_sarImm rd s1 imm hwf _ rfl

theorem Roundtrip.rotl (rd : CReg) (s1 : CSrc) (s2 : CSrc) : Roundtrip.Statement (.rotl rd s1 s2) :=
  Roundtrip.of_lane rfl fun hwf => decodeLane_rotl rd s1 s2 hwf _ rfl

theorem Roundtrip.rotlImm (rd : CReg) (s1 : CSrc) (imm : Imm 12) : Roundtrip.Statement (.rotlImm rd s1 imm) :=
  Roundtrip.of_lane rfl fun hwf => decodeLane_rotlImm rd s1 imm hwf _ rfl

theorem Roundtrip.min (rd : CReg) (s1 : CSrc) (s2 : CSrc) : Roundtrip.Statement (.min rd s1 s2) :=
  Roundtrip.of_lane rfl fun hwf => decodeLane_min rd s1 s2 hwf _ rfl

theorem Roundtrip.minImm (rd : CReg) (s1 : CSrc) (imm : Imm 12) : Roundtrip.Statement (.minImm rd s1 imm) :=
  Roundtrip.of_lane rfl fun hwf => decodeLane_minImm rd s1 imm hwf _ rfl

theorem Roundtrip.max (rd : CReg) (s1 : CSrc) (s2 : CSrc) : Roundtrip.Statement (.max rd s1 s2) :=
  Roundtrip.of_lane rfl fun hwf => decodeLane_max rd s1 s2 hwf _ rfl

theorem Roundtrip.maxImm (rd : CReg) (s1 : CSrc) (imm : Imm 12) : Roundtrip.Statement (.maxImm rd s1 imm) :=
  Roundtrip.of_lane rfl fun hwf => decodeLane_maxImm rd s1 imm hwf _ rfl

theorem Roundtrip.minu (rd : CReg) (s1 : CSrc) (s2 : CSrc) : Roundtrip.Statement (.minu rd s1 s2) :=
  Roundtrip.of_lane rfl fun hwf => decodeLane_minu rd s1 s2 hwf _ rfl

theorem Roundtrip.minuImm (rd : CReg) (s1 : CSrc) (imm : Imm 12) : Roundtrip.Statement (.minuImm rd s1 imm) :=
  Roundtrip.of_lane rfl fun hwf => decodeLane_minuImm rd s1 imm hwf _ rfl

theorem Roundtrip.maxu (rd : CReg) (s1 : CSrc) (s2 : CSrc) : Roundtrip.Statement (.maxu rd s1 s2) :=
  Roundtrip.of_lane rfl fun hwf => decodeLane_maxu rd s1 s2 hwf _ rfl

theorem Roundtrip.maxuImm (rd : CReg) (s1 : CSrc) (imm : Imm 12) : Roundtrip.Statement (.maxuImm rd s1 imm) :=
  Roundtrip.of_lane rfl fun hwf => decodeLane_maxuImm rd s1 imm hwf _ rfl

theorem Roundtrip.clz (rd : CReg) (s1 : CSrc) : Roundtrip.Statement (.clz rd s1) :=
  Roundtrip.of_lane rfl fun hwf => decodeLane_clz rd s1 hwf _ rfl

theorem Roundtrip.ctz (rd : CReg) (s1 : CSrc) : Roundtrip.Statement (.ctz rd s1) :=
  Roundtrip.of_lane rfl fun hwf => decodeLane_ctz rd s1 hwf _ rfl

theorem Roundtrip.popc (rd : CReg) (s1 : CSrc) : Roundtrip.Statement (.popc rd s1) :=
  Roundtrip.of_lane rfl fun hwf => decodeLane_popc rd s1 hwf _ rfl

theorem Roundtrip.sext (rd : CReg) (s1 : CSrc) (s2 : CSrc) : Roundtrip.Statement (.sext rd s1 s2) :=
  Roundtrip.of_lane rfl fun hwf => decodeLane_sext rd s1 s2 hwf _ rfl

theorem Roundtrip.sextImm (rd : CReg) (s1 : CSrc) (imm : Imm 12) : Roundtrip.Statement (.sextImm rd s1 imm) :=
  Roundtrip.of_lane rfl fun hwf => decodeLane_sextImm rd s1 imm hwf _ rfl

theorem Roundtrip.zext (rd : CReg) (s1 : CSrc) (s2 : CSrc) : Roundtrip.Statement (.zext rd s1 s2) :=
  Roundtrip.of_lane rfl fun hwf => decodeLane_zext rd s1 s2 hwf _ rfl

theorem Roundtrip.zextImm (rd : CReg) (s1 : CSrc) (imm : Imm 12) : Roundtrip.Statement (.zextImm rd s1 imm) :=
  Roundtrip.of_lane rfl fun hwf => decodeLane_zextImm rd s1 imm hwf _ rfl

theorem Roundtrip.sel (rd : CReg) (s1 : CSrc) (s2 : CSrc) (s3 : CSrc) : Roundtrip.Statement (.sel rd s1 s2 s3) :=
  Roundtrip.of_lane rfl fun hwf => decodeLane_sel rd s1 s2 s3 hwf _ rfl

theorem Roundtrip.cmp (rd : CReg) (s1 : CSrc) (s2 : CSrc) (cond : Cond) : Roundtrip.Statement (.cmp rd s1 s2 cond) :=
  Roundtrip.of_lane rfl fun hwf => decodeLane_cmp rd s1 s2 cond hwf _ rfl

theorem Roundtrip.li (rd : CReg) (imm : Imm 19) : Roundtrip.Statement (.li rd imm) :=
  Roundtrip.of_lane rfl fun hwf => decodeLane_li rd imm hwf _ rfl

theorem Roundtrip.b (off : Imm 24) : Roundtrip.Statement (.b off) :=
  Roundtrip.of_lane rfl fun hwf => decodeLane_b off hwf _ rfl

theorem Roundtrip.bc (cond : Cond) (s1 : CSrc) (s2 : CSrc) (off : Imm 8) : Roundtrip.Statement (.bc cond s1 s2 off) :=
  Roundtrip.of_lane rfl fun hwf => decodeLane_bc cond s1 s2 off hwf _ rfl

theorem Roundtrip.br (s1 : CSrc) : Roundtrip.Statement (.br s1) :=
  Roundtrip.of_lane rfl fun hwf => decodeLane_br s1 hwf _ rfl

theorem Roundtrip.call (off : Imm 24) : Roundtrip.Statement (.call off) :=
  Roundtrip.of_lane rfl fun hwf => decodeLane_call off hwf _ rfl

theorem Roundtrip.callr (s1 : CSrc) : Roundtrip.Statement (.callr s1) :=
  Roundtrip.of_lane rfl fun hwf => decodeLane_callr s1 hwf _ rfl

theorem Roundtrip.ret : Roundtrip.Statement (.ret) :=
  Roundtrip.of_lane rfl fun hwf => decodeLane_ret hwf _ rfl

theorem Roundtrip.frame (f : BitVec 7) : Roundtrip.Statement (.frame f) :=
  Roundtrip.of_lane rfl fun hwf => decodeLane_frame f hwf _ rfl

theorem Roundtrip.ld (rt : CReg) (s1 : CSrc) (sz : BitVec 2) (sg : Bool) (off : Imm 9) : Roundtrip.Statement (.ld rt s1 sz sg off) :=
  Roundtrip.of_lane rfl fun hwf => decodeLane_ld rt s1 sz sg off hwf _ rfl

theorem Roundtrip.st (rt : CSrc) (s1 : CSrc) (sz : BitVec 2) (off : Imm 9) : Roundtrip.Statement (.st rt s1 sz off) :=
  Roundtrip.of_lane rfl fun hwf => decodeLane_st rt s1 sz off hwf _ rfl

theorem Roundtrip.amoAdd (rd : CReg) (s1 : CSrc) (s2 : CSrc) (scope : Scope) (wide : Bool) : Roundtrip.Statement (.amoAdd rd s1 s2 scope wide) :=
  Roundtrip.of_lane rfl fun hwf => decodeLane_amoAdd rd s1 s2 scope wide hwf _ rfl

theorem Roundtrip.amoAnd (rd : CReg) (s1 : CSrc) (s2 : CSrc) (scope : Scope) (wide : Bool) : Roundtrip.Statement (.amoAnd rd s1 s2 scope wide) :=
  Roundtrip.of_lane rfl fun hwf => decodeLane_amoAnd rd s1 s2 scope wide hwf _ rfl

theorem Roundtrip.amoOr (rd : CReg) (s1 : CSrc) (s2 : CSrc) (scope : Scope) (wide : Bool) : Roundtrip.Statement (.amoOr rd s1 s2 scope wide) :=
  Roundtrip.of_lane rfl fun hwf => decodeLane_amoOr rd s1 s2 scope wide hwf _ rfl

theorem Roundtrip.amoXor (rd : CReg) (s1 : CSrc) (s2 : CSrc) (scope : Scope) (wide : Bool) : Roundtrip.Statement (.amoXor rd s1 s2 scope wide) :=
  Roundtrip.of_lane rfl fun hwf => decodeLane_amoXor rd s1 s2 scope wide hwf _ rfl

theorem Roundtrip.amoMin (rd : CReg) (s1 : CSrc) (s2 : CSrc) (scope : Scope) (wide : Bool) : Roundtrip.Statement (.amoMin rd s1 s2 scope wide) :=
  Roundtrip.of_lane rfl fun hwf => decodeLane_amoMin rd s1 s2 scope wide hwf _ rfl

theorem Roundtrip.amoMax (rd : CReg) (s1 : CSrc) (s2 : CSrc) (scope : Scope) (wide : Bool) : Roundtrip.Statement (.amoMax rd s1 s2 scope wide) :=
  Roundtrip.of_lane rfl fun hwf => decodeLane_amoMax rd s1 s2 scope wide hwf _ rfl

theorem Roundtrip.amoXch (rd : CReg) (s1 : CSrc) (s2 : CSrc) (scope : Scope) (wide : Bool) : Roundtrip.Statement (.amoXch rd s1 s2 scope wide) :=
  Roundtrip.of_lane rfl fun hwf => decodeLane_amoXch rd s1 s2 scope wide hwf _ rfl

theorem Roundtrip.amoCas (rd : CReg) (s1 : CSrc) (s2 : CSrc) (s3 : CSrc) (scope : Scope) (wide : Bool) : Roundtrip.Statement (.amoCas rd s1 s2 s3 scope wide) :=
  Roundtrip.of_lane rfl fun hwf => decodeLane_amoCas rd s1 s2 s3 scope wide hwf _ rfl

theorem Roundtrip.acq (rd : CReg) (s1 : CSrc) (s2 : CSrc) (scope : Scope) : Roundtrip.Statement (.acq rd s1 s2 scope) :=
  Roundtrip.of_lane rfl fun hwf => decodeLane_acq rd s1 s2 scope hwf _ rfl

theorem Roundtrip.rel (rd : CReg) (s1 : CSrc) (s2 : CSrc) (scope : Scope) : Roundtrip.Statement (.rel rd s1 s2 scope) :=
  Roundtrip.of_lane rfl fun hwf => decodeLane_rel rd s1 s2 scope hwf _ rfl

theorem Roundtrip.bind (s1 : CSrc) (s2 : CSrc) (s3 : CSrc) (scope : Scope) : Roundtrip.Statement (.bind s1 s2 s3 scope) :=
  Roundtrip.of_lane rfl fun hwf => decodeLane_bind s1 s2 s3 scope hwf _ rfl

theorem Roundtrip.unbind (s1 : CSrc) (s2 : CSrc) (scope : Scope) : Roundtrip.Statement (.unbind s1 s2 scope) :=
  Roundtrip.of_lane rfl fun hwf => decodeLane_unbind s1 s2 scope hwf _ rfl

theorem Roundtrip.fence (scope : Scope) : Roundtrip.Statement (.fence scope) :=
  Roundtrip.of_lane rfl fun hwf => decodeLane_fence scope hwf _ rfl

theorem Roundtrip.setShape (h : ShReg) (s1 : CSrc) (s2 : CSrc) (s3 : CSrc) (fmt : BitVec 7) : Roundtrip.Statement (.setShape h s1 s2 s3 fmt) :=
  Roundtrip.of_lane rfl fun hwf => decodeLane_setShape h s1 s2 s3 fmt hwf _ rfl

theorem Roundtrip.getShape (rd : CReg) (h : ShReg) (sl : BitVec 3) : Roundtrip.Statement (.getShape rd h sl) :=
  Roundtrip.of_lane rfl fun hwf => decodeLane_getShape rd h sl hwf _ rfl

theorem Roundtrip.thld (h : ThReg) (s1 : CSrc) (off : BitVec 7) : Roundtrip.Statement (.thld h s1 off) :=
  Roundtrip.of_lane rfl fun hwf => decodeLane_thld h s1 off hwf _ rfl

theorem Roundtrip.thst (h : ThReg) (s1 : CSrc) (off : BitVec 7) : Roundtrip.Statement (.thst h s1 off) :=
  Roundtrip.of_lane rfl fun hwf => decodeLane_thst h s1 off hwf _ rfl

theorem Roundtrip.thset (h : ThReg) (fs : BitVec 7) (s1 : CSrc) : Roundtrip.Statement (.thset h fs s1) :=
  Roundtrip.of_lane rfl fun hwf => decodeLane_thset h fs s1 hwf _ rfl

theorem Roundtrip.thget (rd : CReg) (h : ThReg) (fs : BitVec 7) : Roundtrip.Statement (.thget rd h fs) :=
  Roundtrip.of_lane rfl fun hwf => decodeLane_thget rd h fs hwf _ rfl

theorem Roundtrip.seql (n : BitVec 3) (s1 : CSrc) : Roundtrip.Statement (.seql n s1) :=
  Roundtrip.of_lane rfl fun hwf => decodeLane_seql n s1 hwf _ rfl

theorem Roundtrip.seqs (n : BitVec 3) (j : BitVec 2) (ak : AReg) (s1 : CSrc) : Roundtrip.Statement (.seqs n j ak s1) :=
  Roundtrip.of_lane rfl fun hwf => decodeLane_seqs n j ak s1 hwf _ rfl

theorem Roundtrip.loopb (lv : BitVec 3) (len : BitVec 7) : Roundtrip.Statement (.loopb lv len) :=
  Roundtrip.of_lane rfl fun hwf => decodeLane_loopb lv len hwf _ rfl

theorem Roundtrip.loopc (lv : BitVec 3) (len : BitVec 7) (s1 : CSrc) (s2 : CSrc) : Roundtrip.Statement (.loopc lv len s1 s2) :=
  Roundtrip.of_lane rfl fun hwf => decodeLane_loopc lv len s1 s2 hwf _ rfl

theorem Roundtrip.loopIterationBoundary (core : Nat) : Roundtrip.Statement (.loopIterationBoundary core) :=
  fun _ _ h => nomatch h

theorem Roundtrip.overwritingIterationStart (core : Nat) : Roundtrip.Statement (.overwritingIterationStart core) :=
  fun _ _ h => nomatch h

theorem Roundtrip.ovw (n : BitVec 3) : Roundtrip.Statement (.ovw n) :=
  Roundtrip.of_lane rfl fun hwf => decodeLane_ovw n hwf _ rfl

theorem Roundtrip.foot (j : BitVec 2) (ak : AReg) (s1 : CSrc) (s2 : CSrc) (s3 : CSrc) : Roundtrip.Statement (.foot j ak s1 s2 s3) :=
  Roundtrip.of_lane rfl fun hwf => decodeLane_foot j ak s1 s2 s3 hwf _ rfl

theorem Roundtrip.footv (ak : AReg) (vs : BitVec 7) : Roundtrip.Statement (.footv ak vs) :=
  Roundtrip.of_lane rfl fun hwf => decodeLane_footv ak vs hwf _ rfl

theorem Roundtrip.region (s1 : CSrc) (s2 : CSrc) (s3 : CSrc) (s4 : CSrc) : Roundtrip.Statement (.region s1 s2 s3 s4) :=
  Roundtrip.of_lane rfl fun hwf => decodeLane_region s1 s2 s3 s4 hwf _ rfl

theorem Roundtrip.regionEnd : Roundtrip.Statement (.regionEnd) :=
  Roundtrip.of_lane rfl fun hwf => decodeLane_regionEnd hwf _ rfl

theorem Roundtrip.exitI : Roundtrip.Statement (.exitI) :=
  Roundtrip.of_lane rfl fun hwf => decodeLane_exitI hwf _ rfl

theorem Roundtrip.yieldI : Roundtrip.Statement (.yieldI) :=
  Roundtrip.of_lane rfl fun hwf => decodeLane_yieldI hwf _ rfl

theorem Roundtrip.locq (rd : CReg) (s1 : CSrc) : Roundtrip.Statement (.locq rd s1) :=
  Roundtrip.of_lane rfl fun hwf => decodeLane_locq rd s1 hwf _ rfl

theorem Roundtrip.csrr (rd : CReg) (csr : BitVec 12) : Roundtrip.Statement (.csrr rd csr) :=
  Roundtrip.of_lane rfl fun hwf => decodeLane_csrr rd csr hwf _ rfl

theorem Roundtrip.csrw (csr : BitVec 12) (s1 : CSrc) : Roundtrip.Statement (.csrw csr s1) :=
  Roundtrip.of_lane rfl fun hwf => decodeLane_csrw csr s1 hwf _ rfl

theorem Roundtrip.winstWrite (core : Nat) (val : Word) : Roundtrip.Statement (.winstWrite core val) :=
  fun _ _ h => nomatch h

theorem Roundtrip.trap (s1 : CSrc) (code : BitVec 7) : Roundtrip.Statement (.trap s1 code) :=
  Roundtrip.of_lane rfl fun hwf => decodeLane_trap s1 code hwf _ rfl

theorem Roundtrip.eret : Roundtrip.Statement (.eret) :=
  Roundtrip.of_lane rfl fun hwf => decodeLane_eret hwf _ rfl

theorem Roundtrip.waitmem (rd : CReg) (s1 : CSrc) (s2 : CSrc) (scope : Scope) : Roundtrip.Statement (.waitmem rd s1 s2 scope) :=
  Roundtrip.of_lane rfl fun hwf => decodeLane_waitmem rd s1 s2 scope hwf _ rfl

theorem Roundtrip.scstopCyc (s1 : CSrc) (s2 : CSrc) (s3 : CSrc) : Roundtrip.Statement (.scstopCyc s1 s2 s3) :=
  Roundtrip.of_lane rfl fun hwf => decodeLane_scstopCyc s1 s2 s3 hwf _ rfl

theorem Roundtrip.scstopBeat (s1 : CSrc) (s2 : CSrc) (s3 : CSrc) : Roundtrip.Statement (.scstopBeat s1 s2 s3) :=
  Roundtrip.of_lane rfl fun hwf => decodeLane_scstopBeat s1 s2 s3 hwf _ rfl

theorem Roundtrip.scstopCountElapsed (ltn : Nat) : Roundtrip.Statement (.scstopCountElapsed ltn) :=
  fun _ _ h => nomatch h

theorem Roundtrip.scout (rd : CReg) (s1 : CSrc) (s2 : CSrc) (s3 : CSrc) (s4 : CSrc) (spad : Bool) : Roundtrip.Statement (.scout rd s1 s2 s3 s4 spad) :=
  Roundtrip.of_lane rfl fun hwf => decodeLane_scout rd s1 s2 s3 s4 spad hwf _ rfl

theorem Roundtrip.scin (rd : CReg) (s1 : CSrc) (s2 : CSrc) (s3 : CSrc) (spad : Bool) : Roundtrip.Statement (.scin rd s1 s2 s3 spad) :=
  Roundtrip.of_lane rfl fun hwf => decodeLane_scin rd s1 s2 s3 spad hwf _ rfl

theorem Roundtrip.scgo (s1 : CSrc) (s2 : CSrc) : Roundtrip.Statement (.scgo s1 s2) :=
  Roundtrip.of_lane rfl fun hwf => decodeLane_scgo s1 s2 hwf _ rfl

theorem Roundtrip.scown (s1 : CSrc) (s2 : CSrc) (s3 : CSrc) : Roundtrip.Statement (.scown s1 s2 s3) :=
  Roundtrip.of_lane rfl fun hwf => decodeLane_scown s1 s2 s3 hwf _ rfl

theorem Roundtrip.diaginjProd (s1 : CSrc) (s2 : CSrc) (s3 : CSrc) : Roundtrip.Statement (.diaginjProd s1 s2 s3) :=
  Roundtrip.of_lane rfl fun hwf => decodeLane_diaginjProd s1 s2 s3 hwf _ rfl

theorem Roundtrip.diaginjAcc (s1 : CSrc) (s2 : CSrc) (s3 : CSrc) : Roundtrip.Statement (.diaginjAcc s1 s2 s3) :=
  Roundtrip.of_lane rfl fun hwf => decodeLane_diaginjAcc s1 s2 s3 hwf _ rfl

theorem Roundtrip.diaginjVreg (s1 : CSrc) (s2 : CSrc) (s3 : CSrc) : Roundtrip.Statement (.diaginjVreg s1 s2 s3) :=
  Roundtrip.of_lane rfl fun hwf => decodeLane_diaginjVreg s1 s2 s3 hwf _ rfl

theorem Roundtrip.diaginjSpad (s1 : CSrc) (s2 : CSrc) (s3 : CSrc) : Roundtrip.Statement (.diaginjSpad s1 s2 s3) :=
  Roundtrip.of_lane rfl fun hwf => decodeLane_diaginjSpad s1 s2 s3 hwf _ rfl

theorem Roundtrip.tlbinv (kind : BitVec 2) (s1 : CSrc) (s2 : CSrc) : Roundtrip.Statement (.tlbinv kind s1 s2) :=
  Roundtrip.of_lane rfl fun hwf => decodeLane_tlbinv kind s1 s2 hwf _ rfl

theorem Roundtrip.kissue (rd : CReg) (s1 : CSrc) (s2 : CSrc) : Roundtrip.Statement (.kissue rd s1 s2) :=
  Roundtrip.of_lane rfl fun hwf => decodeLane_kissue rd s1 s2 hwf _ rfl

theorem Roundtrip.sxfer (rd : CReg) (s1 : CSrc) : Roundtrip.Statement (.sxfer rd s1) :=
  Roundtrip.of_lane rfl fun hwf => decodeLane_sxfer rd s1 hwf _ rfl

theorem Roundtrip.cancel (rd : CReg) (s1 : CSrc) (lvl : BitVec 3) : Roundtrip.Statement (.cancel rd s1 lvl) :=
  Roundtrip.of_lane rfl fun hwf => decodeLane_cancel rd s1 lvl hwf _ rfl

theorem Roundtrip.frameset (s1 : CSrc) (s2 : CSrc) (slot : BitVec 4) : Roundtrip.Statement (.frameset s1 s2 slot) :=
  Roundtrip.of_lane rfl fun hwf => decodeLane_frameset s1 s2 slot hwf _ rfl

theorem Roundtrip.aadd (ad : AReg) (s1 : ASrc) (s2 : ASrc) : Roundtrip.Statement (.aadd ad s1 s2) :=
  Roundtrip.of_lane rfl fun hwf => decodeLane_aadd ad s1 s2 hwf _ rfl

theorem Roundtrip.aaddImm (ad : AReg) (s1 : ASrc) (imm : Imm 12) : Roundtrip.Statement (.aaddImm ad s1 imm) :=
  Roundtrip.of_lane rfl fun hwf => decodeLane_aaddImm ad s1 imm hwf _ rfl

theorem Roundtrip.amov (ad : AReg) (s1 : ASrc) : Roundtrip.Statement (.amov ad s1) :=
  Roundtrip.of_lane rfl fun hwf => decodeLane_amov ad s1 hwf _ rfl

theorem Roundtrip.amovCtrl (ad : AReg) (e1 : CSrc) : Roundtrip.Statement (.amovCtrl ad e1) :=
  Roundtrip.of_lane rfl fun hwf => decodeLane_amovCtrl ad e1 hwf _ rfl

theorem Roundtrip.ali (ad : AReg) (imm : Imm 19) : Roundtrip.Statement (.ali ad imm) :=
  Roundtrip.of_lane rfl fun hwf => decodeLane_ali ad imm hwf _ rfl

theorem Roundtrip.amul (ad : AReg) (s1 : ASrc) (s2 : ASrc) : Roundtrip.Statement (.amul ad s1 s2) :=
  Roundtrip.of_lane rfl fun hwf => decodeLane_amul ad s1 s2 hwf _ rfl

theorem Roundtrip.amulImm (ad : AReg) (s1 : ASrc) (imm : Imm 12) : Roundtrip.Statement (.amulImm ad s1 imm) :=
  Roundtrip.of_lane rfl fun hwf => decodeLane_amulImm ad s1 imm hwf _ rfl

theorem Roundtrip.ashl (ad : AReg) (s1 : ASrc) (s2 : ASrc) : Roundtrip.Statement (.ashl ad s1 s2) :=
  Roundtrip.of_lane rfl fun hwf => decodeLane_ashl ad s1 s2 hwf _ rfl

theorem Roundtrip.ashlImm (ad : AReg) (s1 : ASrc) (imm : Imm 12) : Roundtrip.Statement (.ashlImm ad s1 imm) :=
  Roundtrip.of_lane rfl fun hwf => decodeLane_ashlImm ad s1 imm hwf _ rfl

theorem Roundtrip.aand (ad : AReg) (s1 : ASrc) (s2 : ASrc) : Roundtrip.Statement (.aand ad s1 s2) :=
  Roundtrip.of_lane rfl fun hwf => decodeLane_aand ad s1 s2 hwf _ rfl

theorem Roundtrip.aandImm (ad : AReg) (s1 : ASrc) (imm : Imm 12) : Roundtrip.Statement (.aandImm ad s1 imm) :=
  Roundtrip.of_lane rfl fun hwf => decodeLane_aandImm ad s1 imm hwf _ rfl

theorem Roundtrip.ard (q : QReg) (s1 : ASrc) (off : Imm 15) : Roundtrip.Statement (.ard q s1 off) :=
  Roundtrip.of_lane rfl fun hwf => decodeLane_ard q s1 off hwf _ rfl

theorem Roundtrip.awr (q : QReg) (s1 : ASrc) (off : Imm 15) : Roundtrip.Statement (.awr q s1 off) :=
  Roundtrip.of_lane rfl fun hwf => decodeLane_awr q s1 off hwf _ rfl

theorem Roundtrip.ardg (q : QReg) (s1 : ASrc) (qi : QReg) (ew : BitVec 2) : Roundtrip.Statement (.ardg q s1 qi ew) :=
  Roundtrip.of_lane rfl fun hwf => decodeLane_ardg q s1 qi ew hwf _ rfl

theorem Roundtrip.awrs (s1 : ASrc) (qd : QReg) (qi : QReg) : Roundtrip.Statement (.awrs s1 qd qi) :=
  Roundtrip.of_lane rfl fun hwf => decodeLane_awrs s1 qd qi hwf _ rfl

theorem Roundtrip.astream (q : QReg) (n : BitVec 6) (lv : BitVec 2) : Roundtrip.Statement (.astream q n lv) :=
  Roundtrip.of_lane rfl fun hwf => decodeLane_astream q n lv hwf _ rfl

theorem Roundtrip.streamLoadElement (core : Nat) (q : QReg) : Roundtrip.Statement (.streamLoadElement core q) :=
  fun _ _ h => nomatch h

theorem Roundtrip.streamStoreElement (core : Nat) (q : QReg) : Roundtrip.Statement (.streamStoreElement core q) :=
  fun _ _ h => nomatch h

theorem Roundtrip.aunbind (q : QReg) : Roundtrip.Statement (.aunbind q) :=
  Roundtrip.of_lane rfl fun hwf => decodeLane_aunbind q hwf _ rfl

theorem Roundtrip.atile (t : TsReg) (s1 : ASrc) (s2 : ASrc) (fmt : BitVec 7) : Roundtrip.Statement (.atile t s1 s2 fmt) :=
  Roundtrip.of_lane rfl fun hwf => decodeLane_atile t s1 s2 fmt hwf _ rfl

theorem Roundtrip.apln (td : TsReg) (ts : TsReg) : Roundtrip.Statement (.apln td ts) :=
  Roundtrip.of_lane rfl fun hwf => decodeLane_apln td ts hwf _ rfl

theorem Roundtrip.aunpln (td : TsReg) (ts : TsReg) (rm : BitVec 3) : Roundtrip.Statement (.aunpln td ts rm) :=
  Roundtrip.of_lane rfl fun hwf => decodeLane_aunpln td ts rm hwf _ rfl

theorem Roundtrip.acb (c : CbReg) (s1 : ASrc) (s2 : ASrc) (size : BitVec 4) : Roundtrip.Statement (.acb c s1 s2 size) :=
  Roundtrip.of_lane rfl fun hwf => decodeLane_acb c s1 s2 size hwf _ rfl

theorem Roundtrip.acbGet (ad : AReg) (c : CbReg) : Roundtrip.Statement (.acbGet ad c) :=
  Roundtrip.of_lane rfl fun hwf => decodeLane_acbGet ad c hwf _ rfl

theorem Roundtrip.acbRel (c : CbReg) : Roundtrip.Statement (.acbRel c) :=
  Roundtrip.of_lane rfl fun hwf => decodeLane_acbRel c hwf _ rfl

theorem Roundtrip.vadd (vd : VDst) (vs1 : VSrc) (vs2 : VSrc) (rm : BitVec 3) : Roundtrip.Statement (.vadd vd vs1 vs2 rm) :=
  Roundtrip.of_lane rfl fun hwf => decodeLane_vadd vd vs1 vs2 rm hwf _ rfl

theorem Roundtrip.vsub (vd : VDst) (vs1 : VSrc) (vs2 : VSrc) (rm : BitVec 3) : Roundtrip.Statement (.vsub vd vs1 vs2 rm) :=
  Roundtrip.of_lane rfl fun hwf => decodeLane_vsub vd vs1 vs2 rm hwf _ rfl

theorem Roundtrip.vmul (vd : VDst) (vs1 : VSrc) (vs2 : VSrc) (rm : BitVec 3) : Roundtrip.Statement (.vmul vd vs1 vs2 rm) :=
  Roundtrip.of_lane rfl fun hwf => decodeLane_vmul vd vs1 vs2 rm hwf _ rfl

theorem Roundtrip.vmulh (vd : VDst) (vs1 : VSrc) (vs2 : VSrc) : Roundtrip.Statement (.vmulh vd vs1 vs2) :=
  Roundtrip.of_lane rfl fun hwf => decodeLane_vmulh vd vs1 vs2 hwf _ rfl

theorem Roundtrip.vma (vd : VDst) (vs1 : VSrc) (vs2 : VSrc) (rm : BitVec 3) (c : Option VSrc) : Roundtrip.Statement (.vma vd vs1 vs2 rm c) :=
  Roundtrip.of_lane rfl fun hwf => decodeLane_vma vd vs1 vs2 rm c hwf _ rfl

theorem Roundtrip.vdiv (vd : VDst) (vs1 : VSrc) (vs2 : VSrc) (rm : BitVec 3) : Roundtrip.Statement (.vdiv vd vs1 vs2 rm) :=
  Roundtrip.of_lane rfl fun hwf => decodeLane_vdiv vd vs1 vs2 rm hwf _ rfl

theorem Roundtrip.vsqrt (vd : VDst) (vs1 : VSrc) (rm : BitVec 3) : Roundtrip.Statement (.vsqrt vd vs1 rm) :=
  Roundtrip.of_lane rfl fun hwf => decodeLane_vsqrt vd vs1 rm hwf _ rfl

theorem Roundtrip.vmin (vd : VDst) (vs1 : VSrc) (vs2 : VSrc) : Roundtrip.Statement (.vmin vd vs1 vs2) :=
  Roundtrip.of_lane rfl fun hwf => decodeLane_vmin vd vs1 vs2 hwf _ rfl

theorem Roundtrip.vmax (vd : VDst) (vs1 : VSrc) (vs2 : VSrc) : Roundtrip.Statement (.vmax vd vs1 vs2) :=
  Roundtrip.of_lane rfl fun hwf => decodeLane_vmax vd vs1 vs2 hwf _ rfl

theorem Roundtrip.vabs (vd : VDst) (vs1 : VSrc) : Roundtrip.Statement (.vabs vd vs1) :=
  Roundtrip.of_lane rfl fun hwf => decodeLane_vabs vd vs1 hwf _ rfl

theorem Roundtrip.vneg (vd : VDst) (vs1 : VSrc) : Roundtrip.Statement (.vneg vd vs1) :=
  Roundtrip.of_lane rfl fun hwf => decodeLane_vneg vd vs1 hwf _ rfl

theorem Roundtrip.vshl (vd : VDst) (vs1 : VSrc) (vs2 : VSrc) : Roundtrip.Statement (.vshl vd vs1 vs2) :=
  Roundtrip.of_lane rfl fun hwf => decodeLane_vshl vd vs1 vs2 hwf _ rfl

theorem Roundtrip.vshr (vd : VDst) (vs1 : VSrc) (vs2 : VSrc) : Roundtrip.Statement (.vshr vd vs1 vs2) :=
  Roundtrip.of_lane rfl fun hwf => decodeLane_vshr vd vs1 vs2 hwf _ rfl

theorem Roundtrip.vsar (vd : VDst) (vs1 : VSrc) (vs2 : VSrc) : Roundtrip.Statement (.vsar vd vs1 vs2) :=
  Roundtrip.of_lane rfl fun hwf => decodeLane_vsar vd vs1 vs2 hwf _ rfl

theorem Roundtrip.vand (vd : VDst) (vs1 : VSrc) (vs2 : VSrc) : Roundtrip.Statement (.vand vd vs1 vs2) :=
  Roundtrip.of_lane rfl fun hwf => decodeLane_vand vd vs1 vs2 hwf _ rfl

theorem Roundtrip.vor (vd : VDst) (vs1 : VSrc) (vs2 : VSrc) : Roundtrip.Statement (.vor vd vs1 vs2) :=
  Roundtrip.of_lane rfl fun hwf => decodeLane_vor vd vs1 vs2 hwf _ rfl

theorem Roundtrip.vxor (vd : VDst) (vs1 : VSrc) (vs2 : VSrc) : Roundtrip.Statement (.vxor vd vs1 vs2) :=
  Roundtrip.of_lane rfl fun hwf => decodeLane_vxor vd vs1 vs2 hwf _ rfl

theorem Roundtrip.vnot (vd : VDst) (vs1 : VSrc) : Roundtrip.Statement (.vnot vd vs1) :=
  Roundtrip.of_lane rfl fun hwf => decodeLane_vnot vd vs1 hwf _ rfl

theorem Roundtrip.vpopc (vd : VDst) (vs1 : VSrc) : Roundtrip.Statement (.vpopc vd vs1) :=
  Roundtrip.of_lane rfl fun hwf => decodeLane_vpopc vd vs1 hwf _ rfl

theorem Roundtrip.vclz (vd : VDst) (vs1 : VSrc) : Roundtrip.Statement (.vclz vd vs1) :=
  Roundtrip.of_lane rfl fun hwf => decodeLane_vclz vd vs1 hwf _ rfl

theorem Roundtrip.vexp (vd : VDst) (vs1 : VSrc) (rm : BitVec 3) : Roundtrip.Statement (.vexp vd vs1 rm) :=
  Roundtrip.of_lane rfl fun hwf => decodeLane_vexp vd vs1 rm hwf _ rfl

theorem Roundtrip.vexp2 (vd : VDst) (vs1 : VSrc) (rm : BitVec 3) : Roundtrip.Statement (.vexp2 vd vs1 rm) :=
  Roundtrip.of_lane rfl fun hwf => decodeLane_vexp2 vd vs1 rm hwf _ rfl

theorem Roundtrip.vlog (vd : VDst) (vs1 : VSrc) (rm : BitVec 3) : Roundtrip.Statement (.vlog vd vs1 rm) :=
  Roundtrip.of_lane rfl fun hwf => decodeLane_vlog vd vs1 rm hwf _ rfl

theorem Roundtrip.vlog2 (vd : VDst) (vs1 : VSrc) (rm : BitVec 3) : Roundtrip.Statement (.vlog2 vd vs1 rm) :=
  Roundtrip.of_lane rfl fun hwf => decodeLane_vlog2 vd vs1 rm hwf _ rfl

theorem Roundtrip.vsin (vd : VDst) (vs1 : VSrc) (rm : BitVec 3) : Roundtrip.Statement (.vsin vd vs1 rm) :=
  Roundtrip.of_lane rfl fun hwf => decodeLane_vsin vd vs1 rm hwf _ rfl

theorem Roundtrip.vcos (vd : VDst) (vs1 : VSrc) (rm : BitVec 3) : Roundtrip.Statement (.vcos vd vs1 rm) :=
  Roundtrip.of_lane rfl fun hwf => decodeLane_vcos vd vs1 rm hwf _ rfl

theorem Roundtrip.vtanh (vd : VDst) (vs1 : VSrc) (rm : BitVec 3) : Roundtrip.Statement (.vtanh vd vs1 rm) :=
  Roundtrip.of_lane rfl fun hwf => decodeLane_vtanh vd vs1 rm hwf _ rfl

theorem Roundtrip.verf (vd : VDst) (vs1 : VSrc) (rm : BitVec 3) : Roundtrip.Statement (.verf vd vs1 rm) :=
  Roundtrip.of_lane rfl fun hwf => decodeLane_verf vd vs1 rm hwf _ rfl

theorem Roundtrip.vrcp (vd : VDst) (vs1 : VSrc) (rm : BitVec 3) : Roundtrip.Statement (.vrcp vd vs1 rm) :=
  Roundtrip.of_lane rfl fun hwf => decodeLane_vrcp vd vs1 rm hwf _ rfl

theorem Roundtrip.vrsqrt (vd : VDst) (vs1 : VSrc) (rm : BitVec 3) : Roundtrip.Statement (.vrsqrt vd vs1 rm) :=
  Roundtrip.of_lane rfl fun hwf => decodeLane_vrsqrt vd vs1 rm hwf _ rfl

theorem Roundtrip.vcvt (vd : VDst) (vs1 : VSrc) (part : BitVec 3) (t : BitVec 4) (rm : BitVec 3) : Roundtrip.Statement (.vcvt vd vs1 part t rm) :=
  Roundtrip.of_lane rfl fun hwf => decodeLane_vcvt vd vs1 part t rm hwf _ rfl

theorem Roundtrip.vscale (vd : VDst) (vs1 : VSrc) (val : BitVec 8) : Roundtrip.Statement (.vscale vd vs1 val) :=
  Roundtrip.of_lane rfl fun hwf => decodeLane_vscale vd vs1 val hwf _ rfl

theorem Roundtrip.vscaleAdd (vd : VDst) (vs1 : VSrc) (val : BitVec 8) : Roundtrip.Statement (.vscaleAdd vd vs1 val) :=
  Roundtrip.of_lane rfl fun hwf => decodeLane_vscaleAdd vd vs1 val hwf _ rfl

theorem Roundtrip.vtag (vd : VDst) (vs1 : VSrc) (fmt : BitVec 7) : Roundtrip.Statement (.vtag vd vs1 fmt) :=
  Roundtrip.of_lane rfl fun hwf => decodeLane_vtag vd vs1 fmt hwf _ rfl

theorem Roundtrip.vseed (xs : CSrc) : Roundtrip.Statement (.vseed xs) :=
  Roundtrip.of_lane rfl fun hwf => decodeLane_vseed xs hwf _ rfl

theorem Roundtrip.vunt5 (vd : VDst) (vs1 : VSrc) (chk : Bool) (part : BitVec 3) : Roundtrip.Statement (.vunt5 vd vs1 chk part) :=
  Roundtrip.of_lane rfl fun hwf => decodeLane_vunt5 vd vs1 chk part hwf _ rfl

theorem Roundtrip.vun4o (vd : VDst) (vs1 : VSrc) (part : BitVec 3) (t : BitVec 4) (rm : BitVec 3) : Roundtrip.Statement (.vun4o vd vs1 part t rm) :=
  Roundtrip.of_lane rfl fun hwf => decodeLane_vun4o vd vs1 part t rm hwf _ rfl

theorem Roundtrip.vpk (vd : VDst) (vs1 : VSrc) (part : BitVec 4) (t : BitVec 3) (rm : BitVec 3) : Roundtrip.Statement (.vpk vd vs1 part t rm) :=
  Roundtrip.of_lane rfl fun hwf => decodeLane_vpk vd vs1 part t rm hwf _ rfl

theorem Roundtrip.vtadd (vd : VDst) (vs1 : VSrc) (vs2 : VSrc) (rm : BitVec 3) : Roundtrip.Statement (.vtadd vd vs1 vs2 rm) :=
  Roundtrip.of_lane rfl fun hwf => decodeLane_vtadd vd vs1 vs2 rm hwf _ rfl

theorem Roundtrip.vrsum (vd : VDst) (vs1 : VSrc) (rm : BitVec 3) : Roundtrip.Statement (.vrsum vd vs1 rm) :=
  Roundtrip.of_lane rfl fun hwf => decodeLane_vrsum vd vs1 rm hwf _ rfl

theorem Roundtrip.vrmax (vd : VDst) (vs1 : VSrc) : Roundtrip.Statement (.vrmax vd vs1) :=
  Roundtrip.of_lane rfl fun hwf => decodeLane_vrmax vd vs1 hwf _ rfl

theorem Roundtrip.vrmin (vd : VDst) (vs1 : VSrc) : Roundtrip.Statement (.vrmin vd vs1) :=
  Roundtrip.of_lane rfl fun hwf => decodeLane_vrmin vd vs1 hwf _ rfl

theorem Roundtrip.vshuf (vd : VDst) (vs1 : VSrc) (vs2 : VSrc) : Roundtrip.Statement (.vshuf vd vs1 vs2) :=
  Roundtrip.of_lane rfl fun hwf => decodeLane_vshuf vd vs1 vs2 hwf _ rfl

theorem Roundtrip.vslide (vd : VDst) (vs1 : VSrc) (s : BitVec 10) : Roundtrip.Statement (.vslide vd vs1 s) :=
  Roundtrip.of_lane rfl fun hwf => decodeLane_vslide vd vs1 s hwf _ rfl

theorem Roundtrip.vbcast (vd : VDst) (vs1 : VSrc) (i : BitVec 8) : Roundtrip.Statement (.vbcast vd vs1 i) :=
  Roundtrip.of_lane rfl fun hwf => decodeLane_vbcast vd vs1 i hwf _ rfl

theorem Roundtrip.vsplat (vd : VDst) (xs : CSrc) (fmt : BitVec 7) : Roundtrip.Statement (.vsplat vd xs fmt) :=
  Roundtrip.of_lane rfl fun hwf => decodeLane_vsplat vd xs fmt hwf _ rfl

theorem Roundtrip.vextr (xd : CReg) (vs1 : VSrc) (i : BitVec 8) : Roundtrip.Statement (.vextr xd vs1 i) :=
  Roundtrip.of_lane rfl fun hwf => decodeLane_vextr xd vs1 i hwf _ rfl

theorem Roundtrip.vmov (vd : VDst) (vs1 : VSrc) : Roundtrip.Statement (.vmov vd vs1) :=
  Roundtrip.of_lane rfl fun hwf => decodeLane_vmov vd vs1 hwf _ rfl

theorem Roundtrip.vli (vd : VDst) (imm : Imm 17) : Roundtrip.Statement (.vli vd imm) :=
  Roundtrip.of_lane rfl fun hwf => decodeLane_vli vd imm hwf _ rfl

theorem Roundtrip.vcmp (vs1 : VSrc) (vs2 : VSrc) (cond : BitVec 3) : Roundtrip.Statement (.vcmp vs1 vs2 cond) :=
  Roundtrip.of_lane rfl fun hwf => decodeLane_vcmp vs1 vs2 cond hwf _ rfl

theorem Roundtrip.vminv : Roundtrip.Statement (.vminv) :=
  Roundtrip.of_lane rfl fun hwf => decodeLane_vminv hwf _ rfl

theorem Roundtrip.vmpop (n : BitVec 4) : Roundtrip.Statement (.vmpop n) :=
  Roundtrip.of_lane rfl fun hwf => decodeLane_vmpop n hwf _ rfl

theorem Roundtrip.vskip (off : Imm 24) : Roundtrip.Statement (.vskip off) :=
  Roundtrip.of_lane rfl fun hwf => decodeLane_vskip off hwf _ rfl

theorem Roundtrip.vmget (vd : VDst) (d : BitVec 4) : Roundtrip.Statement (.vmget vd d) :=
  Roundtrip.of_lane rfl fun hwf => decodeLane_vmget vd d hwf _ rfl

theorem Roundtrip.vpark (vr : BitVec 6) : Roundtrip.Statement (.vpark vr) :=
  Roundtrip.of_lane rfl fun hwf => decodeLane_vpark vr hwf _ rfl

theorem Roundtrip.vunpark (vr : BitVec 6) : Roundtrip.Statement (.vunpark vr) :=
  Roundtrip.of_lane rfl fun hwf => decodeLane_vunpark vr hwf _ rfl

theorem Roundtrip.vpushm (vf : BitVec 6) (vl : BitVec 6) : Roundtrip.Statement (.vpushm vf vl) :=
  Roundtrip.of_lane rfl fun hwf => decodeLane_vpushm vf vl hwf _ rfl

theorem Roundtrip.vpopm (vf : BitVec 6) (vl : BitVec 6) : Roundtrip.Statement (.vpopm vf vl) :=
  Roundtrip.of_lane rfl fun hwf => decodeLane_vpopm vf vl hwf _ rfl

theorem Roundtrip.vsetsh (h : ShReg) : Roundtrip.Statement (.vsetsh h) :=
  Roundtrip.of_lane rfl fun hwf => decodeLane_vsetsh h hwf _ rfl

theorem Roundtrip.mlease (q : BitVec 4) (tok : Tok) : Roundtrip.Statement (.mlease q tok) :=
  Roundtrip.of_lane rfl fun hwf => decodeLane_mlease q tok hwf _ rfl

theorem Roundtrip.mfree (q : BitVec 4) (tok : Tok) : Roundtrip.Statement (.mfree q tok) :=
  Roundtrip.of_lane rfl fun hwf => decodeLane_mfree q tok hwf _ rfl

theorem Roundtrip.mma (ta : TsReg) (tb : TsReg) (h : ShReg) (rm : BitVec 3) (tok : Tok) : Roundtrip.Statement (.mma ta tb h rm tok) :=
  Roundtrip.of_lane rfl fun hwf => decodeLane_mma ta tb h rm tok hwf _ rfl

theorem Roundtrip.mmah (ta : TsReg) (tb : TsReg) (h : ShReg) (rm : BitVec 3) (tok : Tok) (which : Bool) (ts : TsReg) (e1 : CSrc) (e2 : CSrc) : Roundtrip.Statement (.mmah ta tb h rm tok which ts e1 e2) :=
  Roundtrip.of_lane rfl fun hwf => decodeLane_mmah ta tb h rm tok which ts e1 e2 hwf _ rfl

theorem Roundtrip.mmack (ta : TsReg) (tb : TsReg) (h : ShReg) (rm : BitVec 3) (tok : Tok) : Roundtrip.Statement (.mmack ta tb h rm tok) :=
  Roundtrip.of_lane rfl fun hwf => decodeLane_mmack ta tb h rm tok hwf _ rfl

theorem Roundtrip.mmabx (ta : TsReg) (tb : TsReg) (h : ShReg) (tok : Tok) : Roundtrip.Statement (.mmabx ta tb h tok) :=
  Roundtrip.of_lane rfl fun hwf => decodeLane_mmabx ta tb h tok hwf _ rfl

theorem Roundtrip.mmaba (ta : TsReg) (tb : TsReg) (h : ShReg) (tok : Tok) : Roundtrip.Statement (.mmaba ta tb h tok) :=
  Roundtrip.of_lane rfl fun hwf => decodeLane_mmaba ta tb h tok hwf _ rfl

theorem Roundtrip.mclr (h : ShReg) (tok : Tok) : Roundtrip.Statement (.mclr h tok) :=
  Roundtrip.of_lane rfl fun hwf => decodeLane_mclr h tok hwf _ rfl

theorem Roundtrip.mclrAll (h : ShReg) (tok : Tok) : Roundtrip.Statement (.mclrAll h tok) :=
  Roundtrip.of_lane rfl fun hwf => decodeLane_mclrAll h tok hwf _ rfl

theorem Roundtrip.mldacc (ta : TsReg) (h : ShReg) (tok : Tok) : Roundtrip.Statement (.mldacc ta h tok) :=
  Roundtrip.of_lane rfl fun hwf => decodeLane_mldacc ta h tok hwf _ rfl

theorem Roundtrip.mstacc (ta : TsReg) (h : ShReg) (rm : BitVec 3) (tok : Tok) : Roundtrip.Statement (.mstacc ta h rm tok) :=
  Roundtrip.of_lane rfl fun hwf => decodeLane_mstacc ta h rm tok hwf _ rfl

theorem Roundtrip.mchk (ta : TsReg) (h : ShReg) (rm : BitVec 3) (tok : Tok) : Roundtrip.Statement (.mchk ta h rm tok) :=
  Roundtrip.of_lane rfl fun hwf => decodeLane_mchk ta h rm tok hwf _ rfl

theorem Roundtrip.mseed (q : BitVec 4) (xs : CSrc) (tok : Tok) : Roundtrip.Statement (.mseed q xs tok) :=
  Roundtrip.of_lane rfl fun hwf => decodeLane_mseed q xs tok hwf _ rfl

theorem Roundtrip.matrixCommandComplete (core : Nat) : Roundtrip.Statement (.matrixCommandComplete core) :=
  fun _ _ h => nomatch h

theorem Roundtrip.xcopyLd (t : TsReg) (h : ThReg) (tok : Tok) (fl : Fl) (e1 : CSrc) (e2 : CSrc) (e3 : CSrc) (e4 : CSrc) : Roundtrip.Statement (.xcopyLd t h tok fl e1 e2 e3 e4) :=
  Roundtrip.of_lane rfl fun hwf => decodeLane_xcopyLd t h tok fl e1 e2 e3 e4 hwf _ rfl

theorem Roundtrip.xcopySt (t : TsReg) (h : ThReg) (tok : Tok) (fl : Fl) (e1 : CSrc) (e2 : CSrc) (e3 : CSrc) (e4 : CSrc) : Roundtrip.Statement (.xcopySt t h tok fl e1 e2 e3 e4) :=
  Roundtrip.of_lane rfl fun hwf => decodeLane_xcopySt t h tok fl e1 e2 e3 e4 hwf _ rfl

theorem Roundtrip.xcopySs (td : TsReg) (ts : TsReg) (tok : Tok) (fl : Fl) : Roundtrip.Statement (.xcopySs td ts tok fl) :=
  Roundtrip.of_lane rfl fun hwf => decodeLane_xcopySs td ts tok fl hwf _ rfl

theorem Roundtrip.xcopys (t : TsReg) (h : ThReg) (tok : Tok) (fl : Fl) (e1 : CSrc) (e2 : CSrc) : Roundtrip.Statement (.xcopys t h tok fl e1 e2) :=
  Roundtrip.of_lane rfl fun hwf => decodeLane_xcopys t h tok fl e1 e2 hwf _ rfl

theorem Roundtrip.xcb (c : CbReg) (h : ThReg) (tok : Tok) (fl : Fl) (e1 : CSrc) (e2 : CSrc) (e3 : CSrc) (e4 : CSrc) : Roundtrip.Statement (.xcb c h tok fl e1 e2 e3 e4) :=
  Roundtrip.of_lane rfl fun hwf => decodeLane_xcb c h tok fl e1 e2 e3 e4 hwf _ rfl

theorem Roundtrip.xcbSlotTake (core : Nat) : Roundtrip.Statement (.xcbSlotTake core) :=
  fun _ _ h => nomatch h

theorem Roundtrip.xhost (t : TsReg) (dir : Bool) (tok : Tok) (fl : Fl) (e1 : CSrc) (e2 : CSrc) (e3 : CSrc) : Roundtrip.Statement (.xhost t dir tok fl e1 e2 e3) :=
  Roundtrip.of_lane rfl fun hwf => decodeLane_xhost t dir tok fl e1 e2 e3 hwf _ rfl

theorem Roundtrip.xpeer (t : TsReg) (dir : Bool) (tok : Tok) (fl : Fl) (e1 : CSrc) : Roundtrip.Statement (.xpeer t dir tok fl e1) :=
  Roundtrip.of_lane rfl fun hwf => decodeLane_xpeer t dir tok fl e1 hwf _ rfl

theorem Roundtrip.xcoll (t : TsReg) (rm : BitVec 3) (op : BitVec 2) (tok : Tok) (fl : Fl) (e1 : CSrc) (e2 : CSrc) : Roundtrip.Statement (.xcoll t rm op tok fl e1 e2) :=
  Roundtrip.of_lane rfl fun hwf => decodeLane_xcoll t rm op tok fl e1 e2 hwf _ rfl

theorem Roundtrip.xgath (q : QReg) (h : ThReg) (t : TsReg) (tok : Tok) (fl : Fl) (e1 : CSrc) (e2 : CSrc) : Roundtrip.Statement (.xgath q h t tok fl e1 e2) :=
  Roundtrip.of_lane rfl fun hwf => decodeLane_xgath q h t tok fl e1 e2 hwf _ rfl

theorem Roundtrip.xgathElementPush (core : Nat) : Roundtrip.Statement (.xgathElementPush core) :=
  fun _ _ h => nomatch h

theorem Roundtrip.xpf (h : ThReg) (e1 : CSrc) (e2 : CSrc) (e3 : CSrc) (e4 : CSrc) : Roundtrip.Statement (.xpf h e1 e2 e3 e4) :=
  Roundtrip.of_lane rfl fun hwf => decodeLane_xpf h e1 e2 e3 e4 hwf _ rfl

theorem Roundtrip.xfence (scope : Scope) (tok : Tok) (fl : Fl) : Roundtrip.Statement (.xfence scope tok fl) :=
  Roundtrip.of_lane rfl fun hwf => decodeLane_xfence scope tok fl hwf _ rfl

theorem Roundtrip.copyCommandComplete (core : Nat) : Roundtrip.Statement (.copyCommandComplete core) :=
  fun _ _ h => nomatch h

theorem Roundtrip.trapDelivery (core : Nat) : Roundtrip.Statement (.trapDelivery core) :=
  fun _ _ h => nomatch h

theorem Roundtrip.correctionFreezeEnd (core : Nat) : Roundtrip.Statement (.correctionFreezeEnd core) :=
  fun _ _ h => nomatch h

theorem Roundtrip.arbiterPass (ltn : Nat) : Roundtrip.Statement (.arbiterPass ltn) :=
  fun _ _ h => nomatch h

theorem Roundtrip.leaseLimitReached (core : Nat) : Roundtrip.Statement (.leaseLimitReached core) :=
  fun _ _ h => nomatch h

theorem Roundtrip.launchRecord (p : Nat) (q : Nat) : Roundtrip.Statement (.launchRecord p q) :=
  fun _ _ h => nomatch h

theorem Roundtrip.cancelRecord (p : Nat) (q : Nat) : Roundtrip.Statement (.cancelRecord p q) :=
  fun _ _ h => nomatch h

theorem Roundtrip.streamResidencyComplete (die : Nat) : Roundtrip.Statement (.streamResidencyComplete die) :=
  fun _ _ h => nomatch h

theorem Roundtrip.unitStart (p : Nat) : Roundtrip.Statement (.unitStart p) :=
  fun _ _ h => nomatch h

theorem Roundtrip.unitEnd (core : Nat) : Roundtrip.Statement (.unitEnd core) :=
  fun _ _ h => nomatch h

theorem Roundtrip.eventRecordWrite (p : Nat) (q : Nat) : Roundtrip.Statement (.eventRecordWrite p q) :=
  fun _ _ h => nomatch h

theorem Roundtrip.snufferExpiry (lid : Nat) : Roundtrip.Statement (.snufferExpiry lid) :=
  fun _ _ h => nomatch h

theorem Roundtrip.frameEdge (core : Nat) : Roundtrip.Statement (.frameEdge core) :=
  fun _ _ h => nomatch h

theorem Roundtrip.regionPreemption (core : Nat) : Roundtrip.Statement (.regionPreemption core) :=
  fun _ _ h => nomatch h

theorem Roundtrip.regionRestart (core : Nat) : Roundtrip.Statement (.regionRestart core) :=
  fun _ _ h => nomatch h

theorem Roundtrip.hostWriteDataSlice (slice : Nat) (off : Nat) (data : Bytes) : Roundtrip.Statement (.hostWriteDataSlice slice off data) :=
  fun _ _ h => nomatch h

theorem Roundtrip.hostWriteDescriptor (slice : Nat) (off : Nat) (data : Bytes) : Roundtrip.Statement (.hostWriteDescriptor slice off data) :=
  fun _ _ h => nomatch h

theorem Roundtrip.hostReadDataSlice (slice : Nat) (off : Nat) (len : Nat) : Roundtrip.Statement (.hostReadDataSlice slice off len) :=
  fun _ _ h => nomatch h

theorem Roundtrip.bootLengthWrite (val : BitVec 32) : Roundtrip.Statement (.bootLengthWrite val) :=
  fun _ _ h => nomatch h

theorem Roundtrip.bar0Write (off : Nat) (data : Bytes) : Roundtrip.Statement (.bar0Write off data) :=
  fun _ _ h => nomatch h

theorem Roundtrip.powerOn : Roundtrip.Statement (.powerOn) :=
  fun _ _ h => nomatch h

theorem Roundtrip.firmwareStart (anchor : Nat) (tvec : Word) : Roundtrip.Statement (.firmwareStart anchor tvec) :=
  fun _ _ h => nomatch h

theorem Roundtrip.hostLinkLoss : Roundtrip.Statement (.hostLinkLoss) :=
  fun _ _ h => nomatch h

theorem Roundtrip.setPartition : Roundtrip.Statement (.setPartition) :=
  fun _ _ h => nomatch h

theorem Roundtrip.setQueue : Roundtrip.Statement (.setQueue) :=
  fun _ _ h => nomatch h

theorem Roundtrip.resizePartition : Roundtrip.Statement (.resizePartition) :=
  fun _ _ h => nomatch h

theorem Roundtrip.mapDataSlice (slice : Nat) (base : Nat) (handle : Nat) : Roundtrip.Statement (.mapDataSlice slice base handle) :=
  fun _ _ h => nomatch h

theorem Roundtrip.createWorld : Roundtrip.Statement (.createWorld) :=
  fun _ _ h => nomatch h

theorem Roundtrip.installKey : Roundtrip.Statement (.installKey) :=
  fun _ _ h => nomatch h

theorem Roundtrip.removeKey : Roundtrip.Statement (.removeKey) :=
  fun _ _ h => nomatch h

theorem Roundtrip.destroyWorld : Roundtrip.Statement (.destroyWorld) :=
  fun _ _ h => nomatch h

theorem Roundtrip.setRoster : Roundtrip.Statement (.setRoster) :=
  fun _ _ h => nomatch h

theorem Roundtrip.attest : Roundtrip.Statement (.attest) :=
  fun _ _ h => nomatch h

theorem Roundtrip.debugUnlock : Roundtrip.Statement (.debugUnlock) :=
  fun _ _ h => nomatch h

theorem Roundtrip.cacheEntrySeal : Roundtrip.Statement (.cacheEntrySeal) :=
  fun _ _ h => nomatch h

theorem Roundtrip.cacheEntryOpen : Roundtrip.Statement (.cacheEntryOpen) :=
  fun _ _ h => nomatch h

theorem Roundtrip.dieOffline : Roundtrip.Statement (.dieOffline) :=
  fun _ _ h => nomatch h

theorem Roundtrip.rotation : Roundtrip.Statement (.rotation) :=
  fun _ _ h => nomatch h

theorem Roundtrip.recordMode : Roundtrip.Statement (.recordMode) :=
  fun _ _ h => nomatch h

theorem Roundtrip.replay : Roundtrip.Statement (.replay) :=
  fun _ _ h => nomatch h

theorem Roundtrip.unknownRequest : Roundtrip.Statement (.unknownRequest) :=
  fun _ _ h => nomatch h

theorem Roundtrip.rotationCoreTest (core : Nat) (pass : Bool) : Roundtrip.Statement (.rotationCoreTest core pass) :=
  fun _ _ h => nomatch h

theorem Roundtrip.rotationQuadrantTest (ltn : Nat) (q : Nat) (pass : Bool) : Roundtrip.Statement (.rotationQuadrantTest ltn q pass) :=
  fun _ _ h => nomatch h

theorem Roundtrip.healthUpdate (socket : Nat) (temp : BitVec 16) (power : BitVec 32) : Roundtrip.Statement (.healthUpdate socket temp power) :=
  fun _ _ h => nomatch h

theorem Roundtrip.clockStepDown (die : Nat) : Roundtrip.Statement (.clockStepDown die) :=
  fun _ _ h => nomatch h

theorem Roundtrip.clockStepUp (die : Nat) : Roundtrip.Statement (.clockStepUp die) :=
  fun _ _ h => nomatch h

theorem Roundtrip.junctionOvertemp : Roundtrip.Statement (.junctionOvertemp) :=
  fun _ _ h => nomatch h

theorem Roundtrip.bankDrowsy (core : Nat) (bank : Nat) : Roundtrip.Statement (.bankDrowsy core bank) :=
  fun _ _ h => nomatch h

theorem Roundtrip.bankPowerGated (core : Nat) (bank : Nat) : Roundtrip.Statement (.bankPowerGated core bank) :=
  fun _ _ h => nomatch h

theorem Roundtrip.scanInShiftComplete (core : Nat) : Roundtrip.Statement (.scanInShiftComplete core) :=
  fun _ _ h => nomatch h

theorem Roundtrip.uncorrectableError : Roundtrip.Statement (.uncorrectableError) :=
  fun _ _ h => nomatch h

theorem Roundtrip.deviceReset : Roundtrip.Statement (.deviceReset) :=
  fun _ _ h => nomatch h

theorem Roundtrip.partitionResetComplete (p : Nat) : Roundtrip.Statement (.partitionResetComplete p) :=
  fun _ _ h => nomatch h

theorem Roundtrip.fabricLinkUp (devid : Bytes) : Roundtrip.Statement (.fabricLinkUp devid) :=
  fun _ _ h => nomatch h

theorem Roundtrip.fabricGroupArrival (addr : Nat) (data : Bytes) : Roundtrip.Statement (.fabricGroupArrival addr data) :=
  fun _ _ h => nomatch h

end Sys2Proof.Laws
end

