-- ==== Sys2Proof/Tests/Slice0.lean ====
section
/-! SUPPORT. Small tests: ill-formed terms that the checks refuse, words written out in the spec, one step of an instruction
on a small state, and for every statement a state and operands that meet its hypotheses. -/

namespace Sys2Proof.Tests

open Sys2Proof Sys2Proof.Machine Host

set_option Elab.async false

/-! ### Small states -/

/-- Core `n` with a unit of a world at lane 1 of a known line at 0x1000, with x1 to x7 and x8 up given. -/
def unitAt (n world : Nat) (xg : Sparse Word) (xf : Sparse Word) : State :=
  (State.reset.focus n).modC fun c => { c with busy := true, u := { UnitCtx.reset with
    world := world, lid := some 1, text := [⟨0x1000, 8, false, 0, none, true, none⟩], front := .line 0x1020 false none,
    sh := { Shared.reset with xg := xg, xf := xf } } }

/-- The same of core 0. -/
def unit (world : Nat) (xg : Sparse Word) (xf : Sparse Word) : State := unitAt 0 world xg xf

/-- Map a 64 KiB page of world 0 at 0x10000 to itself: unprotected or protected device memory, or the host. -/
def State.page (s : State) (target : Nat) : State :=
  s.modSys fun y => { y with tlb := [⟨0, 0x10000, 0x10000, 0x10000, true, target, true, true⟩] }

/-- Change the unit. -/
def State.inU (s : State) (f : UnitCtx → UnitCtx) : State := s.setU (f s.u)

/-- Change the registers that follow text order. -/
def State.inSh (s : State) (f : Shared → Shared) : State := State.inU s fun u => { u with sh := f u.sh }

/-- Whether a step's outcome is a next state with a property. -/
def nextIs (o : Outcome State Fault Refusal) (p : State → Bool) : Bool :=
  match o with
  | .next t => p t
  | _ => false

/-- The register that the next lane of the control engine reads. -/
def xAfter (i : Instr) (s : State) (n : Nat) (v : Word) : Bool := nextIs (exec i s) fun t => (t.view .c).x n == v

/-- Whether an unprivileged unit took a trap with a cause. -/
def trapped (i : Instr) (s : State) (c : Cause) : Bool :=
  nextIs (exec i s) fun t => t.core.sys.saved.isSome && t.core.sys.tr.trep.toNat % 2 ^ 10 == c.code

/-- Whether a computation answers a value. -/
def gives {ε α : Type} [DecidableEq α] (x : Except ε α) (y : α) : Bool :=
  match x with
  | .ok z => decide (z = y)
  | .error _ => false

theorem of_gives {ε α : Type} [DecidableEq α] {x : Except ε α} {y : α} (h : gives x y = true) : x = .ok y := by
  unfold gives at h
  split at h
  · exact congrArg _ (of_decide_eq_true h)
  · cases h


/-! ### Ill-formed terms that `Instr.wf` refuses, one for each check (05 R163-R168) -/

theorem test_wf_control_source : Instr.wf (.add 1 36 0) = false ∧ Instr.wf (.add 1 35 0) = true := by decide
theorem test_wf_control_third_source : Instr.wf (.sel 1 0 0 36) = false := by decide
theorem test_wf_signed_doubleword_load : Instr.wf (.ld 1 0 3 true ⟨none, 0⟩) = false := by decide
theorem test_wf_shape_selector : Instr.wf (.getShape 1 0 5) = false ∧ Instr.wf (.getShape 1 0 4) = true := by decide
theorem test_wf_handle_field : Instr.wf (.thget 1 0 15) = false ∧ Instr.wf (.thget 1 0 14) = true := by decide
theorem test_wf_loop_level : Instr.wf (.seql 6 0) = false ∧ Instr.wf (.ovw 6) = false := by decide
theorem test_wf_tlb_kind : Instr.wf (.tlbinv 3 0 0) = false := by decide
theorem test_wf_cancel_level : Instr.wf (.cancel 1 0 0) = false ∧ Instr.wf (.cancel 1 0 5) = false := by decide
theorem test_wf_access_source : Instr.wf (.aadd 1 36 0) = false := by decide
theorem test_wf_extra_control_source : Instr.wf (.amovCtrl 1 32) = false := by decide
theorem test_wf_load_queue : Instr.wf (.ard 4 0 ⟨none, 0⟩) = false := by decide
theorem test_wf_store_queue : Instr.wf (.awr 3 0 ⟨none, 0⟩) = false := by decide
theorem test_wf_index_queue : Instr.wf (.ardg 0 0 3 0) = false ∧ Instr.wf (.awrs 0 4 4) = false := by decide
theorem test_wf_stream_register : Instr.wf (.astream 0 24 0) = false := by decide
theorem test_wf_vector_destination : Instr.wf (.vadd 69 0 0 0) = false ∧ Instr.wf (.vadd 68 0 0 0) = true := by decide
theorem test_wf_vector_source : Instr.wf (.vadd 0 72 0 0) = false ∧ Instr.wf (.vadd 0 71 0 0) = true := by decide

/-! ### Words that the spec writes out -/

/-- 05, the line of R157's example: LI x9, 0x12_3456_7890 with its EXT lane. -/
theorem test_word_LI : decodeInstr .c [0x0002468A] 0x1D4E7890 = .ok (.li 9 ⟨some 0x2468A, 0x67890⟩, Mods.none) ∧
    immS (w := 19) ⟨some 0x2468A, 0x67890⟩ = 0x1234567890 := ⟨rfl, by decide⟩
/-- 05: ALI a0, 0x100 and FINC.a f0, 1. -/
theorem test_word_ALI : decodeInstr .a [] 0x03000100 = .ok (.ali 0 ⟨none, 0x100⟩, Mods.none) := rfl
theorem test_word_FINC : decodeInstr .a [] 0xF9000001 = .ok (.finc .a 0 ⟨none, 1⟩, Mods.none) := rfl
/-- 05 R162: the EXT lane 0x3002_468A makes the engine trap with ext-kind. -/
theorem test_word_ext_kind : decodeInstr .c [0x3002468A] 0x1D4E7890 = .error .extKind := rfl
/-- 06: LI x25, −2; CALL 2; FRAME 8; REMS x11, x8, x9; RET. -/
theorem test_word_LI_negative : decodeInstr .c [] 0x1DCFFFFE = .ok (.li 25 ⟨none, 0x7FFFE⟩, Mods.none) ∧
    immS (w := 19) ⟨none, 0x7FFFE⟩ = -2 := ⟨rfl, by decide⟩
theorem test_word_CALL : decodeInstr .c [] 0x23000002 = .ok (.call ⟨none, 2⟩, Mods.none) := rfl
theorem test_word_FRAME : decodeInstr .c [] 0x26000008 = .ok (.frame 8, Mods.none) := rfl
theorem test_word_REMS : decodeInstr .c [] 0x09590240 = .ok (.rems 11 8 9, Mods.none) := rfl
theorem test_word_RET : decodeInstr .c [] 0x25000000 = .ok (.ret, Mods.none) := rfl
/-- 19: FRAMESET x9, x10 with slot 3. -/
theorem test_word_FRAMESET : decodeInstr .c [] 0x5A012503 = .ok (.frameset 9 10 3, Mods.none) := rfl
/-- 08: MLEASE Q0+Q2, k0 and MMA.rne ts1, ts2, sh0, k1. -/
theorem test_word_MLEASE : decodeInstr .m [] 0x01580000 = .ok (.mlease 0b0101 (some 0), Mods.none) := rfl
theorem test_word_MMA : decodeInstr .m [] 0x03120240 = .ok (.mma 1 2 0 0 (some 1), Mods.none) := rfl
/-- 07: the fragment of VSPLAT, VCMP.gt, VMINV, VNEG, VMPOP 1, VSKIP, VEXTR, VADD.rne and ADD. -/
theorem test_word_VSPLAT : decodeInstr .v [] 0x33060004 = .ok (.vsplat 3 0 4, Mods.none) := rfl
theorem test_word_VCMP : decodeInstr .v [] 0x38020C04 = .ok (.vcmp 1 3 4, Mods.none) := rfl
theorem test_word_VMINV : decodeInstr .v [] 0x39000000 = .ok (.vminv, Mods.none) := rfl
theorem test_word_VNEG : decodeInstr .v [] 0x0B040400 = .ok (.vneg 2 1, Mods.none) := rfl
theorem test_word_VMPOP : decodeInstr .v [] 0x3A000000 = .ok (.vmpop 0, Mods.none) := rfl
theorem test_word_VSKIP : decodeInstr .v [0] 0x3B000001 = .ok (.vskip ⟨some 0, 1⟩, Mods.none) := rfl
theorem test_word_VEXTR : decodeInstr .v [] 0x34120803 = .ok (.vextr 9 2 3, Mods.none) := rfl
theorem test_word_VADD : decodeInstr .v [] 0x01040408 = .ok (.vadd 2 1 1 0, Mods.none) := rfl
theorem test_word_ADD : decodeInstr .c [] 0x01512000 = .ok (.add 10 9 0, Mods.none) := rfl
/-- 09: ACB cb2, a0, a1, 4096; XCB cb2, th3, k1, f4; ACB.get a5, cb2; ACBREL cb2. -/
theorem test_word_ACB : decodeInstr .a [] 0x13100086 = .ok (.acb 2 0 1 6, Mods.none) := rfl
theorem test_word_XCB : decodeInstr .x [0x21228580] 0x03230990 =
    .ok (.xcb 2 3 (some 1) (some 4) 9 10 11 0, Mods.none) := rfl
theorem test_word_ACB_get : decodeInstr .a [] 0x13284020 = .ok (.acbGet 5 2, Mods.none) := rfl
theorem test_word_ACBREL : decodeInstr .a [] 0x14100000 = .ok (.acbRel 2, Mods.none) := rfl
/-- 11: VUNT5 v3, v1, 1; VUNT5.chk v2, v1, 0; VTADD.rne v7, v8, v9. -/
theorem test_word_VUNT5 : decodeInstr .v [] 0x26060408 = .ok (.vunt5 3 1 false 1, Mods.none) ∧
    decodeInstr .v [] 0x26040440 = .ok (.vunt5 2 1 true 0, Mods.none) := ⟨rfl, rfl⟩
theorem test_word_VTADD : decodeInstr .v [] 0x290E2048 = .ok (.vtadd 7 8 9 0, Mods.none) := rfl
/-- 18: SCSTOP.beat, SCGO, SCOUT.mem and SCIN.mem with their EXT lanes. -/
theorem test_word_SCSTOP : decodeInstr .c [0x21600000] 0x50012501 = .ok (.scstopBeat 9 10 11, Mods.none) := rfl
theorem test_word_SCGO : decodeInstr .c [] 0x53012500 = .ok (.scgo 9 10, Mods.none) := rfl
theorem test_word_SCOUT : decodeInstr .c [0x21834000] 0x51712500 = .ok (.scout 14 9 10 12 13 false, Mods.none) := rfl
theorem test_word_SCIN : decodeInstr .c [0x21800000] 0x52792500 = .ok (.scin 15 9 10 12 false, Mods.none) := rfl
/-- 05 R154: a line's header with flags, with a reserved kind, with an EXT run that extends nothing. -/
theorem test_line_checks : lineCheck 0x10000001 = some .headerFlags ∧ lineCheck 0x00000007 = some .reservedKind ∧
    lineCheck 0x06000000 = some .extDangling ∧ lineCheck 0x00221216 = none := by decide


/-! ### Witnesses: states and operands that meet the hypotheses of the statements -/

/-- x1 = 7, x2 = −2, x8 = 3, one filled latch. -/
def ctl : State := State.inU (unit 0 [(1, 7), (2, -2)] [(0, 3)]) fun u => { u with latC := [5] }

theorem witness_AluRegisterForms : ctl.ReadyC [1, 32] [31] := by unfold State.ReadyC; decide +kernel
theorem witness_AluImmediateForms : ctl.ReadyC [8] [0] := by unfold State.ReadyC; decide +kernel
theorem witness_ShiftAndExtendForms :
    ctl.ReadyC [1, 2] [9] ∧ ctl.ReadyC [1] [9] ∧
    immS (w := 12) ⟨none, 0⟩ = 0 ∧ immS (w := 12) ⟨none, 63⟩ = 63 ∧ immS (w := 12) ⟨none, 64⟩ = 64 ∧
    immS (w := 12) ⟨none, 0xFFF⟩ < 0 ∧ 64 < immS (w := 12) ⟨none, 65⟩ := by
  unfold State.ReadyC; decide +kernel
theorem witness_CountSelectCompare : ctl.ReadyC [1] [9] ∧ ctl.ReadyC [1, 2, 8] [9] ∧ ctl.ReadyC [1, 2] [9] ∧ ctl.ReadyC [] [9] := by
  unfold State.ReadyC; decide +kernel
theorem witness_ControlOperandTraps :
    (32 ≤ (33 : CSrc).toNat ∧ ctl.u.latC.length ≤ (33 : CSrc).toNat - 32) ∧
    ¬(32 ≤ (32 : CSrc).toNat ∧ ctl.u.latC.length ≤ (32 : CSrc).toNat - 32) ∧
    let s := State.inSh ctl fun h => { h with frame := 4 }
    ((12 : CSrc).toNat < 32 ∧ 8 + (s.view .c).frame ≤ (12 : CSrc).toNat) ∧ 8 + (s.view .c).frame ≤ (12 : CReg).toNat ∧
    ¬(8 + (s.view .c).frame ≤ (11 : CReg).toNat) := by decide +kernel
theorem witness_ResultWrite : (∀ e ∈ ctl.u.log, e.1 < (ctl.u.eng .c).pos) ∧
    ∀ e ∈ (State.inU ctl fun u => { u with log := [(0, .xg 1 9)] }).u.log, e.1 < (ctl.u.eng .c).pos := by decide +kernel
theorem witness_UniversalLanes :
    immU (w := 18) ⟨none, 5⟩ ≤ 0xFFFFFFFF ∧ ctl.commandsDone .m = true ∧
    immU (w := 18) ⟨none, 0⟩ ≤ ctl.flag 3 ∧ ctl.core.c.waits = [] ∧
    immU (w := 6) ⟨none, 0⟩ ≤ 63 ∧ ctl.token 2 ≤ immU (w := 6) ⟨none, 0⟩ ∧
    ctl.flag 3 < immU (w := 18) ⟨none, 1⟩ ∧ immU (w := 6) ⟨none, 0⟩ < (ctl.setToken 2 1).token 2 ∧
    0xFFFFFFFF < immU (w := 18) ⟨some 0x4000, 0⟩ ∧ 63 < immU (w := 6) ⟨some 1, 0⟩ := by decide +kernel
theorem witness_UniversalLanes_waiter :
    let s := (ctl.setFlag 3 2).modC fun c => { c with waits := [⟨.v, 3, true, 2⟩] }
    (s.focus 0).readyWaiter (fun _ => true) = some ⟨.v, 3, true, 2⟩ ∧ (ctl.focus 0).readyWaiter (fun _ => true) = none ∧
    (∀ w ∈ s.core.c.waits, w.flag ≠ 4) := by
  decide +kernel
theorem witness_Branches :
    ctl.u.line? (ctl.u.eng .c).serial = some ⟨0x1000, 8, false, 0, none, true, none⟩ ∧
    (BitVec.ofNat 64 0x1000 + BitVec.ofInt 64 (32 * immS (w := 24) ⟨none, 0xFFFFFF⟩)).toNat % 32 = 0 ∧
    (BitVec.ofNat 64 0x1000 + BitVec.ofInt 64 (32 * immS (w := 24) ⟨none, 0xFFFFFF⟩)).toNat < 2 ^ 56 ∧
    ¬((BitVec.ofNat 64 0x1000 + BitVec.ofInt 64 (32 * immS (w := 24) ⟨none, 0x800000⟩)).toNat < 2 ^ 56) ∧
    ¬((BitVec.ofNat 64 0x1000 + BitVec.ofInt 64 (32 * immS (w := 8) ⟨some 0x8000000, 0⟩)).toNat < 2 ^ 56) ∧
    ctl.ReadyC [1, 2] [] ∧ condHolds .ne (ctl.valC 1) (ctl.valC 2) = true ∧ condHolds .eq (ctl.valC 1) (ctl.valC 2) = false ∧
    ctl.ReadyC [0] [] ∧ (ctl.valC 0).toNat % 32 = 0 ∧ ¬((ctl.valC 1).toNat % 32 = 0) := by
  unfold State.ReadyC; decide +kernel
theorem witness_CallsAndReturns :
    let s := State.inU ctl fun u => { u with rdepth := 15 }
    let t := State.inU ctl fun u => { u with callPending := true, rdepth := 14, wspill := 0 }
    let r := State.inU ctl fun u => { u with rdepth := 1, rs := [0x1018] }
    ctl.u.line? (ctl.u.eng .c).serial = some ⟨0x1000, 8, false, 0, none, true, none⟩ ∧
    (∀ e ∈ ctl.u.log, e.1 < (ctl.u.eng .c).pos) ∧
    s.u.rdepth < 16 ∧ (s.lineTarget (immS (w := 24) ⟨none, 2⟩)).toNat % 32 = 0 ∧
    (s.lineTarget (immS (w := 24) ⟨none, 2⟩)).toNat < 2 ^ 56 ∧ s.ReadyC [0] [] ∧ (s.valC 0).toNat % 32 = 0 ∧
    (24 : BitVec 7).toNat ∈ [4, 8, 12, 16, 20, 24] ∧ t.u.callPending = true ∧
    16 * t.u.depth - t.u.wspill + (24 : BitVec 7).toNat ≤ 256 ∧ t.u.wspill ≤ 2048 ∧
    (5 : BitVec 7).toNat ∉ [4, 8, 12, 16, 20, 24] ∧ ctl.u.callPending = false ∧
    0 < r.u.rdepth ∧ r.u.rspill = 0 ∧ r.u.wspill ≤ 16 * (r.u.rdepth - 1) ∧ r.u.rs[r.u.rdepth - 1]? = some 0x1018 ∧
    (0x1018 : Word).toNat < 2 ^ 56 ∧ ctl.u.rdepth = 0 ∧ ctl.u.rspill = 0 := by
  unfold State.ReadyC; decide +kernel
theorem witness_TakingATrap : (127 : Nat) < 128 ∧ countUncorr 0 = 2 ^ 32 ∧ ctl.u.world ≠ 15 ∧ (unit 15 [] []).u.world = 15 := by decide +kernel
theorem witness_SoftwareTrap : (35 : CSrc).toNat < 36 ∧ ((31 : CReg) ≠ 0 ∨ (63 : CSrc) ≠ 0) ∧ ctl.ReadyC [1] [] ∧ ctl.u.world ≠ 15 := by
  unfold State.ReadyC; decide +kernel
theorem witness_HandlerReturnAndEnd :
    let s := ctl.takeTrap .c .illegalOpcode 0 0 (ctl.laneAt .c)
    s.u.world = 15 ∧ s.core.sys.saved = some (State.inU ctl fun u => { u with latC := [] }).u ∧
    s.core.sys.tr.trep.getLsbD 20 = true ∧ ctl.u.world ≠ 15 := by decide +kernel
/-- The handler after a precise trap with RESNEXT set: at a lane, at the check of a line, and the same of the walker. -/
def handler (n : Nat) (walker : Bool) : State :=
  let s := ctl.takeTrap .c .illegalOpcode 0 0 (ctl.laneAt .c)
  (s.modSys fun y => { y with tr := { y.tr with trep := y.tr.trep ||| 0x200000, tlane := BitVec.ofNat 64 (0x1000 + n) } }).modW fun w =>
    { w with walk := { w.walk with trapped := walker } }
theorem witness_HandlerReturnAndEnd_next :
    (∀ n ∈ [0, 4], ∀ walker, let s := handler n walker
      s.u.world = 15 ∧ s.core.sys.saved.isSome = true ∧ s.core.sys.tr.trep.getLsbD 20 = true ∧ s.core.sys.tr.trep.getLsbD 21 = true ∧
      s.core.w.walk.trapped = walker ∧ s.core.sys.tr.tlane.toNat % 32 = n) ∧
    (ctl.u.curLine .c).addr = (handler 0 false).core.sys.tr.tlane.toNat := by decide +kernel


/-- ctl with x1 = 0x10008 and x2 = 0x10040 in a mapped page. -/
def mem (target : Nat) : State := State.page (unit 0 [(1, 0x10008), (2, 0x10040)] [(0, 3)]) target

def entry (target : Nat) : TlbEntry := ⟨0, 0x10000, 0x10000, 0x10000, true, target, true, true⟩

theorem page_maps : ∀ target < 3, ∀ acc ∈ [Access.read, .write],
    gives ((mem target).translate (mem target).u.world 0x10008 acc) (mem target, entry target, 0x10008) = true ∧
    gives ((mem target).translate (mem target).u.world 0x10040 acc) (mem target, entry target, 0x10040) = true := by decide +kernel
theorem witness_maps {target n : Nat} {acc : Access} (ht : target < 3) (ha : acc ∈ [Access.read, .write])
    (hn : n ∈ [1, 2, 4, 8]) : (mem target).Maps 0x10008 n acc (mem target) (entry target) 0x10008 :=
  ⟨by decide, by revert n; decide, of_gives (page_maps target ht acc ha).1⟩
theorem witness_maps_line {target n : Nat} {acc : Access} (ht : target < 3) (ha : acc ∈ [Access.read, .write])
    (hn : n ∈ [8, 32, 64]) : (mem target).Maps 0x10040 n acc (mem target) (entry target) 0x10040 :=
  ⟨by decide, by revert n; decide, of_gives (page_maps target ht acc ha).2⟩

theorem witness_TranslationFrame : (mem 0).translate 0 0x1FFFF .read = .ok (mem 0, entry 0, 0x1FFFF) := of_gives (by decide +kernel)
theorem witness_MemoryStaysCanonical : Mem.reset.Canonical ∧ Memory.wf [⟨3, 5⟩] = true ∧ (∀ a, Memory.read [] a = Memory.read [] a) := by
  unfold Mem.Canonical; exact ⟨by decide, by decide, fun _ => rfl⟩
theorem witness_Loads :
    (mem 0).ReadyC [1] [9] ∧ (∀ target < 3, (mem target).Maps ((mem target).valC 1 + BitVec.ofInt 64 (immS (w := 9) ⟨none, 0⟩))
      (2 ^ (3 : BitVec 2).toNat) .read (mem target) (entry target) 0x10008) ∧ (entry 1).target = 1 ∧ (entry 2).target = 2 ∧
    (entry 0).target ≠ 1 ∧ (entry 0).target ≠ 2 ∧ (mem 0).Intact 0x10008 8 := by
  refine ⟨by unfold State.ReadyC; decide +kernel, fun t h => witness_maps h (by decide) (by decide), rfl, rfl, by decide, by decide, ?_⟩
  unfold State.Intact; decide +kernel
/-- A unit of a launch whose writes are staged. -/
def staged (target : Nat) : State := (mem target).modDev fun d => { d with launches := [
  ⟨1, 0, 0, 0, 0, 1, 1, 1, 1, false, false, false, 64, 0, 0, 0, [], 0, 0, 0, 0, none, .running, [⟨0, 0, 0, false⟩], none, Stage.empty, Stage.empty,
    false, 0, 0, false, false, none, [], Mem.reset, 0, [], none⟩] }
theorem witness_Stores :
    (mem 0).ReadyC [8, 1] [] ∧ (mem 0).ReadyC [2] [] ∧
    (∀ target < 3, (mem target).Maps ((mem target).valC 1 + BitVec.ofInt 64 (immS (w := 9) ⟨none, 0⟩)) (2 ^ (3 : BitVec 2).toNat) .write
      (mem target) (entry target) 0x10008) ∧
    (∀ target < 3, (mem target).Maps ((mem target).valC 2 + BitVec.ofNat 64 (32 * (0 : BitVec 7).toNat)) 32 .write
      (mem target) (entry target) 0x10040) ∧
    (mem 0).protWorld (mem 0).u.world = false ∧ (mem 0).Intact 0x10008 8 ∧ (mem 0).Intact 0x10040 32 ∧ (mem 0).staging = none ∧
    (∃ l r, (staged 0).staging = some (l, r) ∧ ((staged 0).markGrans (granules 0x10008 8)).u.grans.length ≤ quota) ∧
    (staged 0).Maps 0x10008 8 .write (staged 0) (entry 0) 0x10008 := by
  refine ⟨by unfold State.ReadyC; decide +kernel, by unfold State.ReadyC; decide +kernel, fun t h => witness_maps h (by decide) (by decide),
    fun t h => witness_maps_line h (by decide) (by decide), by decide +kernel, by unfold State.Intact; decide +kernel,
    by unfold State.Intact; decide +kernel, by decide +kernel, ?_, by decide, by decide, of_gives (by decide +kernel)⟩
  exact ⟨_, _, rfl, by decide +kernel⟩
theorem witness_Atomics :
    (mem 0).ReadyC [1, 8, 0] [9] ∧ (mem 0).Maps ((mem 0).valC 1) 8 .write (mem 0) (entry 0) 0x10008 ∧
    (mem 0).protWorld (mem 0).u.world = false ∧ (entry 0).target = 0 ∧ (mem 0).Intact 0x10008 8 ∧
    (mem 1).Maps ((mem 1).valC 1) 4 .write (mem 1) (entry 1) 0x10008 ∧ (entry 1).target ≠ 0 ∧ Scope.dev ≠ Scope.sys := by
  exact ⟨by unfold State.ReadyC; decide +kernel, witness_maps (by decide) (by decide) (by decide), by decide +kernel, rfl,
    by unfold State.Intact; decide +kernel, witness_maps (by decide) (by decide) (by decide), by decide, by decide⟩
theorem witness_ScalarAddressTraps :
    let s := unit 0 [(1, 2 ^ 56), (2, 0xFFFFFFFFFFFFFF)] []
    s.ReadyC [1, 2, 0] [9] ∧ 2 ^ 56 ≤ (s.valC 1 + BitVec.ofInt 64 (immS (w := 9) ⟨none, 0⟩)).toNat ∧
    (s.valC 2).toNat < 2 ^ 56 ∧ (s.valC 2).toNat % 4 ≠ 0 ∧ (s.valC 2).toNat % 64 ≠ 0 ∧
    (s.valC 2 + BitVec.ofNat 64 (32 * (0 : BitVec 7).toNat)).toNat % 32 ≠ 0 := by
  unfold State.ReadyC; decide +kernel
theorem witness_AcquireAndRelease :
    (mem 0).ReadyC [2, 8] [9] ∧ (entry 0).target = 0 ∧ (mem 0).Intact 0x10040 8 ∧
    (mem 0).Maps ((mem 0).valC 2) 64 .read (mem 0) (entry 0) 0x10040 ∧ (mem 0).Maps ((mem 0).valC 2) 8 .read (mem 0) (entry 0) 0x10040 ∧
    (mem 0).Maps ((mem 0).valC 2) 64 .write (mem 0) (entry 0) 0x10040 ∧ (mem 0).protWorld (mem 0).u.world = false ∧
    (mem 0).storesTo ((mem 0).valC 2).toNat = false ∧ (mem 0).laneStoresTo ((mem 0).valC 2).toNat = false := by
  exact ⟨by unfold State.ReadyC; decide +kernel, rfl, by unfold State.Intact; decide +kernel,
    witness_maps_line (by decide) (by decide) (by decide), witness_maps_line (by decide) (by decide) (by decide), witness_maps_line (by decide) (by decide) (by decide),
    by decide +kernel, by decide +kernel, by decide +kernel⟩
/-- The object of x2 with a region bound to it, and a queued peer copy that stores there. -/
def releasing : State :=
  let i : Instr := .xpeer 1 true none none 1
  let s := (State.inSh (mem 0) fun g => { g with ts := [(1, some ⟨0, 1, 64, 1, false, 0⟩)] }).modSeq fun q =>
    { q with binds := [⟨0x10040, 0x10000, 64, .dev⟩] }
  s.modX fun x => { x with xq := [s.copyCmd i (some 1) none none none [1]] }
theorem witness_AcquireAndRelease_waits : releasing.storesTo (releasing.valC 2).toNat = true := by decide +kernel
theorem witness_Bindings :
    let s := unit 0 [(1, 0x10040), (2, 0x20000), (3, 0x40), (4, 0x10000000000)] []
    let b : Binding := ⟨0x10040, 0x20000, 64, .dev⟩
    let one := s.modSeq fun q => { q with binds := [b] }
    let all := s.modSeq fun q => { q with binds := List.replicate 16 { b with obj := 0 } }
    s.ReadyC [1, 2, 3] [] ∧ s.ReadyC [1, 2, 4] [] ∧ (s.valC 1).toNat < 2 ^ 56 ∧ (s.valC 1).toNat % 64 = 0 ∧ (s.valC 2).toNat % 64 = 0 ∧
    (s.valC 3).toNat % 64 = 0 ∧ 64 ≤ (s.valC 3).toNat ∧ (s.valC 3).toNat ≤ 2 ^ 40 ∧ (s.valC 4).toNat % 64 = 0 ∧ (s.valC 4).toNat = 2 ^ 40 ∧
    (∃ b ∈ one.core.c.seq.binds, (b.obj == (one.valC 1).toNat && b.base == (one.valC 2).toNat) = true) ∧
    (∀ b ∈ one.core.c.seq.binds, (b.obj == (one.valC 1).toNat && b.base == (one.valC 2).toNat) = true → b.scope = .dev) ∧
    (∀ b ∈ s.core.c.seq.binds, (b.obj == (s.valC 1).toNat && b.base == (s.valC 2).toNat) = false) ∧ s.core.c.seq.binds.length < 16 ∧
    (∀ b ∈ all.core.c.seq.binds, (b.obj == (all.valC 1).toNat && b.base == (all.valC 2).toNat) = false) ∧
    16 ≤ all.core.c.seq.binds.length ∧ s.ReadyC [1] [9] := by
  unfold State.ReadyC; decide +kernel
theorem witness_Bindings_unmapped : ∀ u, (unit 0 [(1, 0x10040)] []).translate 0 0x10040 .read ≠ .ok u := by
  intro u h
  have : ((unit 0 [(1, 0x10040)] []).translate 0 0x10040 .read).isOk = false := by decide +kernel
  rw [h] at this; cases this
theorem witness_ShapesAndHandles :
    let s := unit 0 [(1, 65535), (2, 0), (3, 8)] []
    s.ReadyC [1, 2, 3] [] ∧ (s.valC 1).toNat ≤ 65535 ∧ (s.valC 2).toNat ≤ 65535 ∧ (s.valC 3).toNat ≤ 65535 ∧
    fmtOk (0x13 : BitVec 7).toNat = true ∧ (0x13 : BitVec 7) ≠ 0 ∧ s.ReadyC [] [31] ∧ s.ReadyC [2] [] ∧
    (s.valC 2).toNat < 2 ^ (handleField (1 : BitVec 7).toNat).2 ∧ thField 0 1 = (s.valC 2).toNat ∧ thOk 0 = true ∧
    (mem 0).ReadyC [2] [] ∧ (entry 0).target = 0 ∧ (mem 0).Intact 0x10040 32 ∧
    thOk (BitVec.ofNat 256 (leNat ((mem 0).dev.m.readKey (mem 0).overlay ((mem 0).memKey (mem 0).u.world) 0x10040 32))) = true := by
  unfold State.ReadyC State.Intact; decide +kernel
theorem witness_ShapesAndHandles_maps :
    (mem 0).Maps ((mem 0).valC 2 + BitVec.ofNat 64 (32 * (0 : BitVec 7).toNat)) 32 .read (mem 0) (entry 0) 0x10040 :=
  witness_maps_line (by decide) (by decide) (by decide)
theorem witness_ControlRegisters_window :
    let p := unit 15 [(1, 0x1000)] []
    csrRead 0x012 ≠ none ∧ csrWritable (p.u.world == 15) 0x012 = true ∧ p.ReadyC [1] [] ∧ (p.valC 1) &&& ~~~csrLegal 0x012 = 0 ∧
    csrValueOk 0x012 (p.valC 1) = true := by unfold State.ReadyC; decide +kernel
theorem witness_ControlRegisters :
    let s := unit 0 [(1, 0xFF)] []
    let p := unit 15 [(1, 0x1000)] []
    s.ReadyC [] [9] ∧ s.ReadyC [1] [] ∧ csrRead 0xFFF = none ∧ csrRead 0x106 = some false ∧ s.u.world ≠ 15 ∧ csrRead 0x001 = some true ∧
    p.u.world = 15 ∧ csrRead 0x106 ≠ none ∧ csrWritable (s.u.world == 15) 0x106 = false ∧
    csrWritable (s.u.world == 15) 0x001 = true ∧ s.valC 1 &&& ~~~csrLegal 0x001 ≠ 0 ∧
    csrWritable (p.u.world == 15) 0x106 = true ∧ p.valC 1 &&& ~~~csrLegal 0x106 = 0 ∧ csrValueOk 0x106 (p.valC 1) = true ∧
    (∀ e ∈ s.u.log, e.1 ≤ (s.u.eng .c).pos) ∧
    (∀ e ∈ p.u.log, e.1 ≤ (p.u.eng .c).pos) ∧
    (∀ c ∈ [0x001, 0x002, 0x003, 0x011], csrRead c ≠ none ∧ csrWritable (s.u.world == 15) c = true ∧
      (1 : Word) &&& ~~~csrLegal c = 0 ∧ csrValueOk c 1 = true) ∧
    (∀ c ∈ [0x014, 0x015, 0x020, 0x021, 0x022, 0x100, 0x106, 0x107], csrRead c ≠ none ∧ csrWritable (p.u.world == 15) c = true ∧
      [(1 : Word), 1024, 0x200000].any (fun v => decide (v &&& ~~~csrLegal c = 0) && csrValueOk c v) = true) ∧
    (p.coreAt 0).c.u.world = 15 ∧ (0x1800 : Word) &&& ~~~csrLegal 0x012 = 0 ∧ csrValueOk 0x012 0x1800 = true := by
  unfold State.ReadyC; decide +kernel


/-- A unit in line 0x10000 of the mapped page, whose lines are all empty. -/
def text : State := State.inU (mem 0) fun u => { u with text := [⟨0x10000, 8, false, 0, none, true, none⟩] }

theorem witness_Branches_fetch : text.u.line? (text.u.eng .c).serial = some ⟨0x10000, 8, false, 0, none, true, none⟩ ∧
    (BitVec.ofNat 64 0x10000 + BitVec.ofInt 64 (32 * immS (w := 24) ⟨none, 1⟩)).toNat = 0x10020 ∧
    text.fetchLine 0x10020 = .ok (text, List.replicate 8 0) := ⟨by decide +kernel, by decide +kernel, of_gives (by decide +kernel)⟩
theorem witness_Branches_fault : ∃ c v k, ctl.fetchLine 0x1020 = .error (.trap c v k) := by
  have h : (match ctl.fetchLine 0x1020 with | .error (.trap ..) => true | _ => false) = true := by decide +kernel
  revert h
  cases ctl.fetchLine 0x1020 with
  | ok x => intro h; cases h
  | error x => cases x <;> intro h <;> first | exact ⟨_, _, _, rfl⟩ | cases h
theorem witness_CallsAndReturns_fetch :
    let r := State.inU text fun u => { u with rdepth := 1, rs := [0x10038] }
    0 < r.u.rdepth ∧ r.u.rspill = 0 ∧ r.u.wspill ≤ 16 * (r.u.rdepth - 1) ∧ r.u.rs[r.u.rdepth - 1]? = some 0x10038 ∧
    (text.lineTarget (immS (w := 24) ⟨none, 1⟩)).toNat = 0x10020 ∧ (0x10038 : Word).toNat / 32 * 32 = 0x10020 := by decide +kernel
theorem witness_CallsAndReturns_target :
    let r := State.inU text fun u => { u with rdepth := 1, rs := [0x10038] }
    r.fetchLine 0x10020 = .ok (r, List.replicate 8 0) := of_gives (by decide +kernel)

theorem witness_LoopSetup :
    let s := unit 0 [(1, 0xFFFFFFFF), (2, 0x100000000)] []
    s.ReadyC [1] [] ∧ (s.valC 1).toNat < 2 ^ 32 ∧ 2 ^ 32 ≤ (s.valC 2).toNat ∧ s.core.c.seq.ovw = none ∧
    (s.modSeq fun q => { q with ovw := some 0 }).core.c.seq.ovw ≠ none := by
  unfold State.ReadyC; decide +kernel

/-- text with trips of 2 and 0. -/
def trips : State := text.modSeq fun q => { q with trip := [(0, 2)] }

theorem witness_LoopStarts :
    1 ≤ (6 : BitVec 3).toNat ∧ (6 : BitVec 3).toNat ≤ 6 ∧ 1 ≤ (64 : BitVec 7).toNat ∧ (64 : BitVec 7).toNat ≤ 64 ∧
    trips.core.c.seq.loop = none ∧ (∀ n ∈ (List.range 1).map fun n => Sparse.get 0 trips.core.c.seq.trip n, n ≠ 0) ∧
    0 ∈ (List.range 2).map (fun n => Sparse.get 0 trips.core.c.seq.trip n) ∧ trips.core.c.seq.ovw = none ∧
    trips.streamBound = false ∧ (trips.modSeq fun q => { q with ovw := some 0 }).core.c.seq.ovw ≠ none ∧
    trips.ReadyC [2, 0] [] ∧ trips.takeLoop = none ∧ (trips.valC 2).toNat < 2 ^ 56 ∧ (trips.valC 2).toNat % 64 = 0 := by
  unfold State.ReadyC; decide +kernel
theorem witness_LoopStarts_body : trips.loadBody (trips.lineAddr .c + 32) 1 = .ok (trips, [List.replicate 8 0]) ∧
    bodyLanes [List.replicate 8 0] = [] ∧ trips.streamBound = false := ⟨of_gives (by decide +kernel), by decide +kernel, by decide +kernel⟩
theorem witness_LoopStarts_count : trips.loadG (trips.valC 2) 8 = .ok (trips, 0) ∧ 0 < (trips.valC 1).toNat ∧
    (trips.valC 0).toNat ≤ 0 := by
  exact ⟨of_gives (by decide +kernel), by decide +kernel, by decide +kernel⟩
/-- trips with an OVW and segment W stopped or in motion. -/
def walkerStopped (stopped shifting : Nat) : State :=
  (trips.modSeq fun q => { q with ovw := some 0 }).modSys fun y => { y with stopped := stopped, shifting := shifting }
theorem witness_LoopStarts_walker : ∀ b ∈ [(16, 0), (0, 16)],
    let s := walkerStopped b.1 b.2
    s.core.c.seq.loop = none ∧ s.core.c.seq.ovw = some 0 ∧ (0 : Nat) < (1 : BitVec 3).toNat ∧
    (s.core.sys.stopped ||| s.core.sys.shifting) / 16 % 2 = 1 ∧ s.streamBound = false ∧
    gives (s.loadBody (s.lineAddr .c + 32) 1) (s, [List.replicate 8 0]) = true := by decide +kernel
/-- text in a replayed launch, whose log holds a block of one level for the lane. -/
def replayed : State := text.modDev fun d => { d with launches := (staged 0).dev.launches.map fun l =>
  { l with loops := [(0, 0x10004, natLe 8 5 ++ natLe 8 2)] } }
theorem witness_LoopStarts_replay : ∃ x, replayed.takeLoop = some x ∧ x.2 = natLe 8 5 ++ natLe 8 2 ∧ (x.1.logTrips x.2 1).isOk = true := by
  have h : (match replayed.takeLoop with | some x => x.2 == natLe 8 5 ++ natLe 8 2 && (x.1.logTrips x.2 1).isOk | none => false) = true := by
    decide +kernel
  cases e : replayed.takeLoop with
  | none => rw [e] at h; cases h
  | some x => rw [e] at h; simp only [Bool.and_eq_true, beq_iff_eq] at h; exact ⟨x, rfl, h.1, h.2⟩
theorem witness_LoopStarts_trips : ∃ t', trips.loadTrips (trips.valC 2) 1 0 = .ok t' := by
  have h : (trips.loadTrips (trips.valC 2) 1 0).isOk = true := by decide +kernel
  cases e : trips.loadTrips (trips.valC 2) 1 0 with
  | ok t => exact ⟨t, rfl⟩
  | error x => rw [e] at h; cases h

/-- A loop of one level with two trips over one line, at its start or with its iteration begun. -/
def loop (ovr : Option Nat) (started : Bool) (at' : Nat) : Loop := ⟨0x10000, 1, [List.replicate 8 0], 1, [2], [at'], 0, ovr, [], started⟩
def looping (l : Loop) : State :=
  State.inU ((text.modSeq fun q => { q with loop := some l }).modW fun w => { w with walk := { w.walk with pos := l.pos, started := l.started } }) fun u =>
  { u with front := .boundary, eC := ⟨1, 1, false, none, []⟩, eA := ⟨1, 1, false, none, []⟩, eV := ⟨1, 1, false, none, []⟩,
           eM := ⟨1, 1, false, none, []⟩, eX := ⟨1, 1, false, none, []⟩ }

theorem witness_LoopBoundaries : ∀ l ∈ [loop none false 0, loop none true 0, loop none true 1, loop (some 0) true 0, loop (some 0) true 1],
    let t := (looping l).focus 0
    (t.core.sys.stopped ||| t.core.sys.shifting) / 4 % 2 = 0 ∧ l.noTrips = false ∧ t.runningLoop = some l ∧ t.sequencerRuns = true ∧ t.walkerActs = true ∧ t.wantsText = true ∧ t.allAtBoundary = true ∧
    t.bodyWritesDone = true := by
  decide +kernel
/-- A pipelined walk past its first iteration, with segment V stopped. -/
def pipelined : State := (looping { loop none true 0 with stages := 2 }).modSys fun y => { y with stopped := 4 }
theorem witness_LoopBoundaries_stopped :
    let t := pipelined.focus 0
    t.runningLoop = some { loop none true 0 with stages := 2 } ∧ t.sequencerRuns = true ∧
    (t.core.sys.stopped ||| t.core.sys.shifting) / 4 % 2 = 1 := by decide +kernel
/-- An overwriting loop with a trip count of zero, which comes to its boundary and ends. -/
def noTrip : Loop := { loop (some 0) false 0 with trips := [0] }
theorem witness_LoopBoundaries_zero :
    let t := (looping noTrip).focus 0
    t.runningLoop = some noTrip ∧ t.sequencerRuns = true ∧ t.walkerActs = true ∧ t.allAtBoundary = true ∧ t.bodyWritesDone = true ∧
    noTrip.noTrips = true := by decide +kernel
theorem witness_LoopBoundaries_next : (loop none true 0).next = some ([1], 0) ∧ (loop none true 1).next = none ∧
    ({ loop (some 1) true 1 with levels := 2, trips := [2, 2], pos := [1, 0] } : Loop).next = some ([0, 1], 1) := by decide +kernel
theorem witness_OverwritingIterations :
    let l := loop (some 0) false 0
    let t := (looping l).focus 0
    t.runningLoop = some l ∧ l.ovr = some 0 ∧ l.started = false ∧ t.walkerActs = true ∧ t.allAtBoundary = true ∧
    t.bodyWritesDone = true ∧ l.noTrips = false ∧ t.footHeld (bodyLanes l.buf) = false ∧ t.u.eC.ended = false ∧ t.u.world ≠ 15 := by
  decide +kernel
theorem witness_OverwritingIterations_body :
    let l := loop (some 0) false 0
    let t := (looping l).focus 0
    t.gatherFoot (l.iter false) l.buf ((bodyLanes l.buf).drop 0) (t.core.w.walk.foot, 0, []) = ((⟨[], []⟩, 0, []), none) := rfl
/-- The loop over one line that holds a FOOT with a reserved bit set, or a word the line check refuses. -/
def footing (w : Nat) : Loop := { loop (some 0) false 0 with buf := [[1, w, 0, 0, 0, 0, 0, 0]] }
theorem witness_OverwritingIterations_trap :
    let l := footing 0x45000004
    let t := (looping l).focus 0
    let g := t.gatherFoot (l.iter false) l.buf ((bodyLanes l.buf).drop 0) (t.core.w.walk.foot, 0, [])
    (match g.2 with | some (1, .trap ..) => true | _ => false) = true ∧ ((bodyLanes l.buf)[g.1.2.1]?).isSome = true := by decide +kernel
theorem witness_OverwritingIterations_foot :
    let it : Iter := ⟨[0], 0, 0, [2], some 0, false, []⟩
    let s := State.inU text fun u => { u with text := [⟨0x10000, 8, false, 0, some it, true, none⟩] }
    (s.laneAt .c).ovr = true ∧ (text.laneAt .c).ovr = false ∧ text.ReadyC [1, 2, 8] [] := by
  unfold State.ReadyC; decide +kernel
theorem witness_Regions :
    let s := unit 0 [(1, 0), (2, 0x40), (3, 0), (4, 0)] []
    let t := s.setToken 0 1
    let idle (s : State) := s.matIdle && s.core.x.xq.isEmpty && (List.range 8).all fun k => s.token k == 0
    s.ReadyC [1, 2, 3, 4] [] ∧ (s.valC 1).toNat % 64 = 0 ∧ (s.valC 2).toNat % 64 = 0 ∧ (s.valC 1).toNat + (s.valC 2).toNat ≤ 0x1F0000 ∧
    (maskNames (s.valC 4)).length ≤ s.regionMax ∧ s.u.depth = 0 ∧ idle s = true ∧ idle t = false := by
  unfold State.ReadyC; decide +kernel


/-- A unit of world 15 with a mask in x1, core 4 in x2, a third operand in x3 and an empty live range in x4. -/
def scan (mask third : Nat) : State := unit 15 [(1, BitVec.ofNat 64 mask), (2, 4), (3, BitVec.ofNat 64 third)] []

theorem witness_ScanClocks : ∀ third ∈ [0, 5],
    let s := scan 0x1F third
    s.scanOp ((s.valC 2).toNat / 4) = none ∧ (s.valC 2).toNat < 512 ∧ s.u.world = 15 ∧ s.ReadyC [1, 2, 3] [] ∧
    gives (s.scanMask (s.valC 1) (s.valC 2).toNat true) ⟨⟩ = true ∧ leaseQuads ((s.valC 1).toNat / 256 % 16) = [] ∧
    (s.valC 1).toNat / 4096 % 2 = 0 ∧ (s.valC 3).toNat = third := by
  unfold State.ReadyC; decide +kernel
theorem witness_ScanClocks_quads :
    let s := scan 0xF01 0
    s.scanOp 1 = none ∧ gives (s.scanMask (s.valC 1) 4 true) ⟨⟩ = true ∧ leaseQuads ((s.valC 1).toNat / 256 % 16) = [0, 1, 2, 3] := by
  decide +kernel
theorem witness_ScanClocks_user : (unit 0 [(1, 1), (2, 4)] []).u.world ≠ 15 ∧ (unit 0 [(1, 1), (2, 4)] []).scanOp 1 = none := by
  decide +kernel
/-- scan with a waiting SCSTOP.cyc of core 0 on lantern 1. -/
def stopping (fired : Bool) : State :=
  (scan 1 0).setLanternAt 1 { Lantern.reset with stops := [⟨0, 0, 0, 4, 1, fired⟩] }
theorem witness_ScanClocks_count :
    let o : ScanOp := ⟨0, 0, 0, 4, 1, false⟩
    ((stopping false).lanternAt 1).stops = [o] ∧ o.kind = 0 ∧ o.fired = false ∧ o.due ≤ (stopping false).cycOf 4 ∧ o.target / 4 = 1 ∧
    ((stopping true).lanternAt (((stopping true).valC 2).toNat % 512 / 4)).stops = [{ o with fired := true }] ∧
    o.issuer = (stopping true).cur := by decide +kernel
theorem witness_ScanClocks_shift : ∀ b < 5,
    let s := (scan 1 0).setCoreAt 4 { Machine.Core.reset with sys := { CoreSys.reset with shifting := 2 ^ b } }
    (s.coreAt 4).sys.shifting / 2 ^ b % 2 = 1 ∧ (s.coreAt 4).sys.stopped / 2 ^ b % 2 = 0 ∧
    (∀ k < b, ¬((s.coreAt 4).sys.shifting / 2 ^ k % 2 = 1)) ∧ (scan 1 0 |>.coreAt 4).sys.shifting = 0 := by decide +kernel
/-- scan of quadrant 1 of lantern 1 held by core 4, whose product has done 10 beats. -/
def beating (third : Nat) (armed : Option Nat) (holder : Option Nat) : State :=
  let l := Lantern.reset.setQuad 1 { Quad.reset with holder := holder, rcd := { Rcd.zero with active := true, beat := 9 }, armed := armed }
  (scan 0x201 third).setLanternAt 1 l
theorem witness_ScanClocks_beat :
    let passed (s : State) (q n : Nat) : Bool :=
      let l := s.lanternAt 1
      (l.quad q).stopped || !s.quadBusy 1 q || ((l.quad q).rcd.active && decide (n < (l.quad q).rcd.done))
    let s := beating 20 none (some 0)
    leaseQuads ((s.valC 1).toNat / 256 % 16) = [1] ∧ passed s 1 20 = false ∧ passed s 1 9 = true ∧
    gives (s.scanMask (s.valC 1) 4 true) ⟨⟩ = true ∧ (s.scanOp 1 = none) ∧ ((s.lanternAt 1).quad 1).armed = none ∧
    ((s.lanternAt 1).quad 1).holder ≠ none ∧ ((beating 20 none none).lanternAt 1).quad 1 ≠ (s.lanternAt 1).quad 1 ∧
    ((scan 0x201 20).quadBusy 1 1 = false) ∧ (((scan 0x201 20).lanternAt 1).quad 1).rcd.active = false := by decide +kernel
theorem witness_ScanClocks_go :
    let s := ((scan 0x201 0).setLanternAt 1 (Lantern.reset.setQuad 1 { Quad.reset with holder := some 0 })).setCoreAt 4
      { Machine.Core.reset with c := { SegC.reset with mat := { MatIss.reset with lease := 0xF } } }
    leaseQuads ((s.valC 1).toNat / 256 % 16) = [1] ∧ s.scanOp 1 = none ∧ gives (s.scanMask (s.valC 1) 4 true) ⟨⟩ = true ∧
    ((s.lanternAt 1).quad 1).rcd.active = false ∧ ((s.lanternAt 1).quad 1).armed = none ∧
    ((s.lanternAt 1).quad 1).holder = some 0 ∧ hasQuad (s.coreAt (4 * 1 + 0)).c.mat.lease 1 = true := by decide +kernel
/-- A product whose slots nothing checks. -/
def someProduct : MCmd := ⟨.mma 1 2 1 0 none, ⟨0, [], false, 1⟩, 0, none, none, none, Shape.zero, 0, 0, 0⟩
/-- The same quadrant stopped, its holder with a product queued and one not started. -/
def owing : State :=
  ((scan 0x201 0).setLanternAt 1 (Lantern.reset.setQuad 1 { Quad.reset with holder := some 0, stopped := true })).setCoreAt 4
    { Machine.Core.reset with c := { SegC.reset with mat := { MatIss.reset with lease := 0xF, mq := [someProduct, someProduct] } } }
theorem witness_ScanClocks_owed :
    let q := (owing.lanternAt 1).quad 1
    owing.scanOp 1 = none ∧ q.rcd.active = false ∧ q.armed = none ∧ q.stopped = true ∧ q.holder = some 0 ∧
    hasQuad (owing.coreAt 4).c.mat.lease 1 = true ∧ (owing.coreAt 4).c.mat.upToProduct = 1 := by decide +kernel
theorem witness_ScanClocks_lamplighter :
    let s := unit 15 [(1, 1), (2, 512)] []
    s.scanOp ((s.valC 2).toNat % 512 / 4) = none ∧ 512 ≤ (s.valC 2).toNat ∧ s.ReadyC [1, 2, 3] [] := by
  unfold State.ReadyC; decide +kernel

/-- scan with the named core segments of core 4 stopped. -/
def still (mask third : Nat) : State :=
  (scan mask third).setCoreAt 4 { Machine.Core.reset with sys := { CoreSys.reset with stopped := 0x1F } }

theorem witness_ScanImages :
    let s := still 2 0
    s.u.world = 15 ∧ (s.valC 2).toNat < 512 ∧ s.ReadyC [1, 2, 3, 4] [9] ∧ gives (liveRange (s.valC 4)) (0, 0) = true ∧
    gives (s.scanMask (s.valC 1) (s.valC 2).toNat true) ⟨⟩ = true ∧
    (∀ b ∈ maskBits (s.valC 1).toNat, s.segOwner 4 b = s.segOwner 4 ((maskBits (s.valC 1).toNat).headD 0)) ∧
    gives (s.scanStill (s.valC 2).toNat (s.valC 1).toNat) ⟨⟩ = true ∧
    (s.valC 3).toNat + (s.capture 4 (s.valC 1).toNat 0 0).2.len ≤ 0x200000 ∧
    s.ReadyC [1, 2, 3] [9] ∧ gives (s.scinStatus true (s.valC 3).toNat 4 2) (s, 1, none) = true ∧
    s.ReadyC [1, 2, 3] [] ∧ (s.valC 3).toNat ≤ 15 ∧ gives (s.scanMask (s.valC 1) 4 false) ⟨⟩ = true := by
  unfold State.ReadyC; decide +kernel

/-- The bytes of an image of segment X of core 4 for world 15, all zero after its first fields. -/
def imageBytes : Bytes := natLe 4 0x454D4231 ++ natLe 2 0x0104 ++ natLe 1 64 ++ natLe 1 15 ++ natLe 2 8 ++ natLe 1 15 ++ List.replicate 1285 0
def image : Image := ⟨0, imageBytes, 256, 8, 15, 0, 64, 4, SegC.reset, SegA.reset, SegV.reset, SegX.reset, SegW.reset, [], [], [], 0, 0, none, .firmware, []⟩
/-- still with that image in the scratchpad and on the seal's record. -/
def imaged : State :=
  let s := still 8 0
  (s.setCore { s.core with spad := Memory.writes [] 0 imageBytes }).modDev fun d => { d with sec := { d.sec with images := [image] } }

/-- still, the store of its image at 0x10000 of a page of its world. -/
def storing : State :=
  let s := still 8 0x10000
  s.modSys fun y => { y with tlb := [⟨15, 0x10000, 0x10000, 0x10000, true, 0, true, true⟩] }
theorem witness_ScanImages_store :
    gives (storing.scanMask (storing.valC 1) (storing.valC 2).toNat true) ⟨⟩ = true ∧ gives (storing.scanStill 4 8) ⟨⟩ = true ∧
    ((storing.capture 4 8 0 0).1.storeRange (storing.valC 3).toNat (storing.capture 4 8 0 0).2.bytes).isOk = true := by decide +kernel
theorem witness_ScanImages_restore :
    imaged.ReadyC [1, 2, 3] [9] ∧ gives (imaged.scanMask (imaged.valC 1) 4 true) ⟨⟩ = true ∧
    gives (imaged.scanStill 4 8) ⟨⟩ = true ∧ (imaged.valC 3).toNat + 256 ≤ 0x200000 ∧
    (imaged.valC 3).toNat + imageLen (imaged.coreAt 4).sys.full (fieldOf (imaged.spad 0 256) 8 2) (fieldOf (imaged.spad 0 256) 36 4) ≤ 0x200000 ∧
    gives (imaged.scinStatus true (imaged.valC 3).toNat 4 8) (imaged, 0, some image) = true := by
  unfold State.ReadyC; decide +kernel


/-- An image of segment C and quadrant 0, with words in the spill area and the live range, and in two rows. -/
def parts : Image := { image with
  segmap := 0x101, live := 64, liveLen := 64, spad := [⟨64, 1⟩, ⟨0x1F0000, 5⟩], quads := [(0, { Quad.reset with acc := [(5, 1)], sw := [(0, 2)], ww := [(1, 3)] })] }
theorem witness_ScanImages_parts :
    let has (b : Nat) : Bool := parts.segmap / 2 ^ b % 2 == 1
    let g := Sparse.get Quad.reset parts.quads 0
    has 0 = true ∧ has 8 = true ∧ has 9 = false ∧ Memory.wf parts.spad = true ∧
    (∀ x ∈ parts.spad, (has 0 = true ∧ 0x1F0000 ≤ x.1) ∨ (parts.live ≤ x.1 ∧ x.1 < parts.live + parts.liveLen)) ∧
    Sparse.wf 0 g.acc = true ∧ Sparse.wf 0 g.sw = true ∧ Sparse.wf 0 g.ww = true := by decide +kernel

theorem witness_SystemLanes :
    let p := unit 15 [(1, 0x1FF7F), (2, 63), (3, 0)] []
    p.u.world = 15 ∧ p.ReadyC [1, 2, 3] [] ∧ (p.valC 1).toNat < 2 ^ 17 ∧ (p.valC 1).toNat / 2 ^ 7 % 2 = 0 ∧ (p.valC 2).toNat ≤ 63 ∧
    hasQuad p.liveQuads ((p.valC 1).toNat / 2 ^ 15) = true ∧
    ¬((unit 0 [] []).u.world = 15 ∨ (unit 0 [] []).core.c.csr.diagen = true) ∧ ((unit 0 [] []).valC 1).toNat < 2 ^ 17 := by
  unfold State.ReadyC; decide +kernel
theorem witness_SystemLanes_holder :
    let d := (unit 0 [(1, 0x1FF7F), (2, 63), (3, 0)] []).modC fun c =>
      { c with csr := { c.csr with diagen := true }, mat := { c.mat with lease := 0xF } }
    let h := d.setLantern (d.lantern.setQuad 3 { Quad.reset with holder := some 0 })
    h.core.c.csr.diagen = true ∧ hasQuad h.liveQuads 3 = true ∧ (h.lantern.quad 3).holder = some (h.cur % 4) ∧
    hasQuad h.core.c.mat.lease 3 = true ∧ h.ReadyC [1, 2, 3] [] := by
  unfold State.ReadyC; decide +kernel
theorem witness_SystemLanes_bytes :
    let b := unit 15 [(1, 0x1FFFFF), (2, 7), (4, 63)] []
    b.ReadyC [1, 2] [] ∧ (b.valC 1).toNat < 0x200000 ∧ (b.valC 2).toNat < 8 ∧ b.ReadyC [4, 2] [] ∧ (b.valC 4).toNat < 64 ∧
    (b.valC 2).toNat < 8 * b.payload ∧ b.parkAt (physV (b.u.curLine .c).rb (b.valC 4).toNat) = none := by
  unfold State.ReadyC; decide +kernel
/-- A unit of world 15 whose register 63 is parked in quadrant 1, row 2. -/
def parkedReg : State := (unit 15 [(2, 7), (4, 63)] []).modV fun v => { v with park := [(physV 0 63, some ⟨1, 2, 0⟩)] }
theorem witness_SystemLanes_parked :
    parkedReg.ReadyC [4, 2] [] ∧ (parkedReg.valC 4).toNat < 64 ∧ (parkedReg.valC 2).toNat < 8 * parkedReg.payload ∧
    parkedReg.parkAt (physV (parkedReg.u.curLine .c).rb (parkedReg.valC 4).toNat) = some ⟨1, 2, 0⟩ := by
  unfold State.ReadyC; decide +kernel
theorem witness_SystemLanes_frames :
    let p := unit 15 [(1, 0x344), (2, 511)] []
    let q := unit 0 [(1, 0x344), (2, 511)] []
    p.u.world = 15 ∧ p.ReadyC [1, 2] [] ∧ 18 ≤ (p.valC 1).toNat / 16 % 32 ∧ (p.valC 1).toNat / 16 % 32 ≤ 24 ∧ (p.valC 2).toNat < 512 ∧
    (p.coreAt (p.valC 2).toNat).sys.enabled = true ∧ q.u.world ≠ 15 ∧ 18 ≤ (q.valC 1).toNat / 16 % 32 ∧
    (q.coreAt (q.valC 2).toNat).sys.enabled = true := by
  unfold State.ReadyC; decide +kernel

/-- The lamplighter of die 0 with a record's address in x1, a partition and queue word in x2, and a number of entries on its
scoreboard. -/
def lamp (n : Nat) : State :=
  (unitAt 512 15 [(1, 0x20000), (2, 0xFFF)] []).modDev fun d => { d with board := List.replicate n ⟨0, none, ⟨0, 64, 1, 0, 0, false⟩⟩ }

theorem witness_DispatchLanes :
    (lamp 0).u.world = 15 ∧ (lamp 0).ReadyC [1, 2] [9] ∧ ((lamp 0).valC 2).toNat < 2 ^ 12 ∧ 512 ≤ (lamp 0).cur ∧
    (lamp 0).boardUsed 0 < 64 ∧ 64 ≤ (lamp 64).boardUsed 0 ∧ (unit 15 [] []).cur < 512 ∧ ((unit 15 [] []).valC 2).toNat < 2 ^ 12 ∧
    (unit 15 [] []).ReadyC [1, 2] [9] ∧
    ((lamp 0).cancel 1 0x20000).1.core.c.busy = (lamp 0).core.c.busy := by
  unfold State.ReadyC; decide +kernel
theorem witness_DispatchLanes_bytes : ∀ n ∈ [0, 64],
    gives ((lamp n).loadRange 0x20000 128) (lamp n, List.replicate 128 0) = true ∧
    gives ((lamp n).loadRange 0x20000 64) (lamp n, List.replicate 64 0) = true := by decide +kernel
/-- A lamplighter's own unit, of launch 7, that a cancel ends. -/
def lampUnit : State :=
  (State.inU (lamp 0) fun u => { u with lid := some 7 }).modDev fun d => { d with launches := [
    ⟨7, 0, 0, 0, 0, 1, 1, 1, 1, false, false, false, 64, 0, 0, 0, [], 0, 15, 0, 0, none, .running, [⟨0, 0, 512, false⟩], none,
      Stage.empty, Stage.empty, false, 0, 0, false, false, none, [], Mem.reset, 0, [], none⟩] }
theorem witness_DispatchLanes_ends : lampUnit.u.world = 15 ∧ lampUnit.ReadyC [1, 2] [9] ∧
    (lampUnit.cancel 1 7).1.core.c.busy ≠ lampUnit.core.c.busy := by unfold State.ReadyC; decide +kernel

/-- A phase on record without a launch, and a job that is complete: cancelled with its job, and already complete. -/
theorem witness_DispatchLanes_levels :
    let s := (lamp 0).modDev fun d => { d with sizes := [⟨3, 0x10000FFFF, 1, 0, 0, 0, false⟩, ⟨4, 1, 1, 0, 0, 0, false⟩], ended := [⟨4, 2, 0, 0, 1, true⟩] }
    let r := (s.cancel 3 0x10000FFFF).1
    (∃ x ∈ s.dev.sizes, x.level = 3 ∧ x.id = 0x10000FFFF) ∧ s.dev.endedLevel 3 0x10000FFFF = none ∧
    (∃ l ∈ lampUnit.dev.launches, l.inLevel 1 7 = true) ∧
    s.dev.endedLevel 4 2 = some true ∧ (∀ x ∈ s.dev.sizes, ¬(x.level = 4 ∧ x.id = 2)) ∧ s.dev.endedLevel 4 3 ≠ some true ∧
    r.dev.endedLevel 3 0x10000FFFF = some false ∧ r.dev.endedLevel 4 1 = some false ∧ (r.queue 0 0).events.length = 2 := by decide +kernel

/-- A record of 16 R433: launch 7 of job 1, one unit, or the cancel of level `level`. -/
def record (type level xfers : Nat) : Bytes :=
  natLe 8 0 ++ natLe 1 type ++ natLe 1 level ++ natLe 1 64 ++ natLe 1 0 ++ natLe 4 1 ++ natLe 8 7 ++ natLe 8 1 ++ natLe 12 0 ++
  natLe 4 1 ++ natLe 4 1 ++ natLe 4 1 ++ natLe 8 0x10000 ++ natLe 8 0 ++ List.replicate 16 0xFF ++ natLe 8 0 ++ natLe 1 xfers ++
  natLe 7 0 ++ List.replicate 16 0xFF ++ natLe 8 0

/-- A device in service, queue 0 of partition 0 enabled, a record of a type at 0x20000, which TAIL names. -/
def offering (type level xfers used : Nat) : State :=
  let m := Mem.reset.put .firmware 0x1000 (natLe 8 0x20000)
  State.reset.modDev fun d => { d with
    stateWord := 1
    m := m.put .firmware 0x20000 (record type level xfers)
    parts := [(0, some ⟨1, 0, 2000⟩)]
    queues := [(0, { Queue.reset with enabled := true, first := 0x20000 })]
    board := List.replicate used ⟨0, none, ⟨0, 64, 1, 0, 0, false⟩⟩ }

theorem witness_RecordsConsumed :
    (∀ b ∈ [(1, 0, 0, 63), (1, 0, 1, 63), (1, 8, 1, 64), (2, 4, 0, 0), (2, 0, 0, 0), (2, 5, 0, 0)],
      let s := offering b.1 b.2.1 b.2.2.1 b.2.2.2
      s.offered 0 0 = some (0x20000, record b.1 b.2.1 b.2.2.1) ∧ s.anyPoisoned (s.recordReads 0 0) = false ∧
      fieldOf (record b.1 b.2.1 b.2.2.1) 9 1 = b.2.1) ∧
    fieldOf (record 1 0 0) 8 1 ≠ 2 ∧ (offering 1 0 0 63).boardUsed 0 + 1 + fieldOf (record 1 0 0) 96 1 ≤ 64 ∧
    64 < (offering 1 0 1 63).boardUsed 0 + 1 + fieldOf (record 1 0 1) 96 1 ∧
    (parseLaunch (record 1 0 1) 0 0 0).isSome = true ∧ ((offering 1 0 1 63).xfersOf (record 1 0 1)).isSome = true ∧
    parseLaunch (record 1 8 1) 0 0 0 = none ∧
    fieldOf (record 2 4 0) 8 1 = 2 ∧ 1 ≤ fieldOf (record 2 4 0) 9 1 ∧ fieldOf (record 2 4 0) 9 1 ≤ 4 := by decide +kernel

/-- A record, or the tail word, in poisoned memory. -/
theorem witness_RecordsConsumed_poison : ∀ g ∈ [0x20040, 0x1000],
    let s := (offering 1 0 1 0).modMem fun m => { m with poison := [(g, true)] }
    s.serves 0 0 = true ∧ s.anyPoisoned (s.recordReads 0 0) = true := by decide +kernel

/-- A launch of one unit in partition 0 that is ready. -/
def ready : Launch := ⟨7, 0, 0, 0, 0, 1, 1, 1, 1, false, false, false, 64, 0, 0x10000, 0, [], 0, 0, 0, 0, some 0, .waiting, [], none,
  Stage.empty, Stage.empty, false, 0, 0, false, false, none, [], Mem.reset, 0, [], none⟩
def launching : State := (offering 0 0 0 0).modDev fun d => { d with launches := [ready] }

theorem witness_UnitsStartAndEnd :
    ((offering 0 0 0 2).nextXfer 0).map Prod.fst = some 0 ∧ launching.inService = true ∧ (∀ r ∈ launching.dev.resetting, r.part ≠ 0) ∧
    (let t := launching.stampReady
     t.pickFirst (t.dev.launches.filter fun l => l.part == 0 && !t.dieDown (512 + l.die) && t.isReady l && (t.startNext l).isSome) = some ready ∧
     (t.startNext ready).isSome = true) ∧
    (let s := State.inU (unit 0 [] []) fun u => { u with
      eC := { u.eC with ended := true }, eA := { u.eA with ended := true }, eV := { u.eV with ended := true },
      eM := { u.eM with ended := true }, eX := { u.eX with ended := true } }
     (s.focus 0).unitDone = true ∧ (s.focus 0).u.lid.bind s.launch? = none) ∧
    launching.unplaced ready = [0] ∧ launching.bestCore (launching.freeCores ready) = some 0 ∧
    launching.unplaced { ready with replay := some [0] } = [0] ∧ 0 ∈ launching.freeCores { ready with replay := some [0] } := by decide +kernel
/-- The last unit of launch 7 after END of every engine. -/
def ending (expired : Option (Nat × Nat)) : State :=
  (State.inU (unit 0 [] []) fun u => { u with
      lid := some 7, eC := { u.eC with ended := true }, eA := { u.eA with ended := true }, eV := { u.eV with ended := true },
      eM := { u.eM with ended := true }, eX := { u.eX with ended := true } }).modDev fun d => { d with
    stateWord := 1
    launches := [{ ready with state := .running, placed := [⟨0, 0, 0, false⟩], started := some 0, expired := expired, snuff := 10 }] }
theorem witness_UnitsStartAndEnd_last : ∀ e ∈ [none, some (0, 0x1004)],
    let s := ending e
    let u := (s.focus 0).u
    (s.focus 0).unitDone = true ∧
    (match u.lid.bind s.launch? with
     | some l => (l.endRun u.idx u.run 0).allEnded && !s.snuffed (l.endRun u.idx u.run 0) && l.expired == e && !l.dup
     | none => false) = true := by decide +kernel
theorem witness_UnitsStartAndEnd_event :
    let e : Event := ⟨0, 9, 0, 0, 0, 0, 0, 0xFFFFFFFF, 0, 0⟩
    let s := (offering 0 0 0 0).setQueue 0 0 { Queue.reset with enabled := true, events := [e] }
    let t := s.modMem fun m => m.put .firmware 0x1018 (natLe 4 1)
    (t.queue 0 0).events = [e] ∧ t.inService = true ∧ t.dev.port.linkUp = true ∧
    t.dev.m.poisoned Stage.empty (t.dev.anchor + 0x1000) 64 = false ∧
    (t.modMem fun m => { m with poison := [(0x1000, true)] }).dev.m.poisoned Stage.empty (t.dev.anchor + 0x1000) 64 = true ∧
    (t.queue 0 0).seq + 1 - t.anchorRead (0x1000 + 32) 8 ≤ t.anchorRead (0x1000 + 24) 4 := by decide +kernel
theorem witness_TrapDeliveryAndFreeze :
    let s := (unit 0 [] []).modC fun c => { c with pend := some ⟨.m, .accumulatorUncorrectable, ⟨0x1004, [0, 0, 0, 0, 0, 0], false, 1⟩, 0, 5⟩ }
    (s.coreAt 0).c.pend = some ⟨.m, .accumulatorUncorrectable, ⟨0x1004, [0, 0, 0, 0, 0, 0], false, 1⟩, 0, 5⟩ ∧
    (s.coreAt 0).sys.saved = none ∧ s.dev.stateWord ≠ 2 ∧ s.dev.powered = true ∧ (s.coreAt 0).sys.freeze = 0 ∧
    (s.coreAt 0).sys.stopped % 2 = 0 ∧
    (∀ x ∈ s.lanterns, ∀ q, q < 4 → (x.2.quad q).held = false) ∧ 0 < s.clockOf (dieOf 0) ∧ ((s.modSys fun y => { y with freeze := 24 }).coreAt 0).sys.freeze ≠ 0 := by decide +kernel
theorem witness_TrapDeliveryAndFreeze_frame :
    let s := (State.reset.modSys fun y => { y with slots := [(0, ⟨0, 20, true⟩), (3, ⟨0, 24, true⟩)] }).modDev fun d => { d with cyc := [(0, 2 ^ 20 * 1000000)] }
    let y := (s.coreAt 0).sys
    s.dev.stateWord ≠ 2 ∧ s.dev.powered = true ∧ y.edge ≤ s.cycOf 0 ∧ State.reset.cycOf 0 < y.edge ∧ s.edgeLinks 0 = [] ∧ s.exchanged 0 = false ∧ y.slotNext = [] ∧ y.following = some (3, ⟨0, 24, true⟩) ∧
    (Sparse.get Slot.off y.slots y.slot).en = true ∧ (Sparse.get Slot.off y.slots y.slot).world = 0 ∧ (s.coreAt 0).c.busy = false := by
  decide +kernel
theorem witness_TrapDeliveryAndFreeze_region :
    let s := (unit 0 [] []).modDev fun d => { d with launches := [
      { ready with lid := 1, state := .running, placed := [⟨0, 0, 0, false⟩], started := some 0 }] }
    let g := s.modSeq fun q => { q with region := some 0x1000, guarded := true }
    (s.coreAt 0).mayLeave = true ∧ s.allLeave 0 = true ∧ s.dev.stateWord ≠ 2 ∧ (g.coreAt 0).c.seq.region.isSome = true ∧
    (g.coreAt 0).c.seq.guarded = true := by decide +kernel
theorem witness_TrapDeliveryAndFreeze_yield :
    let s := (State.inU (unit 0 [] []) fun u => { u with text := [⟨0x1000, 8, false, 0, none, true, some [1, 0x49000000, 0, 0, 0, 0, 0, 0]⟩] }).modDev
      fun d => { d with queues := [(1, { Queue.reset with prio := 3 })], launches := [
        { ready with lid := 1, state := .running, placed := [⟨0, 0, 0, false⟩], started := some 0 }, { ready with queue := 1 }] }
    let r := s.modSeq fun q => { q with region := some 0x1000 }
    (r.focus 0).atYield = true ∧ (r.coreAt 0).c.seq.region.isSome = true ∧ r.outranked 0 = true ∧ (r.coreAt 0).mayLeave = true ∧
    r.allLeave 0 = true ∧ (s.coreAt 0).c.seq.region = none := by decide +kernel
/-- A unit whose handler runs after a precise trap, of launch 1. -/
def handled (c : Cause) : State :=
  let s := (unit 0 [] []).modDev fun d => { d with launches := [
    { ready with lid := 1, state := .running, placed := [⟨0, 0, 0, false⟩], started := some 0 }] }
  s.takeTrap .c c 0 0 (s.laneAt .c)
theorem witness_TrapDeliveryAndFreeze_handled : ∀ c ∈ [Cause.poisonConsumed, Cause.illegalOpcode],
    let s := handled c
    let d := s.modDev fun d => { d with sec := { d.sec with unlocked := 1 } }
    (s.coreAt 0).c.pend = none ∧ (s.coreAt 0).sys.saved.isSome = true ∧ (s.focus 0).begunActs = false ∧ (s.coreAt 0).sys.tr.trep.getLsbD 20 = true ∧
    s.unlocked 0 = false ∧ d.unlocked 0 = true ∧ s.launch? 1 ≠ none ∧ (s.coreAt 0).sys.tr.trep.toNat % 1024 = c.code ∧
    memoryError Cause.poisonConsumed.code = true ∧ memoryError Cause.illegalOpcode.code = false ∧
    c.code ≠ Cause.staleGrant.code := by decide +kernel
theorem witness_TrapDeliveryAndFreeze_begun :
    let s := (handled .poisonConsumed).modX fun x => { x with xq := [⟨.xcopySs 1 2 none none, ⟨0x1004, [], false, 1⟩,
      some ⟨0x1000, 1, 64, 1, false, 0⟩, some ⟨0x2000, 1, 64, 1, false, 0⟩, none, 0, 0, 0, 0, 0, true, 0, 0, false⟩] }
    (s.coreAt 0).c.pend = none ∧ (s.focus 0).begunActs = true := by decide +kernel
theorem witness_TrapDeliveryAndFreeze_exchange :
    let s := ((unit 0 [] []).modSys fun y => { y with slots := [(0, ⟨0, 20, true⟩), (3, ⟨1, 24, true⟩)] }).modDev fun d => { d with cyc := [(0, 2 ^ 20 * 1000000)] }
    let y := (s.coreAt 0).sys
    y.edge ≤ s.cycOf 0 ∧ s.edgeLinks 0 = [] ∧ s.exchanged 0 = true ∧ (s.focus 0).edgeWaits = false ∧
    ((s.modSys fun y => { y with freeze := 24 }).focus 0).edgeWaits = true ∧ y.slotNext = [] ∧ y.following = some (3, ⟨1, 24, true⟩) ∧ (s.coreAt 0).c.busy = true ∧
    (s.coreAt 0).c.u.world = 0 ∧ y.saved = none ∧ y.stopped = 0 ∧ y.freeze = 0 ∧
    s.isGang (s.coreAt 0).c.u.lid = false ∧ s.savedUnit 0 1 = none := by decide +kernel
/-- A launch with one unit placed on core 0 that waits to be restarted. -/
def restarting : State := launching.modDev fun d => { d with
  launches := [{ ready with state := .running, placed := [⟨0, 0, 0, false⟩], started := some 0 }]
  waiting := [⟨0, 7, 0, 0, 0, none, [], ⟨[], [], [], []⟩, [], [], false, [], [], true⟩] }
theorem witness_TrapDeliveryAndFreeze_restart : restarting.inService = true ∧ (restarting.tryRestart 0 restarting.dev.waiting).isSome = true := by
  decide +kernel

/-- The launch event of queue 3 in chapter 21. -/
theorem test_snuffed_event_record :
    (⟨1, 6, 0, 0, 0x0F01, 0x51, 1, 0, 0x5000014, 1212416⟩ : Event).bytes 1 =
      [0x01, 0, 0, 0, 0, 0, 0, 0, 0x01, 0x06, 0, 0, 0, 0, 0, 0, 0x01, 0x0F, 0, 0, 0, 0, 0, 0, 0x51, 0, 0, 0, 0, 0, 0, 0,
       0x01, 0, 0, 0, 0, 0, 0, 0, 0x14, 0, 0, 0x05, 0, 0, 0, 0, 0, 0x80, 0x12, 0, 0, 0, 0, 0, 0, 0, 0, 0, 0, 0, 0, 0] := by decide

/-- A powered device whose slice 3 maps the GiB at 0x40000000. -/
def sliced : State := State.reset.modDev fun d => { d with port := { d.port with slices := [(3, some (0x40000000, .default))] } }

theorem witness_HostWindows :
    sliced.hostReaches = true ∧ sliced.slice? 3 = some (0x40000000, .default) ∧ sliced.slice? 2 = none ∧ sliced.slice? 64 = none ∧
    2 ^ 30 - 1 + [(5 : Byte)].length ≤ 2 ^ 30 ∧ 0x40000000 + (2 ^ 30 - 1) + [(5 : Byte)].length ≤ memTop + 1 ∧
    (2 ^ 25 - 2) % 2 = 0 ∧ 2 ^ 25 - 2 < 2 ^ 25 ∧ 0x40000000 + 8 + 4 ≤ memTop + 1 := by decide +kernel
theorem witness_HostWindows_poison : ∀ x, 0x40000008 ≤ x → x < 0x4000000C → Sparse.get false sliced.dev.m.poison (x / 32 * 32) = false :=
  fun _ _ _ => rfl
theorem witness_StartUp :
    State.reset.dev.powered = true ∧ State.reset.hostReaches = true ∧ State.reset.dev.stateWord = 0 ∧
    (State.reset.modDev fun d => { d with powered := false }).dev.powered = false ∧
    ((0x1000 : Nat) ≠ 0x1004 ∨ (natLe 4 0).length ≠ 4) ∧ ((0x1004 : Nat) ≠ 0x1004 ∨ (natLe 2 0).length ≠ 4) ∧
    (State.reset.modDev fun d => { d with port := { d.port with bootLen := 4096 } }).booted = true ∧ (State.reset.coreAt 511).sys.enabled = true ∧
    (State.reset.coreAt 511).sys.fenced = false := by decide +kernel
theorem witness_DeviceFaults :
    (∃ l ∈ launching.dev.launches, l.state ≠ .failed) ∧ (∀ l ∈ State.reset.dev.launches, l.state = .failed) := by decide +kernel
theorem witness_ServiceSteps :
    let l := { ready with state := .running, started := some 0, expired := some (0, 0) }
    let s := launching.modDev fun d => { d with launches := [l], now := 10000000000000 }
    let r := s.modDev fun d => { d with resetting := [⟨0, 7⟩] }
    s.launch? 7 = some l ∧ s.inService = true ∧ l.expired.isSome = true ∧ (∀ x ∈ s.dev.resetting, x.part ≠ l.part) ∧
    r.dev.resetting.find? (fun x => x.part == 0) = some ⟨0, 7⟩ ∧ r.dev.stateWord ≠ 2 := by decide +kernel
/-- A running launch whose snuffer runs out. -/
def burning : Launch := { ready with state := .running, started := some 0 }
def burned : State := launching.modDev fun d => { d with launches := [burning], now := 10000000000000 }
theorem witness_ServiceSteps_expiry :
    burning ∈ burned.dev.launches ∧ (∀ x ∈ burned.dev.launches, x.lid = burning.lid → x = burning) ∧ burning.state ≠ .failed ∧
    burning.expired = none ∧ burned.snuffed burning = true := by decide +kernel
theorem witness_ServiceSteps_rotation :
    let s := launching
    let b := s.setCoreAt 511 { Machine.Core.reset with c := { SegC.reset with busy := true } }
    let want := s.setLanternAt 127 { Lantern.reset with rotWant := some 3, q := [(3, { Quad.reset with held := true })] }
    let late := s.modDev fun d => { d with now := s.dev.rot.period * 1000000000 }
    s.dev.rot.enabled = true ∧ late.periodDue (late.coreAt 511).sys.passed = true ∧ late.periodDue 0 = true ∧
    late.dev.rot.enabled = true ∧ (s.coreAt 511).sys.enabled = true ∧ (s.coreAt 511).sys.fenced = false ∧ s.dieBusy 511 = false ∧ s.dieDown 511 = false ∧ (s.coreAt 511).sys.testAt = none ∧
    (s.coreAt 511).c.busy = false ∧ (b.coreAt 511).c.busy = true ∧ (b.coreAt 511).mayLeave = false ∧ b.dieBusy 511 = false ∧
    hasQuad (s.lanternAt 127).live 3 = true ∧ (s.lanternAt 127).rotWant = none ∧ (want.lanternAt 127).rotWant = some 3 ∧
    ((want.lanternAt 127).quad 3).held = true ∧ want.dieDown (4 * 127) = false ∧ (want.lanternAt 127).waiting = [] ∧ hasQuad (want.lanternAt 127).live 3 = true := by
  decide +kernel
/-- Core 511 with a unit of world 15, in its drain or not. -/
def staying (draining : Bool) : State := launching.setCoreAt 511 { Machine.Core.reset with
  c := { SegC.reset with busy := true, u := { UnitCtx.reset with world := 15 } }, sys := { CoreSys.reset with draining := draining } }
theorem witness_ServiceSteps_stays : ∀ d ∈ [true, false],
    let s := staying d
    s.inService = true ∧ s.dev.rot.enabled = true ∧ (s.coreAt 511).sys.draining = d ∧
    (s.modDev fun x => { x with now := x.rot.period * 1000000000 }).periodDue (s.coreAt 511).sys.passed = true ∧
    (s.coreAt 511).sys.enabled = true ∧ (s.coreAt 511).sys.fenced = false ∧ s.dieBusy 511 = false ∧ s.dieDown 511 = false ∧
    (s.coreAt 511).sys.testAt = none ∧ (s.coreAt 511).c.busy = true ∧ s.testWaits 511 = true := by decide +kernel
/-- Core 511 in its test, and a quadrant whose parked row has become free. -/
def tested : State := (launching.setCoreAt 511 { Machine.Core.reset with sys := { CoreSys.reset with draining := true, testAt := some 5 } }).setLanternAt 127
  { Lantern.reset with q := [(3, { Quad.reset with lastHold := some 0, rest := [7] })] }
/-- Core 511 with a unit in a region that may leave. -/
def leaving : State := launching.setCoreAt 511 { Machine.Core.reset with
  c := { SegC.reset with busy := true, u := { UnitCtx.reset with world := 0, lid := some 7 }, seq := { Seq.reset with region := some 0 } } }
/-- The same in a region that has performed an access of 10 R374. -/
def kept : State := leaving.setCoreAt 511 { leaving.coreAt 511 with
  c := { (leaving.coreAt 511).c with seq := { Seq.reset with region := some 0, guarded := true } } }
theorem witness_ServiceSteps_tests :
    (tested.coreAt 511).sys.draining = true ∧ (tested.coreAt 511).sys.testAt = some 5 ∧ (tested.coreAt 511).sys.enabled = true ∧
    (tested.coreAt 511).sys.fenced = false ∧ tested.dieBusy 511 = false ∧ tested.dieDown 511 = false ∧
    (tested.lanternAt 127).rotWant = none ∧ ((tested.lanternAt 127).quad 3).lastHold = some 0 ∧ tested.periodDue 0 = false ∧
    ((tested.lanternAt 127).quad 3).restFree = true ∧ hasQuad (tested.lanternAt 127).live 3 = true ∧
    (kept.coreAt 511).mayLeave = false ∧ (kept.coreAt 511).c.busy = true ∧ kept.testWaits 511 = false ∧ kept.dieBusy 511 = false ∧
    (leaving.coreAt 511).mayLeave = true ∧ leaving.testWaits 511 = false ∧ leaving.dieBusy 511 = false := by decide +kernel
theorem witness_ClocksBanksFabric :
    let low := launching.setClock 7 1000
    let sense (x : Sense) : State := (launching.setSense 7 x).modDev fun d => { d with now := 10000000000 }
    let hot (x : Sense) : Bool := (decide (480000 < x.power) || decide (1680 < x.temp)) && x.step.all fun i => decide (i + 100000000 ≤ 10000000000)
    (sense ⟨0, 0, none, none⟩).dev.powered = true ∧ 1000 < (sense ⟨0, 0, none, none⟩).clockOf 7 ∧ low.clockOf 7 ≤ 1000 ∧
    (∀ x : Sense, Sparse.get Sense.reset (sense x).dev.sense 7 = Sparse.get Sense.reset (Sparse.set Sense.reset [] 7 x) 7) ∧
    (∀ x ∈ [(⟨480001, 0, none, none⟩ : Sense), ⟨0, 1681, none, some 9900000000⟩],
      Sparse.get Sense.reset (sense x).dev.sense 7 = x ∧ hot x = true) ∧
    (∀ x ∈ [(⟨480000, 1680, some 0, none⟩ : Sense), ⟨480001, 0, some 1, some 9900000001⟩],
      Sparse.get Sense.reset (sense x).dev.sense 7 = x ∧ hot x = false) ∧
    (∃ i, (⟨480000, 1680, some 0, none⟩ : Sense).low = some i ∧ i + 10000000000 ≤ (sense ⟨480000, 1680, some 0, none⟩).dev.now) ∧
    ¬(∃ i, (⟨480001, 0, some 1, some 9900000001⟩ : Sense).low = some i ∧ i + 10000000000 ≤ 10000000000) := by
  intro low sense hot
  refine ⟨by decide +kernel, by decide +kernel, by decide +kernel, fun _ => rfl, by decide +kernel, by decide +kernel, ⟨0, rfl, by decide +kernel⟩, ?_⟩
  rintro ⟨i, h, g⟩
  cases h
  exact absurd g (by decide)
theorem witness_ClocksBanksFabric_group :
    let rb := natLe 2 0xFFF ++ natLe 1 2 ++ natLe 1 1 ++ natLe 4 4096 ++ natLe 56 0
    launching.inService = true ∧ launching.groupKeys (fieldOf rb 0 2) = some (.null, .lost launching.dev.fresh) ∧ fieldOf rb 2 1 = 2 ∧
    fieldOf rb 3 1 < 2 ∧ 1 ≤ fieldOf rb 4 4 ∧ fieldOf rb 4 4 ≤ 4096 ∧ 0x20000 + fieldOf rb 4 4 ≤ memTop + 1 := by decide +kernel

/-- A device in service with one management request of a code and a payload, which starts at byte 16 of the record. -/
def asking (code : Nat) (payload : Bytes) : State :=
  let m := Mem.reset.put .firmware 0 (natLe 8 0x20000)
  State.reset.modDev fun d => { d with
    stateWord := 1, mgmtFirst := 0x20000, m := m.put .firmware 0x20000 (natLe 8 0 ++ natLe 2 code ++ natLe 6 0 ++ payload) }
/-- Whether the request of a device has a property. -/
def asks (s : State) (p : Bytes → Bool) : Bool := match s.request? with
  | some (_, r) => p r
  | none => false
/-- Whether it has a code and fields, each an offset, a length and a value. -/
def asksFor (s : State) (code : Nat) (fs : List (Nat × Nat × Nat)) : Bool :=
  asks s fun r => fieldOf r 8 2 == code && fs.all fun x => fieldOf r x.1 x.2.1 == x.2.2

/-- Partition 15 with home 7, an aging step and lantern 0. -/
def partition (aging : Nat) : State := asking 0x10 (natLe 1 15 ++ natLe 1 7 ++ natLe 2 0 ++ natLe 4 aging ++ natLe 8 0 ++ natLe 16 1)
theorem witness_PartitionRequests_set : ∀ aging ∈ [0, 100, 100000, 99, 100001],
    let s := partition aging
    asksFor s 0x10 [(16, 1, 15), (17, 1, 7), (20, 4, aging), (32, 16, 1)] = true ∧ s.maskTaken 15 1 = false ∧ s.partRuns 15 = false ∧
    (s.modDev fun d => { d with parts := [(0, some ⟨1, 0, 2000⟩)] }).maskTaken 15 1 = true ∧
    (s.modDev fun d => { d with launches := [{ ready with part := 15, state := .running }] }).partRuns 15 = true := by decide +kernel
theorem witness_PartitionRequests_queue : ∀ limit ∈ [100, 3600000000, 99, 3600000001],
    asksFor (asking 0x11 (natLe 1 15 ++ natLe 1 15 ++ natLe 1 3 ++ natLe 1 14 ++ natLe 1 1 ++ natLe 3 0 ++ natLe 8 limit)) 0x11
      [(16, 1, 15), (17, 1, 15), (18, 1, 3), (19, 1, 14), (24, 8, limit)] = true := by decide +kernel
theorem witness_PartitionRequests_resize :
    let s := (asking 0x12 (natLe 16 0 ++ natLe 16 2)).modDev fun d => { d with parts := [(0, some ⟨1, 0, 2000⟩)] }
    let t := (asking 0x12 (natLe 16 0 ++ natLe 16 2)).modDev fun d => { d with parts := [(0, some ⟨1, 0, 2000⟩), (1, some ⟨2, 0, 2000⟩)] }
    asksFor s 0x12 [(16, 1, 0), (32, 16, 2)] = true ∧ s.part? 0 = some ⟨1, 0, 2000⟩ ∧ s.maskTaken 0 2 = false ∧
    (∀ l ∈ s.dev.launches, l.part ≠ 0) ∧ s.dev.saves = [] ∧ t.maskTaken 0 2 = true ∧ t.part? 0 = some ⟨1, 0, 2000⟩ := by decide +kernel
theorem witness_PartitionRequests_slice :
    asksFor (asking 0x13 []) 0x13 [] = true ∧ (asking 0x13 []).sliceKey 0xFFF = some .default ∧ (63 : Nat) < 64 ∧
    (0x40000000 : Nat) % 2 ^ 30 = 0 ∧ 0x40000000 + 2 ^ 30 ≤ memTop + 1 := by decide +kernel
theorem witness_PartitionRequests_die :
    let s := asking 0x30 (natLe 1 11 ++ natLe 1 1)
    let goes (s : State) (i : Nat) : Bool := (s.otherSockets 0).contains i && decide (0 < s.roomOn s.framesUsed i)
    let moving (offline : Nat) : State := s.modDev fun d => { d with evac := some (0, []), m := { d.m with offline := offline } }
    asksFor s 0x30 [(16, 1, 11), (17, 1, 1)] = true ∧ s.dev.parts = [] ∧ s.dev.evac = none ∧ s.framesLeft 11 [] = [] ∧
    (s.modDev fun d => { d with evac := some (11, []) }).framesLeft 11 [] = [] ∧
    s.framesLeft 0 [] = [0] ∧ (moving 0).framesLeft 0 [] = [0] ∧ (moving 0xFFE).framesLeft 0 [] = [0] ∧
    goes (moving 0) 1 = true ∧ (List.range 12).all (fun i => !goes (moving 0xFFE) i) = true ∧
    ((s.otherSockets 0).map (s.roomOn s.framesUsed)).sum ≥ (s.framesLeft 0 []).length ∧
    (((moving 0xFFE).otherSockets 0).map ((moving 0xFFE).roomOn (moving 0xFFE).framesUsed)).sum < ((moving 0xFFE).framesLeft 0 []).length ∧
    asksFor (asking 0x30 (natLe 1 12)) 0x30 [(16, 1, 12)] = true := by decide +kernel
theorem witness_PartitionRequests_modes :
    asksFor (asking 0x31 (natLe 1 1 ++ natLe 3 0 ++ natLe 4 1000 ++ natLe 8 0 ++ natLe 4 4096)) 0x31
      [(20, 4, 1000), (32, 4, 4096), (24, 8, 0)] = true ∧
    asksFor (asking 0x32 (natLe 1 0)) 0x32 [(16, 1, 0)] = true ∧
    asksFor (asking 0x32 (natLe 8 1 ++ natLe 8 0x30000 ++ natLe 8 0x1000)) 0x32 [(16, 1, 1), (24, 8, 0x30000)] = true ∧
    asksFor (asking 0x99 []) 0x99 [] = true ∧ knownCode 0x99 = false := by decide +kernel
/-- A launch record of one unit. -/
def logRecord : Bytes := natLe 8 0 ++ natLe 1 1 ++ natLe 1 0 ++ natLe 1 64 ++ natLe 1 0 ++ natLe 4 1 ++ natLe 8 1 ++ natLe 8 1 ++
  natLe 12 0 ++ natLe 4 1 ++ natLe 4 1 ++ natLe 4 1 ++ natLe 16 0 ++ List.replicate 16 0xFF ++ natLe 16 0 ++ List.replicate 16 0xFF ++ natLe 8 0
/-- A log that holds the record of launch 1 and the core 3 of its unit: USED, then two entries. -/
def log : List Cell :=
  [⟨0x30000, 192⟩, ⟨0x30010, 1⟩, ⟨0x30014, 128⟩, ⟨0x30018, 1⟩, ⟨0x30028, 1⟩, ⟨0x3002a, 64⟩, ⟨0x3002c, 1⟩, ⟨0x30030, 1⟩, ⟨0x30038, 1⟩, ⟨0x3004c, 1⟩, ⟨0x30050, 1⟩, ⟨0x30054, 1⟩, ⟨0x30068, 255⟩] ++
  [⟨0x30069, 255⟩, ⟨0x3006a, 255⟩, ⟨0x3006b, 255⟩, ⟨0x3006c, 255⟩, ⟨0x3006d, 255⟩, ⟨0x3006e, 255⟩, ⟨0x3006f, 255⟩, ⟨0x30070, 255⟩, ⟨0x30071, 255⟩, ⟨0x30072, 255⟩, ⟨0x30073, 255⟩, ⟨0x30074, 255⟩] ++
  [⟨0x30075, 255⟩, ⟨0x30076, 255⟩, ⟨0x30077, 255⟩, ⟨0x30088, 255⟩, ⟨0x30089, 255⟩, ⟨0x3008a, 255⟩, ⟨0x3008b, 255⟩, ⟨0x3008c, 255⟩, ⟨0x3008d, 255⟩, ⟨0x3008e, 255⟩, ⟨0x3008f, 255⟩, ⟨0x30090, 255⟩] ++
  [⟨0x30091, 255⟩, ⟨0x30092, 255⟩, ⟨0x30093, 255⟩, ⟨0x30094, 255⟩, ⟨0x30095, 255⟩, ⟨0x30096, 255⟩, ⟨0x30097, 255⟩, ⟨0x300a0, 2⟩, ⟨0x300a4, 2⟩, ⟨0x300a8, 1⟩, ⟨0x300b0, 3⟩]
/-- A device asked to replay launch 1 from a log at 0x30000 that holds it, or is empty. -/
def replaying (some : Bool) : State :=
  (asking 0x33 (natLe 8 0 ++ natLe 8 0x30000 ++ natLe 8 1)).modDev fun d => { d with
    m := { d.m with mem := d.m.mem ++ if some then log else [⟨0x30000, 16⟩] }, parts := [(0, Option.some ⟨1, 0, 2000⟩)] }
/-- The log's entries for the launch. -/
def logged (s : State) : List (Nat × Nat × Nat × Bytes) := s.logOf 0x30000 (fieldOf (s.peek 0x30000 16) 0 8) 1
theorem witness_PartitionRequests_replay_empty :
    asksFor (replaying false) 0x33 [(16, 1, 0), (17, 1, 0), (24, 8, 0x30000), (32, 8, 1)] = true ∧ logged (replaying false) = [] := by
  decide +kernel
theorem witness_PartitionRequests_replay : logged (replaying true) = [(16, 1, 1, logRecord), (160, 2, 1, [3, 0])] ∧
    sinceRecord (logged (replaying true)) = [(160, 2, 1, [3, 0])] := by decide +kernel
theorem witness_PartitionRequests_replay_record : ∃ l, parseLaunch logRecord 0 0 0 = some l ∧ l.n = 1 ∧ l.lid = 1 :=
  ⟨_, rfl, by decide +kernel⟩
/-- The list of records in poisoned memory, and not. -/
theorem witness_PartitionRequests_poison :
    let s := replaying true
    let reads (s : State) := s.anyPoisoned (s.listReads s.dev.anchor s.dev.mgmtFirst s.dev.mgmt 256)
    let p (g : Nat) : State := s.modMem fun m => { m with poison := [(g, true)] }
    s.inService = true ∧ reads s = false ∧ reads (p 0) = true ∧ reads (p 0x200E0) = true ∧
    reads (p 0x30000) = false ∧ (p 0x30000).dev.m.poisoned Stage.empty 0x30000 16 = true ∧
    s.dev.m.poisoned Stage.empty 0x30000 16 = false ∧ s.dev.m.poisoned Stage.empty (0x30000 + 16) (192 - 16) = false ∧
    s.dev.m.poisoned Stage.empty (xferRange logRecord).1 (xferRange logRecord).2 = false ∧ s.boardUsed 0 + 1 + 0 ≤ 64 ∧
    s.xfersOf logRecord = some [] ∧ s.homeDie 0 = 0 ∧ 64 < (s.modDev fun d => { d with board := List.replicate 64 ⟨0, none, ⟨0, 64, 1, 0, 0, false⟩⟩ }).boardUsed 0 + 1 + 0 := by
  decide +kernel
theorem witness_PartitionRequests_replay_state :
    asksFor (replaying true) 0x33 [(16, 1, 0), (17, 1, 0), (24, 8, 0x30000), (32, 8, 1)] = true ∧ ((replaying true).queue 0 0).world = 0 ∧
    (replaying true).dev.launches = [] ∧ ((replaying true).coreAt 3).sys.fenced = false ∧
    (replaying true).part? 0 = some ⟨1, 0, 2000⟩ ∧ Part.has ⟨1, 0, 2000⟩ (3 / 4) = true := by decide +kernel

/-- A device with key 5 of world 0 and world 0 protected or not. -/
def keyed (s : State) (worlds : Sparse (Option World)) : State :=
  s.modDev fun d => { d with sec := { d.sec with keys := [⟨5, 0, .installed 3, 0⟩], worlds := worlds } }
def plainWorld : World := ⟨false, .installed 3, 5, 0xFFF, 0, []⟩
theorem witness_SecurityRequests_keys :
    let i := asking 0x21 (natLe 2 0xFFE ++ natLe 1 15 ++ natLe 5 0 ++ natLe 8 0x30000)
    let r := keyed (asking 0x22 (natLe 2 5)) []
    asksFor i 0x21 [(16, 2, 0xFFE), (18, 1, 15)] = true ∧ (∀ k ∈ i.dev.sec.keys, k.handle ≠ 0xFFE) ∧
    (∃ k ∈ (keyed (asking 0x21 (natLe 2 5)) []).dev.sec.keys, k.handle = 5) ∧ asksFor (keyed (asking 0x21 (natLe 2 5)) []) 0x21 [(16, 2, 5)] = true ∧
    asksFor r 0x22 [(16, 2, 5)] = true ∧ r.keyUsed 5 = false ∧ (∃ k ∈ r.dev.sec.keys, k.handle = 5) ∧
    (keyed (asking 0x22 (natLe 2 5)) [(0, some plainWorld)]).keyUsed 5 = true := by decide +kernel
theorem witness_SecurityRequests_create :
    let payload (prot mem : Nat) := natLe 1 0 ++ natLe 1 prot ++ natLe 2 mem ++ natLe 2 0xFFF ++ natLe 2 0 ++ natLe 8 0x40000
    let s := keyed (asking 0x20 (payload 1 5)) []
    let u := s.modDev fun d => { d with sec := { d.sec with unlocked := 1 } }
    asksFor s 0x20 [(16, 1, 0), (17, 1, 1), (18, 2, 5), (20, 2, 0xFFF)] = true ∧ s.dev.sec.unlocked = 0 ∧ s.world? 0 = none ∧
    s.keyFor 0 5 = some (.installed 3) ∧ u.dev.sec.unlocked ≠ 0 ∧
    (keyed (asking 0x20 (payload 1 5)) [(0, some plainWorld)]).world? 0 ≠ none ∧
    asksFor (asking 0x20 (payload 0 0xFFF)) 0x20 [(17, 1, 0), (18, 2, 0xFFF)] = true := by decide +kernel
theorem witness_SecurityRequests_destroy :
    let s := keyed (asking 0x23 (natLe 1 0)) [(0, some plainWorld)]
    let v := s.modDev fun d => { d with launches := [ready] }
    asksFor s 0x23 [(16, 1, 0)] = true ∧ (∀ l ∈ s.dev.launches, l.world = 0 → l.state = .failed) ∧
    (∃ l ∈ v.dev.launches, l.world = 0 ∧ l.state ≠ .failed) := by decide +kernel
theorem witness_SecurityRequests_others :
    let s := keyed (asking 0x24 (natLe 1 0 ++ natLe 1 0)) [(0, some plainWorld)]
    asksFor s 0x24 [(16, 1, 0), (17, 1, 0)] = true ∧ s.world? 0 = some plainWorld ∧
    (∀ e ∈ (List.range 0).map fun i => s.peek (1344 * i) 1344, s.entryOk e = true) ∧
    asksFor (asking 0x25 (natLe 1 15)) 0x25 [(16, 1, 15)] = true ∧ asksFor (asking 0x26 (natLe 8 0 ++ natLe 8 0x30000)) 0x26 [(24, 8, 0x30000)] = true ∧
    asksFor (asking 0x27 (natLe 8 0 ++ natLe 8 0x30000 ++ natLe 8 272)) 0x27 [(16, 1, 0), (24, 8, 0x30000), (32, 8, 272)] = true ∧
    fieldOf ((asking 0x27 (natLe 8 0 ++ natLe 8 0x30000 ++ natLe 8 272)).peek 0x30000 256) 144 8 = 0 := by decide +kernel

/-- What a request names in poisoned memory. -/
theorem witness_SecurityRequests_poison :
    let p (s : State) : State := s.modMem fun m => { m with poison := [(0x30000, true)] }
    let reads (s : State) := s.anyPoisoned (s.listReads s.dev.anchor s.dev.mgmtFirst s.dev.mgmt 256)
    let at' := natLe 8 0x30000
    let lock := p (asking 0x26 (natLe 8 0 ++ at'))
    let entry (op : Nat) := p (asking 0x27 (natLe 8 op ++ at' ++ natLe 8 272))
    let roster := p (keyed (asking 0x24 (natLe 1 0 ++ natLe 1 1 ++ natLe 6 0 ++ at')) [(0, some plainWorld)])
    let key := p (asking 0x21 (natLe 2 0xFFE ++ natLe 1 15 ++ natLe 5 0 ++ at'))
    (∀ s ∈ [lock, entry 0, entry 1, roster, key], reads s = false ∧ s.dev.m.poisoned Stage.empty 0x30000 256 = true) ∧
    asksFor lock 0x26 [(24, 8, 0x30000)] = true ∧ (∀ op < 2, asksFor (entry op) 0x27 [(16, 1, op), (24, 8, 0x30000)] = true) ∧
    asksFor roster 0x24 [(16, 1, 0), (17, 1, 1), (24, 8, 0x30000)] = true ∧ roster.world? 0 = some plainWorld ∧
    asksFor key 0x21 [(16, 2, 0xFFE), (18, 1, 15), (24, 8, 0x30000)] = true ∧ (∀ k ∈ key.dev.sec.keys, k.handle ≠ 0xFFE) := by decide +kernel

/-- A unit with a1 = 0x1EFF00, a2 = 0x1000, a3 a geometry and a latch, and elements in q4 (indices) and q5. -/
def el (f : Byte) : Elem := ⟨f, List.replicate 4 0x7F, List.replicate 256 0⟩
def acc : State := (unit 0 [(1, 7)] []).modA fun x => { x with a := [(1, 0x1EFF00), (2, 0x1000)], lat := [5] }
def loaded : State := (acc.setCore { acc.core with tag := [(0x40, ⟨1, 0x7F⟩)] }).modA fun x => { x with q := [(4, [el 4]), (5, [el 1])] }

theorem witness_AccessArithmetic :
    acc.strideBound 9 = false ∧ acc.ReadyA [1, 32] ∧ acc.ReadyX .a [1] ∧ 0 ≤ immS (w := 12) ⟨none, 31⟩ ∧ immS (w := 12) ⟨none, 31⟩ ≤ 31 ∧
    (State.inU acc fun u => { u with text := [⟨0x1000, 8, false, 0, some ⟨[0], 0, 0, [2], none, false, [(9, 0, 4)]⟩, true, none⟩] }).strideBound 9 = true ∧
    immS (w := 12) ⟨none, 0xFFF⟩ < 0 ∧ 31 < immS (w := 12) ⟨none, 32⟩ ∧
    (32 ≤ (33 : ASrc).toNat ∧ acc.core.a.lat.length ≤ (33 : ASrc).toNat - 32) := by
  unfold State.ReadyA State.ReadyX; decide +kernel
theorem witness_ScratchpadElements :
    acc.ReadyA [1] ∧ acc.overA = false ∧ acc.qbind 0 = none ∧ acc.qbind 4 = none ∧
    (acc.valA 1 + BitVec.ofInt 32 (immS (w := 15) ⟨none, 0⟩)).toNat % 64 = 0 ∧
    (acc.valA 1 + BitVec.ofInt 32 (immS (w := 15) ⟨none, 0⟩)).toNat + acc.vlanes * 4 ≤ 0x1F0000 ∧ fmtOk (0 : Byte).toNat = true ∧
    (∀ j, j < acc.vlanes * 4 / 64 → (acc.desc (0x1EFF00 / 64 + j)).fmt = 0) ∧ (acc.queueOf 0).length < 16 ∧ acc.queueOf 4 = [] ∧
    loaded.ReadyA [1] ∧ loaded.queueOf 5 = [el 1] ∧ (el 1).data.length = 256 := by
  unfold State.ReadyA; decide +kernel
theorem witness_ScratchpadElements_gather :
    loaded.ReadyA [2] ∧ loaded.overA = false ∧ loaded.queueOf 4 = [el 4] ∧ (el 4).fmt = 4 ∧ (loaded.valA 2).toNat % (8 / 8) = 0 ∧
    fmtOk (1 : Byte).toNat = true ∧ narrow (1 : Byte).toNat = false ∧ fmtWidth (1 : Byte).toNat = 8 ∧
    (∀ k, k < 64 → (el 4).lane 32 k ≠ 0xFFFFFFFF →
      (loaded.valA 2).toNat + (el 4).lane 32 k * 1 + 1 ≤ 0x1F0000 ∧ loaded.desc (((loaded.valA 2).toNat + (el 4).lane 32 k * 1) / 64) = ⟨1, 0x7F⟩) ∧
    (∃ k, k < 64 ∧ (el 4).lane 32 k ≠ 0xFFFFFFFF) ∧ (loaded.queueOf 0).length < 16 ∧ loaded.queueOf 5 = [el 1] := by
  refine ⟨by unfold State.ReadyA; decide +kernel, by decide +kernel, by decide +kernel, by decide +kernel, by decide +kernel,
    by decide +kernel, by decide +kernel, by decide +kernel, by decide +kernel, ⟨0, by decide, by decide +kernel⟩, by decide +kernel, by decide +kernel⟩
/-- A stream over two elements. -/
def stream : Stream := ⟨0x1000, [2, 1, 1, 1], [256, 0, 0, 0], 0, 2, ⟨0x1004, [0, 0, 0, 0, 0, 0], false, 1⟩⟩
theorem witness_ElementStreams :
    let s := acc.modA fun x => { x with a := [(1, 0x1EFE00), (2, 2), (6, 256)] }
    let far := acc.modA fun x => { x with a := [(1, 0x1FFF40), (2, 2), (6, 256)] }
    let low := acc.modA fun x => { x with a := [(1, 0), (2, 2), (6, -64)] }
    s.qbind 0 = none ∧ s.readA 1 = 0x1EFE00 ∧ s.readA 2 = 2 ∧ s.readA 6 = 256 ∧ 0x1EFE00 + 256 + s.vlanes * 4 ≤ 0x1F0000 ∧
    far.readA 1 = 0x1FFF40 ∧ 0x200000 < 0x1FFF40 + 256 + far.vlanes * 4 ∧ low.readA 6 = -64 ∧ (low.readA 6).toInt < 0 ∧
    acc.readA 5 = 0 := by decide +kernel
theorem witness_ElementStreams_elements :
    let s := acc.modA fun x => { x with qb := [(0, some (.stream stream)), (4, some (.stream stream)), (5, some .gath)], q := [(4, [el 1])] }
    let bad := s.setCore { s.core with tag := [(0x40, ⟨0x3F, 0⟩)] }
    (s.focus 0).qbind 0 = some (.stream stream) ∧ (s.focus 0).accessRuns = true ∧ ((s.focus 0).queueOf 0).length < 16 ∧
    (∀ j, j < (s.focus 0).vlanes * 4 / 64 → ((s.focus 0).desc (stream.addr 0 / 64 + j)).fmt = 0) ∧ fmtOk 0 = true ∧
    fmtOk ((bad.focus 0).desc (stream.addr 0 / 64 + 0)).fmt.toNat = false ∧
    (s.focus 0).qbind 4 = some (.stream stream) ∧ (s.focus 0).queueOf 4 = [el 1] ∧ s.qbind 5 = some .gath ∧ s.queueOf 4 ≠ [] ∧
    s.pending .v (s.u.eng .a).pos = [] := by decide +kernel
theorem witness_TileSlotsAndBuffers :
    let s := acc.modA fun x => { x with a := [(1, 0x1EC000), (2, 8 + 8 * 512), (3, 256 + 256 * 512 + 2 ^ 18), (4, 2), (5, 0x1000)] }
    s.ReadyA [1, 2] ∧ s.ReadyA [0, 0] ∧ s.ReadyA [5, 3] ∧ (s.valA 0).toNat = 0 ∧ (s.valA 1).toNat % 64 = 0 ∧ fmtOk (1 : BitVec 7).toNat = true ∧
    (s.valA 2).toNat < 2 ^ 19 ∧ (s.valA 3).toNat < 2 ^ 19 ∧
    (s.valA 2).toNat % 512 ∈ (List.range 33).map (8 * ·) ∧ (s.valA 2).toNat % 512 ≠ 0 ∧
    (s.valA 3).toNat / 512 % 512 ∈ (List.range 33).map (8 * ·) ∧ 0x1EC000 + 8 * (64 * ((8 + fmtCap 1 - 1) / fmtCap 1)) ≤ 0x1F0000 ∧
    0x1000 + (32 * 256 * fmtPlanes 1 + 2 * 256 * 256 + 63) / 64 * 64 ≤ 0x1F0000 ∧
    (s.view .a).buf 0 = none ∧ s.ReadyA [1, 4] ∧ 2 ≤ (s.valA 4).toNat ∧ (0 : BitVec 4).toNat ≤ 10 ∧ 0x1EC000 + 2 * (64 * 2 ^ 0) ≤ 0x1F0000 := by
  unfold State.ReadyA; decide +kernel
/-- A buffer of two slots under its first binding. -/
def buf2 : Buf := ⟨0x1000, 64, 2, 0⟩
/-- acc with that buffer, `filled` slots of it filled and `free` free. -/
def buffered (free filled : Nat) : State :=
  (State.inSh acc fun h => { h with cb := [(2, some buf2)] }).modA fun x => { x with cbc := [(2, some ⟨free, filled, 0, 0, 0⟩)] }
theorem witness_TileSlotsAndBuffers_take :
    ((buffered 2 0).view .a).buf 2 = some buf2 ∧ (buffered 2 0).cbCount 2 buf2 = some ⟨2, 0, 0, 0, 0⟩ ∧ (buffered 2 0).strideBound 5 = false ∧
    2 ≤ 2 + 0 + (buffered 2 0).fillsIn 2 buf2 ∧ (buffered 0 1).cbCount 2 buf2 = some ⟨0, 1, 0, 0, 0⟩ ∧
    0 + 1 + (buffered 0 1).fillsIn 2 buf2 < 2 ∧ ((buffered 0 1).view .a).buf 2 = some buf2 ∧ (buffered 2 0).bufGen 2 = 1 := by decide +kernel
/-- acc with two bound slots of 8 × 8 INT8 elements, planes or not, and descriptors of INT8 over both. -/
def slots (planeD planeX : Bool) : State :=
  State.inSh (acc.setCore { acc.core with tag := (List.range 80).map fun i => (64 + i, ⟨1, 0x7F⟩) }) fun h => { h with ts :=
    [(1, some ⟨0x1000, 8, 8, 1, planeD, if planeD then 8 else 0⟩), (2, some ⟨0x2000, 8, 8, 1, planeX, if planeX then 8 else 0⟩)] }
theorem witness_TileSlotsAndBuffers_planes :
    let d : Tile := ⟨0x1000, 8, 8, 1, true, 8⟩
    let x : Tile := ⟨0x2000, 8, 8, 1, false, 0⟩
    (slots true false).overA = false ∧ ((slots true false).view .a).tile 1 = some d ∧ ((slots true false).view .a).tile 2 = some x ∧
    d.base + d.bytes ≤ x.base ∧ x.cols ≤ 256 ∧ fmtOk 1 = true ∧ (∀ y ∈ x.blocks, ((slots true false).desc (y / 64)).fmt = x.fmt) ∧
    ((slots false true).view .a).tile 1 = some ⟨0x1000, 8, 8, 1, false, 0⟩ ∧
    ((slots false true).view .a).tile 2 = some ⟨0x2000, 8, 8, 1, true, 8⟩ ∧
    (∀ k, k < 8 → ∀ j, j < 8 → ((slots false true).getPlanes ⟨0x2000, 8, 8, 1, true, 8⟩ k j).2 % 2 ^ 15 ≠ 0x7FFF) := by decide +kernel


/-- A unit whose vector registers 1 to 3 hold INT32, 4 to 6 FP32, 7 packed ternary, 8 INT4O, 9 raw bits, 10 INT8; a mask; a latch. -/
def vec : State := (State.inSh (unit 0 [(1, 7)] []) fun h => { h with sh := [(0, { Shape.zero with afmt := 4, gvl := 64 })] }).modV fun v =>
  { v with v := [(1, ⟨true, el 4⟩), (2, ⟨true, el 4⟩), (3, ⟨true, el 4⟩), (4, ⟨true, el 0x14⟩), (5, ⟨true, el 0x14⟩),
      (6, ⟨true, el 0x14⟩), (7, ⟨true, el 9⟩), (8, ⟨true, el 8⟩), (10, ⟨true, el 1⟩)], mask := [5], lat := [el 4] }

theorem room_register (s : State) (vd : VDst) (h : dstQueue? vd = none) : s.Room vd := by
  intro q e; rw [h] at e; cases e
theorem witness_room : vec.Room 1 ∧ vec.Room 68 := by
  refine ⟨room_register _ _ (by decide), ?_⟩
  intro q e
  have : q = 7 := by revert e; simp [dstQueue?]; exact fun h => h.symm
  subst this; decide +kernel

theorem witness_VectorArithmetic :
    vec.ReadyV [1, 2] ∧ vec.ReadyV [4, 5] ∧ vec.ReadyV [3] ∧ vec.ReadyV [6] ∧ vec.ReadyV [64] ∧
    (vec.valV 2).fmt = (vec.valV 1).fmt ∧ fmtI (vec.valV 1).fmt.toNat = true ∧ (vec.valV 3).fmt = (vec.valV 1).fmt ∧
    (vec.valV 5).fmt = (vec.valV 4).fmt ∧ fmtF (vec.valV 4).fmt.toNat = true ∧ (vec.valV 6).fmt = (vec.valV 4).fmt ∧
    (3 : VDst).toNat < 64 ∧ (vec.oldV 3).fmt = (vec.valV 1).fmt ∧ fmtWidth (vec.valV 2).fmt.toNat = fmtWidth (vec.valV 1).fmt.toNat := by
  unfold State.ReadyV; decide +kernel
theorem witness_VectorConversions_cvt :
    vec.ReadyV [4] ∧ [1, 2, 3, 4, 5, 0x10, 0x11, 0x12, 0x13, 0x14, 0x15][(0 : BitVec 4).toNat]? = some 1 ∧
    fmtF (vec.valV 4).fmt.toNat = true ∧ (3 : BitVec 3).toNat < max (fmtWidth 0x14) (fmtWidth 1) / min (fmtWidth 0x14) (fmtWidth 1) ∧
    (∀ k, k < 64 → vec.active 0x14 k = true →
      (vec.oldV 10).laneScale 8 (3 * 64 + k) ≠ 255 ∧ (fmtI 1 = true → (vec.valV 4).laneScale 32 k ≠ 255)) := by
  unfold State.ReadyV; decide +kernel
theorem witness_VectorConversions_scale :
    vec.ReadyV [1] ∧ (∀ b ∈ (if vec.core.sys.full then (vec.valV 1).scales else (vec.valV 1).scales.take 2), b = 0xFF ∨
      (0 ≤ (b.toNat : Int) + (-127 : BitVec 8).toInt ∧ (b.toNat : Int) + (-127 : BitVec 8).toInt ≤ 254)) ∧
    fmtOk (0x15 : BitVec 7).toNat = true ∧ vec.ReadyX .v [1] := by
  unfold State.ReadyV State.ReadyX; decide +kernel
theorem witness_VectorConversions_ternary :
    vec.ReadyV [7] ∧ (4 : BitVec 3).toNat < 5 ∧ (vec.valV 7).fmt.toNat = 9 ∧
    (∀ k, k < 256 → vec.active 1 k = true → (vec.valV 7).scale ((4 * 256 + k) / 320) ≠ 255) ∧
    (∀ k, k < 256 → vec.active 1 k = true →
      ((vec.valV 7).data.getD (64 * ((4 * 256 + k) / 320) + (4 * 256 + k) % 320 / 5) 0).toNat < 243) := by
  unfold State.ReadyV; decide +kernel
theorem witness_VectorConversions_code :
    let s := vec.modV fun v => { v with v := [(7, ⟨true, { el 9 with data := 243 :: List.replicate 255 0 }⟩)] }
    s.ReadyV [7] ∧ (s.valV 7).fmt.toNat = 9 ∧ s.active 1 0 = true ∧ 243 ≤ ((s.valV 7).data.getD (64 * (0 / 320) + 0 % 320 / 5) 0).toNat ∧
    (∀ k, k < 256 → s.active 1 k = true → (s.valV 7).scale (k / 320) ≠ 255) := by
  unfold State.ReadyV; decide +kernel
theorem witness_VectorConversions_outlier :
    vec.ReadyV [8] ∧ [0x10, 0x12, 0x13, 0x14][(3 : BitVec 4).toNat]? = some 0x14 ∧ (vec.valV 8).fmt.toNat = 8 ∧
    (7 : BitVec 3).toNat < vec.vlanes * 8 / (vec.vlanes * 32 / fmtWidth 0x14) ∧
    (int4Block (((vec.valV 8).data.drop (64 * ((7 * 64 + 0) / 128))).take 64)).isSome = true ∧
    (int4Block (((vec.valV 8).data.drop (64 * ((7 * 64 + 63) / 128))).take 64)).isSome = true := by
  unfold State.ReadyV; decide +kernel
theorem witness_VectorConversions_pack :
    vec.ReadyV [10] ∧ (vec.valV 10).fmt.toNat ∈ [1, 2, 0x10, 0x11, 3, 0x12, 0x13] ∧
    (1 : BitVec 4).toNat < vec.vlanes * 4 / 64 * 128 / (vec.vlanes * 32 / 8) ∧ (4 : BitVec 4).toNat < vec.vlanes * 4 / 64 * 320 / (vec.vlanes * 32 / 8) ∧
    (∀ k, k < 256 → vec.active 1 k = true → (vec.valV 10).laneScale 8 k ≠ 255 ∧ (vec.oldV 8).scale ((256 + k) / 128) ≠ 255) := by
  unfold State.ReadyV; decide +kernel
theorem witness_VectorConversions_add :
    (3 : VDst).toNat < 64 ∧ vec.ReadyV [1, 10] ∧
    (∀ f ∈ [(vec.valV 1).fmt.toNat, (vec.valV 10).fmt.toNat, (vec.oldV 3).fmt.toNat], f ≠ 0 ∧ fmtOk f = true) ∧
    (vec.oldV 3).fmt.toNat ∈ [3, 4, 5] ∧ fmtI (vec.valV 1).fmt.toNat = fmtI (vec.oldV 3).fmt.toNat ∧
    fmtF (vec.valV 1).fmt.toNat = fmtF (vec.oldV 3).fmt.toNat ∧ fmtWidth (vec.valV 1).fmt.toNat ≤ fmtWidth (vec.oldV 3).fmt.toNat ∧
    fmtI (vec.valV 10).fmt.toNat = true := by
  unfold State.ReadyV; decide +kernel
theorem witness_VectorMovesAndMasks :
    vec.ReadyV [1] ∧ (-63 : BitVec 10).toInt.natAbs < vec.vlanes * 32 / 32 ∧ (63 : BitVec 8).toNat < vec.vlanes * 32 / 32 ∧
    vec.ReadyV [4, 1] ∧ fmtI (vec.valV 1).fmt.toNat = true ∧ fmtWidth (vec.valV 1).fmt.toNat = fmtWidth (vec.valV 4).fmt.toNat ∧
    (31 : CReg).toNat < 8 + (vec.view .v).frame ∧ vec.ReadyX .v [1] ∧ fmtOk (0x15 : BitVec 7).toNat = true ∧
    (0x15 : BitVec 7).toNat ∉ [8, 9, 10] ∧ fmtI vec.curShape.afmt.toNat = true ∧ fmtMin 4 ≤ immS (w := 17) ⟨none, 1⟩ ∧
    immS (w := 17) ⟨none, 1⟩ ≤ fmtMax 4 ∧ vec.ReadyV [1, 2] ∧ (vec.valV 2).fmt = (vec.valV 1).fmt ∧ (5 : BitVec 3).toNat ≤ 5 := by
  unfold State.ReadyV State.ReadyX; decide +kernel
theorem witness_VectorMovesAndMasks_stack :
    vec.core.v.mask.length < 16 ∧ 16 ≤ (vec.modV fun v => { v with mask := List.replicate 16 1 }).core.v.mask.length ∧ vec.core.v.mask = [5] ∧
    (vec.modV fun v => { v with mask := [] }).core.v.mask = [] ∧
    (15 : BitVec 4).toNat < (vec.modV fun v => { v with mask := List.replicate 16 1 }).core.v.mask.length ∧
    (vec.modV fun v => { v with mask := [] }).core.v.mask.length ≤ (0 : BitVec 4).toNat := by decide +kernel
theorem witness_VectorMovesAndMasks_read :
    (vec.modV fun v => { v with mask := List.replicate 16 1 }).core.v.mask[15]? = some 1 ∧ (∀ top ∈ vec.core.v.mask.head?, top ≠ 0) ∧
    (vec.modV fun v => { v with mask := [0, 1] }).core.v.mask = 0 :: [1] ∧ immS (w := 24) ⟨none, 0⟩ ≤ 0 ∧ 0 < immS (w := 24) ⟨none, 1⟩ := by
  refine ⟨rfl, ?_, rfl, by decide, by decide⟩
  intro top h
  have e : vec.core.v.mask.head? = some 5 := rfl
  rw [e] at h; cases h; decide
theorem witness_VectorMovesAndMasks_float :
    let s := State.inSh vec fun h => { h with sh := [(0, { Shape.zero with afmt := 0x14, gvl := 64 })] }
    fmtF s.curShape.afmt.toNat = true ∧ vec.ReadyV [4, 5] ∧ (vec.valV 5).fmt = (vec.valV 4).fmt ∧ fmtF (vec.valV 4).fmt.toNat = true ∧
    (6 : BitVec 3).toNat ≤ 6 := by
  unfold State.ReadyV; decide +kernel

/-- A unit that holds quadrant 0. -/
def leased : State :=
  let s := vec.modMat fun m => { m with lease := 1 }
  s.setLantern (s.lantern.setQuad 0 { Quad.reset with holder := some 0, owner := 0 })
/-- Register 1 of that unit parked in row 127, slot 0. -/
def parked (sum : Word) : State :=
  let s := leased.modV fun v => { v with park := [(1, some ⟨0, 127, 0⟩)] }
  s.setLantern (s.lantern.setQuad 0 { s.lantern.quad 0 with
    parked := [(508, some ⟨0, some 1, 0, 0, 1, 4, [0x7F, 0x7F, 0x7F, 0x7F]⟩)], sw := if sum = 0 then [] else [(127, sum)] })
theorem witness_ParkedAndPushedRegisters :
    vec.parkAt (physV vec.rb 1) = none ∧ vec.core.c.mat.lost = false ∧ vec.core.c.mat.lease = 0 ∧
    (vec.modMat fun m => { m with lost := true }).core.c.mat.lost = true ∧
    leased.parkAt (physV leased.rb 1) = none ∧ leased.core.c.mat.lost = false ∧ leased.core.c.mat.lease ≠ 0 ∧ leased.parkSlot.isSome = true ∧
    (parked 0).parkAt (physV (parked 0).rb 1) = some ⟨0, 127, 0⟩ ∧ ((parked 0).lantern.quad 0).rowCheck 127 = .clean ∧
    (parked 1).parkAt (physV (parked 1).rb 1) = some ⟨0, 127, 0⟩ ∧ ((parked 1).lantern.quad 0).rowCheck 127 = .bad := by decide +kernel
/-- The same with one bit of the parked row flipped. -/
def flipped : State :=
  (parked 0).setLantern ((parked 0).lantern.setQuad 0 { (parked 0).lantern.quad 0 with acc := [(128 * 127, 1)] })
theorem witness_ParkedAndPushedRegisters_flip :
    flipped.parkAt (physV flipped.rb 1) = some ⟨0, 127, 0⟩ ∧ (flipped.lantern.quad 0).rowCheck 127 = .flip 0 0 := by decide +kernel
theorem witness_ParkedAndPushedRegisters_stack :
    let low := State.inSh vec fun h => { h with vsp := 0x1F0000 + 2 * 264 }
    let high := State.inSh vec fun h => { h with vsp := 0x1F8000 - 2 * 264 }
    (1 : BitVec 6).toNat ≤ (2 : BitVec 6).toNat ∧ (low.view .v).vsp < 0x1F0000 + 3 * (low.vlanes * 4 + 8) ∧
    0x1F0000 + 2 * (low.vlanes * 4 + 8) ≤ (low.view .v).vsp ∧ 0x1F8000 < (high.view .v).vsp + 3 * (high.vlanes * 4 + 8) ∧
    (high.view .v).vsp + 2 * (high.vlanes * 4 + 8) ≤ 0x1F8000 ∧
    (∀ m, m < 2 → (low.readV (physV low.rb (1 + m))).data.length = 256 ∧ (low.readV (physV low.rb (1 + m))).scales.length = 4) ∧
    (∀ m, m < 2 → fmtOk (high.unpackV (Memory.reads high.core.spad ((high.view .v).vsp + m * 264) 264)).fmt.toNat = true) := by decide +kernel

/-- 1000 lies above the range of e^x in FP32: .rup gives infinity, with OF and NX (03 R121, R114). -/
theorem test_exp_range : floatFn .exp 0x14 3 0x447A0000 = (0x7F800000, 5) := by decide +kernel

/-- A unit whose core waits for quadrant 3. -/
def waits : State :=
  let s := vec.modMat fun m => { m with want := 8 }
  s.setLantern { s.lantern with waiting := [0] }
/-- A lease at its limit of commands, with core 1 waiting for the same quadrant or not. -/
def due (want : Bool) : State :=
  let s := leased.modMat fun m => { m with cmds := 16 }
  if want then
    let k := s.coreAt 1
    (s.setCoreAt 1 { k with c := { k.c with mat := { k.c.mat with want := 1 } } }).setLantern { s.lantern with waiting := [1] }
  else s
/-- Quadrant 1 is held by core 1. -/
def taken : State := vec.setLantern (vec.lantern.setQuad 1 { Quad.reset with holder := some 1 })

/-- The leased quadrant with rows marked bad, or with its clock stopped. -/
def marked (bad : List Nat) (stopped : Bool) : State :=
  leased.setLantern (leased.lantern.setQuad 0 { leased.lantern.quad 0 with bad := bad, stopped := stopped })

theorem witness_Leases :
    vec.token 0 < 63 ∧ (7 : BitVec 4).toNat ∉ leaseMasks ∧ vec.core.c.mat.want = 0 ∧
    ((15 : BitVec 4).toNat ∈ leaseMasks ∧ ∀ x ∈ leaseQuads 15, hasQuad leased.liveQuads x = true) ∧
    leased.core.c.mat.want = 0 ∧ leased.matIdle = true ∧ leased.core.c.mat.lease ≠ 0 ∧ leased.core.c.mat.lease ≠ 15 ∧
    ((1 : BitVec 4).toNat ∈ leaseMasks ∧ leased.core.c.mat.lease = 1) ∧
    vec.matIdle = true ∧ vec.core.c.mat.lease = 0 ∧ vec.core.c.mat.lost = false ∧ vec.lantern.waiting = [] ∧
    vec.lantern.lcStopped = false ∧ vec.lantern.rotWant = none ∧
    (∀ x ∈ leaseQuads 15, (vec.lantern.quad x).holder = none ∧ (vec.lantern.quad x).held = false) ∧
    leased.quadStopped = false ∧ (∀ x ∈ leaseQuads 1, (leased.lantern.quad x).bad = []) ∧
    (marked [] true).quadStopped = true ∧ (marked [] true).core.c.mat.lease = 1 ∧
    (marked [3] false).quadStopped = false ∧ (∃ x ∈ leaseQuads 1, ((marked [3] false).lantern.quad x).bad ≠ []) ∧
    (marked [3] false).matIdle = true ∧ taken.matIdle = true ∧ taken.core.c.mat.lease = 0 ∧ taken.core.c.mat.want = 0 ∧
    (∃ x ∈ leaseQuads 15, (taken.lantern.quad x).holder ≠ none) := by decide +kernel
/-- leased with a full queue. -/
def fullQueue : State := leased.modMat fun m => { m with mq := List.replicate 16 ⟨.mclr 0 none, ⟨0, [], false, 1⟩, 0, none, none, none, Shape.zero, 0, 0, 0⟩ }
theorem witness_Leases_free :
    leased.core.c.mat.mq.length < 16 ∧ leased.core.c.mat.mq = [] ∧ leased.core.c.mat.lease ≠ 0 ∧
    16 ≤ fullQueue.core.c.mat.mq.length ∧ fullQueue.core.c.mat.lease ≠ 0 := by decide +kernel
theorem witness_Leases_arbiter :
    ((vec.setLantern { vec.lantern with lcStopped := true }).lanternAt 0).lcStopped = true ∧
    ((taken.lanternAt 0).quad 1).holder = some 1 ∧ (0 : Nat) < 4 ∧ (waits.lanternAt 0).lcStopped = false ∧
    (waits.lanternAt 0).waiting = [0] ∧ (waits.lanternAt 0).rotWant = none ∧
    (waits.lanternAt 0).grantable (waits.coreAt (4 * 0 + 0)).c.mat.wanted 0 = true ∧
    (leased.focus 0).limitReached = false ∧ ((due false).focus 0).limitReached = true ∧ ((due false).focus 0).contended = false ∧
    ((due true).focus 0).limitReached = true ∧ ((due true).focus 0).contended = true ∧ ((due true).focus 0).product = none ∧
    ((due true).focus 0).core.c.mat.owed = 0 ∧ (((due true).modMat fun m => { m with owed := 1 }).focus 0).core.c.mat.owed ≠ 0 ∧
    (((due true).modMat fun m => { m with owed := 1 }).focus 0).limitReached = true ∧
    (((due true).modMat fun m => { m with owed := 1 }).focus 0).contended = true ∧
    0 % 4 ∉ ((due true).focus 0).lantern.waiting ∧
    (∀ x ∈ leaseQuads ((due true).focus 0).core.c.mat.lease, (((due true).focus 0).lantern.quad x).stopped = false) := by decide +kernel

/-- A unit that holds quadrant 0, with slots 1 (elements) and 2 (planes) of 8 × 8, a shape of 8 × 8 × 8 and INT8 or FP32. -/
def ready8 (f afmt : Byte) (b1 : Nat) : State :=
  let s := leased.setCore { leased.core with tag := (List.range 160).map fun i => (64 + i, ⟨f, 0x7F⟩) }
  State.inSh s fun h => { h with
    sh := [(0, ⟨7, 7, 8, afmt, 8, 8, 8, 64⟩), (1, ⟨8, 8, 8, afmt, 8, 8, 8, 64⟩)]
    ts := [(1, some ⟨b1, 8, 8, f, false, 0⟩), (2, some ⟨0x2000, 8, 8, 1, true, 8⟩), (3, some ⟨0x3000, 8, 8, f, false, 0⟩)] }
/-- Slots 1 and 2. -/
def tile1 : Tile := ⟨0x1000, 8, 8, 1, false, 0⟩
def tile2 : Tile := ⟨0x2000, 8, 8, 1, true, 8⟩
/-- The shape of the products. -/
def shape8 (afmt : Byte) : Shape := ⟨8, 8, 8, afmt, 8, 8, 8, 64⟩
/-- A record of an INT8 product over those slots. -/
def rcd8 : Rcd := ⟨true, 0x1FFFF, 0, laneWord (.mma 1 2 1 0 none), 8, 8, 8, 8, some tile1, some tile2, 8, 8, 8, 4⟩
/-- That product in progress. -/
def running : State :=
  let s := ready8 1 4 0x1000
  s.setLantern (s.lantern.setQuad 0 { s.lantern.quad 0 with rcd := rcd8 })
theorem witness_MatrixIssue :
    (ready8 1 4 0x1000).core.c.mat.mq.length < 16 ∧ (ready8 1 4 0x1000).token 0 < 63 ∧ (ready8 1 4 0x1000).ReadyX .m [0, 0, 0] ∧
    running.core.c.mat.mq.length < 16 ∧ running.ReadyX .m [0, 0, 0] ∧ running.product ≠ none ∧
    (ready8 1 4 0x1000).product = none ∧ (ready8 1 4 0x1000).core.c.mat.mq = [] ∧ (ready8 1 4 0x1000).core.c.mat.lost = false ∧
    (ready8 1 4 0x1000).leaseDue = false ∧
    gives ((ready8 1 4 0x1000).walkerRuns ((ready8 1 4 0x1000).laneAt .m).ovr) ⟨⟩ = true ∧
    gives (vec.walkerRuns (vec.laneAt .m).ovr) ⟨⟩ = true ∧ vec.ReadyX .m [0, 0, 0] ∧ vec.product = none ∧ vec.core.c.mat.lease = 0 ∧
    vec.core.c.mat.mq = [] ∧ vec.leaseDue = false ∧ vec.core.c.pend = none := by
  unfold State.ReadyX; decide +kernel

/-- The state with a first product over one step of one element, whose side entry says 2^0. -/
def first : State :=
  let s := State.inSh (ready8 1 4 0x1000) fun h => { h with sh := [(1, ⟨1, 1, 1, 4, 8, 8, 1, 64⟩)] }
  s.setCore { s.core with spad := [(0x2801, 0x20)] }
theorem witness_MatrixIssue_first :
    first.core.c.mat.mq.length < 16 ∧ first.core.c.mat.lease ≠ 0 ∧ first.product = none ∧ first.leaseDue = false ∧
    (∀ x ∈ leaseQuads first.core.c.mat.lease, (first.lantern.quad x).bad = []) ∧
    ((first.view .m).shape 1).gm.toNat ≤ first.capM ∧ ((first.view .m).shape 1).gn.toNat ≤ capN first.core.c.mat.lease ∧
    (first.view .m).tile 1 = some tile1 ∧ (first.view .m).tile 2 = some tile2 ∧ tile1.plane = false ∧ tile2.plane = true := by
  decide +kernel
theorem witness_MatrixIssue_checks :
    first.prodChecks (prodOf .mma 0 ((first.view .m).shape 1) tile1 tile2) (first.laneAt .m).ovr = .ok ⟨⟩ :=
  of_gives (by decide +kernel)

/-- The product in progress, of one step. -/
def one : Rcd := { rcd8 with gk := 1, rk := 1, g := 2 }
def onward : State := first.setLantern (first.lantern.setQuad 0 { first.lantern.quad 0 with rcd := one })
theorem witness_MatrixCompletion_product :
    (onward.focus 0).segRuns 0 = true ∧ (onward.focus 0).trapOpen = false ∧ (onward.focus 0).core.c.mat.lease ∈ leaseMasks ∧
    (onward.focus 0).quadStopped = false ∧ (onward.focus 0).product = some one ∧
    one.prod? = some ⟨.mma, 0, tile1, tile2, 4, 8, 8, 8, 8, 1, 2⟩ ∧ (onward.focus 0).core.c.mat.mq = [] ∧ one.beat = 0x1FFFF ∧
    (∀ x, x < 4 → Sparse.get none (onward.focus 0).core.c.mat.flip x = none ∧ ((onward.focus 0).lantern.quad x).armed = none ∧
      ((onward.focus 0).lantern.quad x).cells = [] ∧ ((onward.focus 0).lantern.quad x).parked = []) ∧
    0 < 2 ∧ 0 < 1 ∧ 8 ≤ geoH (onward.focus 0).core.c.mat.lease ∧ 8 ≤ geoW (onward.focus 0).core.c.mat.lease := by
  decide +kernel

/-- A command of a lane at 0x1004. -/
def cmd (i : Instr) (a : Option Tile) (h : Shape) (e : Word) : MCmd := ⟨i, ⟨0x1004, [], false, 1⟩, laneWord i, a, none, none, h, 0, e, 0⟩
/-- A state with one command queued. -/
def queued (s : State) (c : MCmd) : State := s.modMat fun m => { m with mq := [c] }
/-- What every completion assumes. -/
def completes (s : State) (c : MCmd) : Bool :=
  let t := (queued s c).focus 0
  t.segRuns 0 && !t.trapOpen && leaseMasks.contains t.core.c.mat.lease && !t.quadStopped && t.product.isNone && t.core.c.mat.mq == [c] &&
    !t.core.c.mat.lost && !t.leaseDue && !c.lane.ovr && ((leaseQuads t.core.c.mat.lease).all fun x => (t.lantern.quad x).bad.isEmpty) &&
    decide (c.shape.gm.toNat ≤ t.capM) && decide (c.shape.gn.toNat ≤ capN t.core.c.mat.lease)
/-- The shape of an 8 × 8 drain, with room for its checksums. -/
def shapeCk : Shape := ⟨7, 7, 8, 0x14, 8, 8, 8, 64⟩
theorem witness_MatrixCompletion :
    completes leased (cmd (.mseed 15 0 (some 1)) none (shape8 4) 0) = true ∧ (15 : BitVec 4) ≠ 0 ∧
    (∀ x ∈ leaseQuads 15, hasQuad (leased.focus 0).liveQuads x = true) ∧
    completes leased (cmd (.mclr 1 none) none (shape8 4) 0) = true ∧ completes leased (cmd (.mclrAll 1 (some 0)) none (shape8 4) 0) = true ∧
    (∀ x, x < 4 → (leased.lantern.quad x).parked = []) := by decide +kernel
/-- A state with MFREE of a mask at the head of its queue. -/
def freeing (s : State) (mask : BitVec 4) : State := queued s (cmd (.mfree mask (some 0)) none (shape8 4) 0)
theorem witness_Leases_freed :
    (∀ s ∈ [freeing leased 1, freeing leased 3, freeing vec 1, freeing (marked [] true) 1, freeing (marked [3] false) 1],
      let t := s.focus 0
      t.segRuns 0 = true ∧ t.trapOpen = false ∧ t.product = none ∧ t.core.c.mat.mq.length = 1) ∧
    ((freeing leased 1).focus 0).quadStopped = false ∧ ((freeing leased 1).focus 0).core.c.mat.lease = 1 ∧
    ((freeing (marked [] true) 1).focus 0).quadStopped = true ∧ ((freeing vec 1).focus 0).core.c.mat.lease = 0 ∧
    ((freeing vec 1).focus 0).quadStopped = false ∧
    (∀ x ∈ leaseQuads 1, (((freeing leased 1).focus 0).lantern.quad x).holder = some (0 % 4) ∧
      (((freeing leased 1).focus 0).lantern.quad x).bad = [] ∧ (((freeing leased 1).focus 0).lantern.quad x).armed = none) ∧
    ((freeing (marked [3] false) 1).focus 0).quadStopped = false ∧ ((freeing (marked [3] false) 1).focus 0).core.c.mat.lease = 1 ∧
    (∃ x ∈ leaseQuads 1, (((freeing (marked [3] false) 1).focus 0).lantern.quad x).holder = some (0 % 4) ∧
      (((freeing (marked [3] false) 1).focus 0).lantern.quad x).bad ≠ []) := by decide +kernel
theorem witness_MatrixCompletion_load :
    completes (ready8 4 4 0x1000) (cmd (.mldacc 1 1 none) (some { tile1 with fmt := 4 }) (shape8 4) 0) = true ∧
    min (shape8 4).rm.toNat (shape8 4).gm.toNat ≤ 8 ∧
    (∀ b ∈ ({ tile1 with fmt := 4 } : Tile).blocksOf 8 8, ((ready8 4 4 0x1000).desc (b / 64)) = ⟨4, 0x7F⟩) := by decide +kernel
theorem witness_MatrixCompletion_drain :
    completes (ready8 1 4 0x1000) (cmd (.mstacc 1 1 5 none) (some tile1) (shape8 4) 0) = true ∧ (5 : BitVec 3).toNat ≤ 5 ∧
    tile1.plane = false ∧ fmtI 1 = true ∧ fmtI 4 = true ∧
    (∀ b ∈ tile1.blocksOf 8 8, ((ready8 1 4 0x1000).desc (b / 64)).scale ≠ 0xFF) ∧
    (∀ y ∈ touched 1 8 8, ((ready8 1 4 0x1000).lantern.quad y.1).rowCheck y.2 = .clean) ∧
    completes (ready8 0x14 0x14 0x1000) (cmd (.mchk 1 0 5 none) (some { tile1 with fmt := 0x14 }) shapeCk 0) = true ∧
    shapeCk.rm.toNat ≤ 8 ∧ (shapeCk.rm.toNat + 1 + 7) / 8 * 8 ≤ (ready8 0x14 0x14 0x1000).capM ∧
    (∀ y ∈ touched 1 8 8, ((ready8 0x14 0x14 0x1000).lantern.quad y.1).rowCheck y.2 = .clean) := by decide +kernel

/-- Whether a computation answers a value with a property. -/
def answers {ε α : Type} (x : Except ε α) (p : α → Bool) : Bool :=
  match x with
  | .ok z => p z
  | .error _ => false

theorem of_answers {ε α : Type} {x : Except ε α} {p : α → Bool} (h : answers x p = true) : ∃ y, x = .ok y ∧ p y = true := by
  cases x with
  | ok z => exact ⟨z, rfl, h⟩
  | error => cases h

/-- A valid handle of key 5 and two dimensions: 64 × 1 elements, a row a block. -/
def hd : BitVec 256 := BitVec.ofNat 256 (0x10000 + 2 ^ 56 + 2 ^ 59 + 5 * 2 ^ 60 + 63 * 2 ^ 72 + 2 ^ 152)
/-- A sparse one of 8 × 8, its mask after four blocks. -/
def sparse : BitVec 256 := BitVec.ofNat 256 (0x10000 + 2 ^ 56 + 2 ^ 58 + 2 ^ 59 + 5 * 2 ^ 60 + 7 * 2 ^ 72 + 7 * 2 ^ 92 + 4 * 2 ^ 232)
/-- A slot of two rows of 64 INT8 elements. -/
def row2 : Tile := ⟨0x1000, 2, 64, 1, false, 0⟩
/-- E3 of a box of two rows of 64 elements, the second outside the tensor. -/
def box2 : Word := 2 + 64 * 2 ^ 16 + 2 ^ 32
/-- A unit of a launch in a page of a target, with key 5 and one INT8 block of memory with a mask of one bit. -/
def copies (target : Nat) : State := ((staged target).modMem fun m =>
    { (m.put (.installed 3) 0x10100 (natLe 64 1)) with desc := [(0x400, ⟨1, 0x7F⟩)] }).modDev fun d => { d with
  sec := { d.sec with keys := [⟨5, 0, .installed 3, 0⟩] }, launches := d.launches.map fun l => { l with unstaged := true } }
/-- That unit with one command in its queue. -/
def copying (target : Nat) (c : XCmd) : State := (copies target).modX fun x => { x with xq := [c] }
/-- A command with a slot, a handle and three control values. -/
def xcmd (i : Instr) (t : Option Tile) (h : BitVec 256) (e1 e2 e3 : Word) : XCmd :=
  ⟨i, ⟨0x1004, [], false, 1⟩, t, none, none, h, e1, e2, e3, 0, false, 0, 0, false⟩
/-- What every completion assumes, and that the access segment runs. -/
def acts (target : Nat) (c : XCmd) : Bool :=
  let t := (copying target c).focus 0
  decide (t.core.sys.shifting % 2 = 0) && t.segRuns 3 && t.segRuns 1 && !t.trapOpen && t.core.x.xq == [c] && t.core.c.pend.isNone

theorem witness_CopyIssue :
    (copies 0).ReadyX .x [0, 0, 0, 0] ∧ (copies 0).core.x.xq.length < 16 ∧ (copies 0).token 15 < 63 ∧
    ((copies 0).modX fun x => { x with xq := List.replicate 16 (xcmd (.xfence .core none none) none 0 0 0 0) }).ReadyX .x [0, 0, 0, 0] ∧
    16 ≤ ((copies 0).modX fun x => { x with xq := List.replicate 16 (xcmd (.xfence .core none none) none 0 0 0 0) }).core.x.xq.length ∧
    (let s := State.inSh (State.inU (copies 0) fun u => { u with sh := { u.sh with xg := [(1, 1)] } }) fun g =>
      { g with ts := [(1, some ⟨0x1000, 1, 16, 4, false, 0⟩)], th := [(2, hd)] }
     ((s.view .x).tile 1).isSome = true ∧ 1 ≤ ((s.view .x).x 1).toNat ∧ ((s.view .x).x 1).toNat ≤ 1 * 16 ∧
     thValid ((s.view .x).handle 2) = true ∧ thSparse ((s.view .x).handle 2) = false ∧
     s.copyKey s.u.world (thKey ((s.view .x).handle 2)) = some (.installed 3) ∧ s.qbind 0 = none) := by
  unfold State.ReadyX; decide +kernel

/-- copies with an INT8 slot 1, a TERN5 slot 3, buffer 2 and x3 = the box of two rows, x4 = a reserved format code, x5 = a start. -/
def issuing : State := State.inSh (copies 0) fun g => { g with
  xg := [(3, box2), (4, 0x3F00000000), (5, 1)], th := [(2, hd)]
  ts := [(1, some ⟨0x1000, 1, 16, 4, false, 0⟩), (3, some ⟨0x1000, 8, 8, 9, false, 0⟩)], cb := [(2, some ⟨0x1000, 128, 2, 0⟩)] }
theorem witness_CopyIssue_checks :
    issuing.ReadyX .x [0, 5, 3, 0] ∧ issuing.core.x.xq.length < 16 ∧
    (∀ x ∈ (issuing.view .x).tile 1, packed x.fmt.toNat = false) ∧ (∃ x, (issuing.view .x).tile 3 = some x ∧ packed x.fmt.toNat = true) ∧
    (∃ r, issuing.fillBox ⟨.xcb 2 2 none none 0 0 3 0, issuing.laneAt .x, none, none, (issuing.view .x).buf 2, (issuing.view .x).handle 2,
      0, 0, box2, 0, false, 0, 0, false⟩ = .ok r) ∧ (issuing.view .x).buf 1 = none ∧
    (let fc (e : Word) := e.toNat / 2 ^ 32 % 128
     fmtOk (fc box2) = true ∧ fmtOk (fc 0x3F00000000) = false ∧
     (boxOf (fmtCap (fc box2)) 0 0 box2 0).aligned hd = true ∧ (boxOf (fmtCap (fc box2)) 1 0 box2 0).aligned hd = false) := by
  refine ⟨by unfold State.ReadyX; decide +kernel, by decide +kernel, by decide +kernel, ⟨_, rfl, by decide⟩, ?_, by decide +kernel, by decide +kernel⟩
  exact (of_answers (p := fun _ => true) (by decide +kernel)).imp fun _ h => h.1

theorem witness_CopyCompletion_local :
    acts 0 (xcmd (.xfence .sys (some 1) (some 2)) none 0 0 0 0) = true ∧
    acts 0 { xcmd (.xcopySs 1 2 none none) (some row2) 0 0 0 0 with t2 := some { row2 with base := 0x1080 } } = true ∧
    row2.base + row2.bytes ≤ ({ row2 with base := 0x1080 } : Tile).base ∧
    row2.base % 64 = 0 ∧ ({ row2 with base := 0x1080 } : Tile).base % 64 = 0 := by decide +kernel

/-- Segment X stopped, or segment C shifting. -/
theorem witness_CopyCompletion_waits :
    (((copies 0).modSys fun y => { y with stopped := 8 }).focus 0).segRuns 3 = false ∧
    (((copies 0).modSys fun y => { y with shifting := 1 }).focus 0).core.sys.shifting % 2 = 1 := by decide +kernel

/-- The command of a load of two rows. -/
def ldCmd : XCmd := xcmd (.xcopyLd 1 2 none (some 3) 0 0 0 0) (some row2) hd 0 0 box2
theorem witness_CopyCompletion_load :
    acts 0 ldCmd = true ∧
    (∃ y, ((copying 0 ldCmd).focus 0).copyBox ldCmd row2 = .ok y ∧
      (answers (((copying 0 ldCmd).focus 0).readBox y.1 hd y.2) fun z =>
        z.2.all (fun w => match w.2 with | some v => v.1.length == 64 | none => true) && z.2.length == 2 &&
        z.2.any fun w => w.2.isNone) = true) :=
  ⟨by decide +kernel, of_answers (by decide +kernel)⟩

/-- The command of a store of two rows. -/
def stCmd : XCmd := { ldCmd with instr := .xcopySt 1 2 none (some 3) 0 0 0 0 }
theorem witness_CopyCompletion_store :
    acts 0 stCmd = true ∧
    (∃ y, ((copying 0 stCmd).focus 0).copyBox stCmd row2 = .ok y ∧
      (decide (y.2.places.filter (fun p => y.2.inside hd p.1 p.2) = [(0, 0)] ∧ y.2.addr hd 0 0 = 0x10000)) = true) ∧
    ((copying 0 stCmd).focus 0).translate ((copying 0 stCmd).focus 0).u.world 0x10000 .write =
      .ok ((copying 0 stCmd).focus 0, entry 0, 0x10000) ∧
    ((copying 0 stCmd).focus 0).staging = none ∧ (entry 0).unprot = true ∧ ((copying 0 stCmd).focus 0).Intact 0x10000 64 := by
  refine ⟨by decide +kernel, of_answers (by decide +kernel), of_gives (by decide +kernel), by decide +kernel, by decide, ?_⟩
  unfold State.Intact; decide +kernel

/-- The command that expands the sparse tile. -/
def spCmd : XCmd := xcmd (.xcopys 1 2 none none 0 0) (some tile1) sparse 0 0 0
theorem witness_CopyCompletion_sparse :
    acts 0 spCmd = true ∧ thValid sparse = true ∧ thSparse sparse = true ∧ thTile sparse = (8, 8) ∧
    ((copying 0 spCmd).focus 0).copyKey 0 (thKey sparse) = some (.installed 3) ∧ 0 * 8 < thExt sparse 1 ∧ 0 * 8 < thExt sparse 0 ∧
    (∃ y, ((copying 0 spCmd).focus 0).readRun (.installed 3) (thBase sparse + 64 * thField sparse 14 + 0 * 64) (64 / 64) = .ok y ∧
      (decide (((List.range 64).filter (bitOf (y.2.flatMap Prod.fst))).length = 1) && answers
        (y.1.readRun (.installed 3) (thBase sparse + 64 * 0 * thStride sparse 1) ((1 + fmtCap 1 - 1) / fmtCap 1)) fun z =>
        decide (z.2.length = 1) && z.2.all fun w => w.2 == ⟨1, 0x7F⟩) = true) :=
  ⟨by decide +kernel, by decide +kernel, by decide +kernel, by decide +kernel, by decide +kernel, by decide +kernel, by decide +kernel,
    of_answers (by decide +kernel)⟩

/-- The fill of a buffer of two slots, begun or not. -/
def cbCmd (begun : Bool) : XCmd := { xcmd (.xcb 2 2 none none 0 0 0 0) none hd 0 0 box2 with
  buf := some ⟨0x1000, 128, 2, 0⟩, begun := begun, slot := if begun then 1 else 0 }
/-- Its counters. -/
def filling (begun : Bool) (free : Nat) : State :=
  (copying 0 (cbCmd begun)).modA fun x => { x with cbc := [(2, some ⟨free, 1, 1, 0, 0⟩)] }
theorem witness_CopyCompletion_fill :
    acts 0 (cbCmd true) = true ∧ acts 0 (cbCmd false) = true ∧
    (∀ b ∈ [true, false], ∃ y, ((filling b 0).focus 0).fillBox (cbCmd b) = .ok y ∧ (answers
      (((filling b 0).focus 0).readBox y.2.1 hd y.2.2) fun z => z.2.all fun w => match w.2 with
        | some v => v.1.length == 64 | none => true) = true) ∧
    ((filling true 0).focus 0).cbCount 2 ⟨0x1000, 128, 2, 0⟩ = some ⟨0, 1, 1, 0, 0⟩ ∧ ((filling false 1).focus 0).cbCount 2 ⟨0x1000, 128, 2, 0⟩ = some ⟨1, 1, 1, 0, 0⟩ := by
  refine ⟨by decide +kernel, by decide +kernel, ?_, by decide +kernel, by decide +kernel⟩
  intro b h
  have : b = true ∨ b = false := by cases b <;> decide
  rcases this with rfl | rfl <;> exact of_answers (by decide +kernel)

/-- A slot of one row of 64 INT8 elements. -/
def row1 : Tile := ⟨0x1000, 1, 64, 1, false, 0⟩
/-- A stream in under key 5. -/
def inCmd : XCmd := xcmd (.xhost 1 false none none 0 0 0) (some row1) 0 0x10000 0x12000 5
theorem witness_CopyCompletion_host :
    acts 1 inCmd = true ∧ ((copying 1 inCmd).focus 0).linkKey 5 = .ok (.installed 3) ∧
    (∃ y, ((copying 1 inCmd).focus 0).window 0x10000 (streamSpan row1.bytes) 1 .read .hostWindow = .ok y ∧
      (answers (y.1.window 0x12000 (streamSpan (row1.bytes / 32)) 1 .read .hostWindow) fun _ => true) = true) :=
  ⟨by decide +kernel, of_gives (by decide +kernel), of_answers (by decide +kernel)⟩
/-- The window traps: an address at or above 2^56, one that nothing maps, one of device memory. -/
theorem witness_CopyCompletion_window : ∀ b ∈ [(2 ^ 56, 0), (0x5000000, 0), (0x10000, 0)],
    let c : XCmd := { inCmd with e1 := BitVec.ofNat 64 b.1 }
    let d : XCmd := { xcmd (.xpeer 1 true none none 0) (some row1) 0 0 0 0 with e1 := BitVec.ofNat 64 b.1 }
    let t := (copying b.2 c).focus 0
    let u := (copying b.2 d).focus 0
    acts b.2 c = true ∧ acts b.2 d = true ∧ gives (t.linkKey 5) (.installed 3) = true ∧ gives u.groupHandle 0xFFF = true ∧ c.e2.toNat % 64 = 0 ∧
    0 < row1.bytes ∧ c.e1.toNat % 64 = 0 ∧
    (2 ^ 56 ≤ c.e1.toNat ∨ (match t.translate t.u.world c.e1.toNat .read with
      | .error (.trap .notMapped v _) => v == c.e1
      | .ok (_, e, _) => e.target != 1 && e.target != 2
      | _ => false) = true) := by decide +kernel
/-- A group to a peer. -/
def peerCmd : XCmd := xcmd (.xpeer 1 true none none 0) (some row1) 0 0x10000 0 0
theorem witness_CopyCompletion_peer :
    acts 2 peerCmd = true ∧ ((copying 2 peerCmd).focus 0).groupHandle = .ok 0xFFF ∧ row1.bytes = 64 ∧
    ((copying 2 peerCmd).focus 0).window 0x10000 64 2 .write .peerWindow = .ok ((copying 2 peerCmd).focus 0, [0x10000]) ∧
    ((copying 2 peerCmd).focus 0).onRoster 0x10000 = .ok ⟨⟩ :=
  ⟨by decide +kernel, of_gives (by decide +kernel), by decide +kernel, of_gives (by decide +kernel), of_gives (by decide +kernel)⟩
/-- A collective of one member. -/
def collCmd : XCmd := { xcmd (.xcoll 1 0 0 none none 0 0) (some row2) 0 0 128 7 with e4 := 9, begun := true, slot := 1 }
theorem witness_CopyCompletion_coll :
    acts 0 collCmd = true ∧ ((copying 0 collCmd).focus 0).members collCmd = some [(0, collCmd)] ∧ fmtI row2.fmt.toNat = true ∧
    0 < row2.cols ∧ collCmd.e2.toNat ≤ row2.rows * row2.cols := by decide +kernel
/-- A gather of one element or of two. -/
def gathCmd (n : Word) : XCmd := xcmd (.xgath 0 2 1 none none 0 0) (some ⟨0x1000, 1, 16, 4, false, 0⟩) hd n 0 0
/-- Its state: the index block holds INT32, the row read RAW. -/
def gathering (n : Word) : State :=
  let s := copying 0 (gathCmd n)
  (s.modMem fun m => { m with desc := [] }).setCore { s.core with tag := [(0x40, ⟨4, 0x7F⟩)] }
theorem witness_CopyCompletion_gather :
    acts 0 (gathCmd 1) = true ∧ acts 0 (gathCmd 2) = true ∧ ((gathering 1).focus 0).core.x.xq = [gathCmd 1] ∧
    (((gathering 1).focus 0).queueOf 0).length < 16 ∧ (((gathering 1).focus 0).desc (0x1000 / 64)).fmt = 4 ∧
    laneOf (((gathering 1).focus 0).spad 0x1000 64) 32 0 = 0 ∧ 0 < thExt hd 1 ∧
    ((gathering 1).focus 0).copyKey 0 (thKey hd) = some (.installed 3) := by decide +kernel
theorem witness_CopyCompletion_gather_pages :
    (gathCmd 1).done = 0 ∧ ((gathering 1).focus 0).gathPages (gathCmd 1) ⟨0x1000, 1, 16, 4, false, 0⟩ 1 0 = .ok ⟨⟩ ∧
    (let s := copying 1 (gathCmd 1)
     let t := (s.setCore { s.core with tag := [(0x40, ⟨4, 0x7F⟩)] }).focus 0
     t.core.c.pend = none ∧ t.gathPages (gathCmd 1) ⟨0x1000, 1, 16, 4, false, 0⟩ 1 0 = .error (.trap .hostWindow 0x10000 0)) := by
  refine ⟨rfl, of_gives (by decide +kernel), by decide +kernel, ?_⟩
  rfl
theorem witness_CopyCompletion_gather_read :
    ∃ y, ((gathering 1).focus 0).readRun (.installed 3) (thBase hd + 64 * (0 + 0 * thStride hd 1)) (256 / 64) = .ok y ∧
      (y.2.all fun w => w.2.fmt == 0) = true := of_answers (by decide +kernel)

/-! ### The whole machine -/

/-- The state after reset with the word of LI x9, 0x67890 placed (05 R157 without its EXT lane). -/
def placed : State := State.reset.withFetchWord 32 0x1D4E7890
/-- That state with the turn taken. -/
def turned : State :=
  let a := ((State.focus { placed with agenda := [] } 0).elapse 1).noteExpired
  a.setU a.u.settle
/-- What the line there holds. -/
def line0 : LineInst := ⟨0, 8, false, 0, none, true, none⟩
/-- The lane there. -/
def text0 : LaneText := ⟨1, Engine.c.kind, [], 0x1D4E7890⟩
theorem witness_StepRunsDecodedInstruction :
    placed.agenda = [.lane 0 .c] ∧ turned.canMove .c = true ∧ turned.u.line? (turned.u.eng .c).serial = some line0 ∧
    (turned.u.eng .c).skip = none ∧ line0.checked = true ∧ line0.held = none ∧ modsLevelBad Mods.none none = false ∧ text0.issue line0.iter = some [] ∧
    lineCause line0 (lineWords (loneLine 0x1D4E7890)) = none := by decide +kernel
theorem witness_StepRunsDecodedInstruction_lane :
    decodeInstr .c [] 0x1D4E7890 = .ok (.li 9 ⟨none, 0x67890⟩, Mods.none) ∧
    turned.fetchLine 0 = .ok (turned, lineWords (loneLine 0x1D4E7890)) ∧
    ((turned.lanesIn line0 .c).find? fun x => decide (1 ≤ x.n)) = some text0 := ⟨rfl, of_gives (by decide +kernel), by decide +kernel⟩
theorem witness_StepRunsDecodedInstruction_begin :
    let v := (turned.moveTo .c 0 1 [] (turned.passesSwitch .c line0 (lineWords (loneLine 0x1D4E7890)) 1)).moveTo .c 0 1 [] false
    turned.outOfShadow .c line0 0 1 = true ∧ v.mayReach .c line0 (lineWords (loneLine 0x1D4E7890)) text0 = true ∧
    v.mayBegin .c 1 (.li 9 ⟨none, 0x67890⟩) = true ∧ v.frameCause (.li 9 ⟨none, 0x67890⟩) = none := by decide +kernel
theorem witness_StepRunsDecodedInstruction_others :
    ({ State.reset with agenda := [.event (.arbiterPass 0)] } : State).agenda = .event (.arbiterPass 0) :: [] ∧
    ({ State.reset with agenda := [.tick 5] } : State).agenda = .tick 5 :: [] ∧
    State.reset.cur < 520 ∧ 0 < State.reset.clockOf (dieOf State.reset.cur) ∧
    (∀ x ∈ State.reset.lanterns, ∀ q, q < 4 → (x.2.quad q).held = false) := ⟨by decide, by decide, by decide, by decide, fun _ h => by cases h⟩
theorem witness_StepInvariant : State.reset.Inv ∧ placed.Inv ∧ nextIs (step placed) (fun _ => true) = true := by
  refine ⟨⟨by decide, by decide, ?_⟩, ⟨by decide, by decide, ?_⟩, by decide +kernel⟩ <;> intro die <;>
    simp [State.clockOf, placed, State.withFetchWord, State.placeWord, State.modMem, State.modDev, State.modC, State.setCore,
      State.reset, Device.reset, Sparse.get]
theorem witness_RoundTrip :
    (Instr.li 9 ⟨none, 0x67890⟩).engine = some .c ∧ (Instr.li 9 ⟨none, 0x67890⟩).wf = true ∧
    (encode (.li 9 ⟨none, 0x67890⟩)).isSome = true := by decide

/-! ### Instructions: expected values from the spec's worked programs and tables -/

/-- x8 = 7, x9 = −2, x10 = 0 (06, "A call, to the bit"), x11 = 2^63 − 1, x12 = −7. -/
def divides : State := unit 0 [] [(0, 7), (1, -2), (2, 0), (3, 0x7FFFFFFFFFFFFFFF), (4, -7)]
/-- 06, "A call, to the bit": 7 rem −2 = 1; a division by zero gives −1; 7 / −2 = −3. -/
theorem test_REMS : xAfter (.rems 11 8 9) divides 11 1 = true := by decide +kernel
theorem test_DIVS_zero : xAfter (.divs 12 8 10) divides 12 (-1) = true := by decide +kernel
theorem test_DIVS : xAfter (.divs 8 8 9) divides 8 (-3) = true := by decide +kernel
/-- 06 R190: the remainder of zero is the dividend; division without sign of −2 by 7. -/
theorem test_REMU_zero : xAfter (.remu 13 9 10) divides 13 (-2) = true := by decide +kernel
theorem test_DIVU : xAfter (.divu 13 9 8) divides 13 0x2492492492492492 = true := by decide +kernel
/-- 06 R190. -/
theorem test_ADD_wraps : xAfter (.addImm 13 11 ⟨none, 1⟩) divides 13 0x8000000000000000 = true := by decide +kernel
theorem test_MULHS : xAfter (.mulhs 13 8 9) divides 13 (-1) = true := by decide +kernel
theorem test_MULHU : xAfter (.mulhu 13 8 9) divides 13 6 = true := by decide +kernel
theorem test_SAR : xAfter (.sarImm 13 12 ⟨none, 1⟩) divides 13 (-4) = true := by decide +kernel
theorem test_SHR : xAfter (.shrImm 13 12 ⟨none, 63⟩) divides 13 1 = true := by decide +kernel
theorem test_CLZ_zero : xAfter (.clz 13 10) divides 13 64 = true := by decide +kernel
theorem test_SEXT : xAfter (.sextImm 13 8 ⟨none, 3⟩) divides 13 (-1) = true := by decide +kernel
theorem test_ZEXT_zero : xAfter (.zext 13 9 10) divides 13 (-2) = true := by decide +kernel
theorem test_MINU : xAfter (.minu 13 8 9) divides 13 7 = true := by decide +kernel
theorem test_MIN : xAfter (.min 13 8 9) divides 13 (-2) = true := by decide +kernel
/-- An immediate above 63 traps with immediate-range (06 R190). -/
theorem test_SHL_range : trapped (.shlImm 13 8 ⟨none, 64⟩) divides .immediateRange = true := by decide +kernel
/-- Reads of x0 give zero (02 R45): SEL takes its third source. -/
theorem test_SEL : xAfter (.sel 13 0 8 9) divides 13 (-2) = true := by decide +kernel
/-- SETSHAPE of 65536 rows traps (06 R215). -/
theorem test_SETSHAPE : trapped (.setShape 0 11 8 8 4) divides .shapeRequest = true := by decide +kernel

/-- A vector unit with two elements. -/
def lanes (f : Byte) (x y : List Byte) : State :=
  vec.modV fun v => { v with v := [(1, ⟨true, ⟨f, List.replicate 4 0x7F, (x ++ List.replicate 256 0).take 256⟩⟩),
    (2, ⟨true, ⟨f, List.replicate 4 0x7F, (y ++ List.replicate 256 0).take 256⟩⟩)], mask := [] }
/-- Lane 0 of a register after a lane. -/
def lane0 (i : Instr) (s : State) (v f w n : Nat) : Bool :=
  nextIs (exec i s) fun t => (t.vreg v).el.fmt.toNat == f && (t.vreg v).el.lane w 0 == n
/-- 07 R249: INT32 wraps; the high half of a product. -/
theorem test_VADD : lane0 (.vadd 3 1 2 0) (lanes 4 [0xFF, 0xFF, 0xFF, 0x7F] [1]) 3 4 32 0x80000000 = true := by decide +kernel
theorem test_VMULH : lane0 (.vmulh 3 1 2) (lanes 4 [0xFE, 0xFF, 0xFF, 0xFF] [7]) 3 4 32 0xFFFFFFFF = true := by decide +kernel
/-- 07 R249: a count of the width or more gives zero. -/
theorem test_VSHL : lane0 (.vshl 3 1 2) (lanes 4 [1] [32]) 3 4 32 0 = true := by decide +kernel
/-- 07 R251: −0 is below +0. -/
theorem test_VMIN : lane0 (.vmin 3 1 2) (lanes 0x14 [] [0, 0, 0, 0x80]) 3 0x14 32 0x80000000 = true := by decide +kernel
/-- FP32: 1.5 + 1.5 = 3. -/
theorem test_VADD_float :
    lane0 (.vadd 3 1 2 0) (lanes 0x14 [0, 0, 0xC0, 0x3F] [0, 0, 0xC0, 0x3F]) 3 0x14 32 0x40400000 = true := by decide +kernel
/-- 03 R94: the byte 242 holds five digits of 2, each the trit +1. -/
theorem test_VUNT5 : lane0 (.vunt5 3 1 false 0) (lanes 9 [242] []) 3 1 8 1 = true := by decide +kernel

/-- The product of 18: A in slot 1; the planes of B in slot 2, by magnitude bit, and its side entries (08 R279). -/
def scanProduct : State :=
  let s := ready8 1 4 0x1000
  let s := s.setCore { s.core with spad :=
    [(0x1000, 1), (0x1001, 2), (0x1002, 0xFF), (0x1040, 3), (0x1041, 0xFE), (0x1042, 1), (0x1080, 2), (0x1081, 1), (0x1082, 4),
     (0x2000, 6), (0x2020, 3), (0x2040, 4), (0x2080, 1), (0x2100, 2), (0x2120, 4), (0x2140, 1), (0x21A0, 2),
     (0x2200, 3), (0x2220, 1), (0x2240, 5), (0x2280, 4), (0x2801, 0x20), (0x2803, 0xA0), (0x2805, 0x20), (0x2811, 0xA0),
     (0x2813, 0x20), (0x2815, 0x20), (0x2821, 0x20), (0x2823, 0x20), (0x2825, 0xA0)] }
  s.setLantern (s.lantern.setQuad 0 { s.lantern.quad 0 with rcd := { rcd8 with gk := 3, g := 2, rm := 3, rn := 3, rk := 3 } })
/-- 18, "Data and method": cells of A × B. -/
theorem test_MMA_first : nextIs (exec (.matrixCommandComplete 0) scanProduct) (fun t => t.cell 0 0 == 3) = true := by decide +kernel
/-- 02 R53: a grant that is zero in a dimension leaves the accumulators. -/
theorem test_MCLR_zero_grant :
    let s := leased.setLantern (leased.lantern.setQuad 0 { leased.lantern.quad 0 with acc := [(0, 5)] })
    nextIs (exec (.matrixCommandComplete 0) (queued s (cmd (.mclr 1 none) none ⟨8, 8, 0, 4, 8, 8, 0, 64⟩ 0)))
      (fun t => t.cell 0 0 == 5 && t.core.c.mat.mq.isEmpty) = true := by decide +kernel
theorem test_MMA_last : nextIs (exec (.matrixCommandComplete 0) scanProduct) (fun t => t.cell 2 2 == -68) = true := by decide +kernel

end Sys2Proof.Tests
end

section
/-! The universal lanes (06 R209-R214; 05 R180): what a flag read answers after the flag operations, what a sticky bit of STATUS
changes in each place of the text, and the statement about the lanes. -/

namespace Sys2Proof.Machine

open Sys2Proof Host

/-! ### Flags after an update -/

theorem State.flag_setFlag_ne (s : State) {f g : Nat} (n : Nat) (h : g ≠ f) : (s.setFlag f n).flag g = s.flag g := by
  rw [State.flag, State.setFlag, State.modC_core_c]; exact Sparse.get_set_ne _ _ _ h
@[simp] theorem State.flag_write (s : State) (e : Engine) (w : SharedWrite) (f : Nat) : (s.write e w).flag f = s.flag f := by
  rw [State.flag, State.write_f]; rfl
@[simp] theorem State.flag_dropWaiter (s : State) (e : Engine) (f : Nat) : (s.dropWaiter e).flag f = s.flag f := by
  rw [State.flag, State.dropWaiter, State.modC_core_c]; rfl
@[simp] theorem State.dropWaiter_dev (s : State) (e : Engine) : (s.dropWaiter e).dev = s.dev := rfl
@[simp] theorem State.dropWaiter_u (s : State) (e : Engine) : (s.dropWaiter e).u = s.u := by
  rw [State.u, State.dropWaiter, State.modC_core_c]; rfl
@[simp] theorem State.dropWaiter_f (s : State) (e : Engine) : (s.dropWaiter e).core.c.f = s.core.c.f := by
  rw [State.dropWaiter, State.modC_core_c]
@[simp] theorem State.dropWaiter_waits (s : State) (e : Engine) :
    (s.dropWaiter e).core.c.waits = s.core.c.waits.filter fun w => w.engine != e := by
  rw [State.dropWaiter, State.modC_core_c]

/-- The atomic step of a waiter: its flag falls with .sub, and nothing else of the machine moves (06 R211). -/
theorem State.passFlag_effect (s : State) (f n : Nat) (sub : Bool) :
    (s.passFlag f n sub).flag f = (if sub then s.flag f - n else s.flag f) ∧
    (∀ g, g ≠ f → (s.passFlag f n sub).flag g = s.flag g) ∧
    (s.passFlag f n sub).core.c.waits = s.core.c.waits ∧ (s.passFlag f n sub).u = s.u ∧ (s.passFlag f n sub).dev = s.dev := by
  cases sub with
  | false => exact ⟨rfl, fun _ _ => rfl, rfl, rfl, rfl⟩
  | true =>
    show (s.setFlag f _).flag f = _ ∧ _
    exact ⟨State.flag_setFlag .., fun g hg => State.flag_setFlag_ne s _ hg, State.setFlag_waits .., State.setFlag_u .., rfl⟩

/-! ### A write in text order, seen from each place of the text (01 R32) -/

/-- What an entry of the log does to the registers that a lane at place `p` sees. -/
def viewStep (p : Nat) (sh : Shared) (e : Nat × SharedWrite) : Shared := if e.1 < p then sh.apply e.2 else sh

theorem UnitCtx.view_eq (u : UnitCtx) (p : Nat) : u.view p = u.log.foldl (viewStep p) u.sh := rfl

/-- A write is not seen from its own place, nor from an earlier one. -/
theorem foldl_viewStep_logInsert_of_le {p q : Nat} (w : SharedWrite) (h : p ≤ q) (l : List (Nat × SharedWrite)) (sh : Shared) :
    (logInsert q w l).foldl (viewStep p) sh = l.foldl (viewStep p) sh := by
  have hskip (sh : Shared) : viewStep p sh (q, w) = sh := if_neg (Nat.not_lt.2 h)
  induction l generalizing sh with
  | nil => exact hskip sh
  | cons e l ih =>
    unfold logInsert
    split
    · rw [List.foldl_cons, hskip]
    · exact ih _

theorem UnitCtx.view_logInsert_of_le (u : UnitCtx) {p q : Nat} (w : SharedWrite) (h : p ≤ q) :
    ({ u with log := logInsert q w u.log } : UnitCtx).view p = u.view p := foldl_viewStep_logInsert_of_le w h u.log u.sh

/-- A write after every other one goes to the end of the log. -/
theorem logInsert_eq_append {q : Nat} (w : SharedWrite) {l : List (Nat × SharedWrite)} (h : ∀ x ∈ l, x.1 ≤ q) :
    logInsert q w l = l ++ [(q, w)] := by
  induction l with
  | nil => rfl
  | cons e l ih =>
    have he : ¬ q < e.1 := Nat.not_lt.2 (h e List.mem_cons_self)
    rw [logInsert, if_neg he, ih fun x hx => h x (List.mem_cons_of_mem _ hx)]; rfl

/-- The last write in the text is seen on top of all the others by every later place. -/
theorem UnitCtx.view_logInsert_of_lt (u : UnitCtx) {p q : Nat} (w : SharedWrite) (hl : ∀ x ∈ u.log, x.1 ≤ q) (h : q < p) :
    ({ u with log := logInsert q w u.log } : UnitCtx).view p = (u.view p).apply w := by
  rw [UnitCtx.view_eq, logInsert_eq_append w hl, List.foldl_append]
  exact if_pos h

/-! ### Raising a flag -/

theorem State.incFlag_of_le (s : State) (e : Option Engine) {f n : Nat} (h : s.flag f + n ≤ 0xFFFFFFFF) :
    s.incFlag e f n = s.setFlag f (s.flag f + n) := if_neg (Nat.not_lt.2 h)

theorem State.incFlag_of_lt (s : State) (e : Engine) {f n : Nat} (h : 0xFFFFFFFF < s.flag f + n) :
    s.incFlag (some e) f n = (s.setFlag f 0xFFFFFFFF).write e (.stick 2) := if_pos h

/-- A raised flag saturates, and no other flag moves (06 R209). -/
theorem State.incFlag_flags (s : State) (e : Engine) (f n : Nat) :
    (s.incFlag (some e) f n).flag f = min (s.flag f + n) 0xFFFFFFFF ∧
    (∀ g, g ≠ f → (s.incFlag (some e) f n).flag g = s.flag g) ∧
    (s.incFlag (some e) f n).dev = s.dev ∧ (s.incFlag (some e) f n).core.c.csr = s.core.c.csr := by
  rcases Nat.lt_or_ge 0xFFFFFFFF (s.flag f + n) with h | h
  · rw [State.incFlag_of_lt s e h, State.flag_write, State.flag_setFlag, State.write_csr, State.setFlag_csr]
    exact ⟨by omega, fun g hg => by rw [State.flag_write, State.flag_setFlag_ne s _ hg], rfl, rfl⟩
  · rw [State.incFlag_of_le s _ h, State.flag_setFlag, State.setFlag_csr]
    exact ⟨by omega, fun g hg => State.flag_setFlag_ne s _ hg, rfl, rfl⟩

theorem State.incFlag_u_of_lt (s : State) (e : Engine) {f n : Nat} (h : 0xFFFFFFFF < s.flag f + n) :
    (s.incFlag (some e) f n).u = { s.u with log := logInsert (s.u.eng e).pos (.stick 2) s.u.log } := by
  rw [State.incFlag_of_lt s e h, State.write_u, State.setFlag_u]

/-! ### The lanes -/

theorem execEndE_effect (e : Engine) (s : State) :
    ∃ t : State, execEndE e s = .next t ∧ (t.u.eng e).ended = true ∧ t.dev = s.dev := by
  have h : execEndE e s = .next ((s.endEngine e).advance e) := by cases e <;> rfl
  refine ⟨_, h, ?_, rfl⟩
  rw [State.advance_u, UnitCtx.eng_setEng]
  show ((s.endEngine e).u.eng e).ended = true
  rw [State.endEngine, State.setU_u, UnitCtx.eng_setEng]

theorem flagLimit_chk {n : Imm 18} (h : immU n ≤ 0xFFFFFFFF) : chk (decide (immU n ≤ flagLimit)) .immediateRange = .ok ⟨⟩ :=
  chk_of (decide_eq_true h) _

theorem flagLimit_trap {n : Imm 18} (h : 0xFFFFFFFF < immU n) : chk (decide (immU n ≤ flagLimit)) .immediateRange = trap .immediateRange := by
  rw [decide_eq_false (show ¬ immU n ≤ flagLimit from Nat.not_le.2 h)]; rfl

theorem execFinc_ok (e : Engine) (f : FReg) {n : Imm 18} {s : State} (h : immU n ≤ 0xFFFFFFFF) (hd : s.commandsDone e = true) :
    execFinc e f n s = .next ((s.incFlag (some e) f.toNat (immU n)).advance e) := by
  rw [execFinc, flagLimit_chk h, hd]; rfl

theorem execFset_ok (e : Engine) (f : FReg) {n : Imm 18} {s : State} (h : immU n ≤ 0xFFFFFFFF) (hd : s.commandsDone e = true) :
    execFset e f n s = .next ((s.setFlag f.toNat (immU n)).advance e) := by
  rw [execFset, flagLimit_chk h, hd]; rfl

/-- Nobody waits on a flag: no waiter comes before a lane that finds its condition true. -/
theorem State.readyWaiter_none {s : State} {f : Nat} (h : ∀ w ∈ s.core.c.waits, w.flag ≠ f) :
    s.readyWaiter (fun w => w.flag == f) = none := by
  unfold State.readyWaiter
  rw [List.findSome?_eq_none_iff]
  intro e _
  rw [List.find?_eq_none]
  intro w hw
  simp [h w hw]

theorem execFwait_ok (e : Engine) (f : FReg) (sub : Bool) {n : Imm 18} {s : State} (h : immU n ≤ 0xFFFFFFFF)
    (hf : immU n ≤ s.flag f.toNat) (hw : immU n = 0 ∨ ∀ w ∈ s.core.c.waits, w.flag ≠ f.toNat) :
    execFwait e f sub n s = .next (((s.dropWaiter e).passFlag f.toNat (immU n) sub).advance e) := by
  have hfirst : immU n = 0 ∨ ((s.readyWaiter fun w => w.flag == f.toNat).all fun w => w.engine == e) = true :=
    hw.imp_right fun g => by rw [State.readyWaiter_none g]; rfl
  unfold execFwait
  rw [if_pos (show immU n ≤ flagLimit from h)]
  exact if_pos ⟨hf, hfirst⟩

theorem execFwait_waits (e : Engine) (f : FReg) (sub : Bool) {n : Imm 18} {s : State} (h : immU n ≤ 0xFFFFFFFF)
    (hf : s.flag f.toNat < immU n) :
    execFwait e f sub n s =
      .next ((s.dropWaiter e).modC fun c => { c with waits := ⟨e, f.toNat, sub, immU n⟩ :: c.waits }) := by
  unfold execFwait
  rw [if_pos (show immU n ≤ flagLimit from h)]
  exact if_neg fun g => Nat.not_le.2 hf g.1

theorem execFwait_trap (e : Engine) (f : FReg) (sub : Bool) {n : Imm 18} (s : State) (h : 0xFFFFFFFF < immU n) :
    execFwait e f sub n s = .next (s.takeTrap e .immediateRange 0 0 (s.laneAt e)) := by
  unfold execFwait
  exact if_neg (Nat.not_le.2 h)

/-- KWAIT goes on at a token that stands at or below its number, and waits at one above it (06 R213). -/
theorem execKwait_eq (e : Engine) (k : KReg) {n : Imm 6} (s : State) (h : immU n ≤ 63) :
    execKwait e k n s = if s.token k.toNat ≤ immU n then .next (s.advance e) else .next s := by
  rw [execKwait, chk_of (decide_eq_true h), ok_bind]
  by_cases g : s.token k.toNat ≤ immU n
  · rw [if_pos g, decide_eq_true g]; rfl
  · rw [if_neg g, decide_eq_false g]; rfl

theorem execKwait_trap (e : Engine) (k : KReg) {n : Imm 6} (s : State) (h : 63 < immU n) :
    execKwait e k n s = .next (s.takeTrap e .immediateRange 0 0 (s.laneAt e)) := by
  rw [execKwait, decide_eq_false (Nat.not_le.2 h)]; rfl

theorem execFwaitComplete_some {s : State} {core : Nat} {w : FlagWait} (h : (s.focus core).readyWaiter (fun _ => true) = some w) :
    execFwaitComplete core s =
      .next ((((s.focus core).dropWaiter w.engine).passFlag w.flag w.n w.sub).advance w.engine) := by
  unfold execFwaitComplete; dsimp only; rw [h]

theorem execFwaitComplete_none {s : State} {core : Nat} (h : (s.focus core).readyWaiter (fun _ => true) = none) :
    execFwaitComplete core s = .next (s.focus core) := by
  unfold execFwaitComplete; dsimp only; rw [h]

/-- FINC, with what a saturation does to STATUS in each place of the text (01 R32; 06 R209). -/
theorem execFinc_effect (e : Engine) (f : FReg) {n : Imm 18} {s : State} (h : immU n ≤ 0xFFFFFFFF) (hd : s.commandsDone e = true) :
    ∃ t : State, execFinc e f n s = .next (t.advance e) ∧ t.flag f.toNat = min (s.flag f.toNat + immU n) 0xFFFFFFFF ∧
      (∀ g, g ≠ f.toNat → t.flag g = s.flag g) ∧ t.dev = s.dev ∧ t.core.c.csr = s.core.c.csr ∧
      (s.flag f.toNat + immU n ≤ 0xFFFFFFFF → t.u = s.u) ∧
      (0xFFFFFFFF < s.flag f.toNat + immU n → t.u = { s.u with log := t.u.log } ∧
        (∀ p, p ≤ (s.u.eng e).pos → t.u.view p = s.u.view p) ∧
        ((∀ x ∈ s.u.log, x.1 ≤ (s.u.eng e).pos) → ∀ p, (s.u.eng e).pos < p →
          t.u.view p = { s.u.view p with status := (s.u.view p).status ||| 2 })) := by
  obtain ⟨hflag, hother, hdev, hcsr⟩ := s.incFlag_flags e f.toNat (immU n)
  refine ⟨_, execFinc_ok e f h hd, hflag, hother, hdev, hcsr, fun hle => ?_, fun hlt => ?_⟩
  · rw [State.incFlag_of_le s _ hle, State.setFlag_u]
  · rw [State.incFlag_u_of_lt s e hlt]
    exact ⟨rfl, fun p hp => UnitCtx.view_logInsert_of_le s.u _ hp, fun hl p hp => UnitCtx.view_logInsert_of_lt s.u _ hl hp⟩

/-- FWAIT that goes on. -/
theorem execFwait_effect (e : Engine) (f : FReg) (sub : Bool) {n : Imm 18} {s : State} (h : immU n ≤ 0xFFFFFFFF)
    (hf : immU n ≤ s.flag f.toNat) (hw : immU n = 0 ∨ ∀ w ∈ s.core.c.waits, w.flag ≠ f.toNat) :
    ∃ t : State, execFwait e f sub n s = .next (t.advance e) ∧
      t.flag f.toNat = (if sub then s.flag f.toNat - immU n else s.flag f.toNat) ∧
      (∀ g, g ≠ f.toNat → t.flag g = s.flag g) ∧ t.dev = s.dev ∧ t.u = s.u := by
  obtain ⟨hflag, hother, -, hu, hdev⟩ := (s.dropWaiter e).passFlag_effect f.toNat (immU n) sub
  simp only [State.flag_dropWaiter, State.dropWaiter_u, State.dropWaiter_dev] at hflag hother hu hdev
  exact ⟨_, execFwait_ok e f sub h hf hw, hflag, hother, hdev, hu⟩

/-- FWAIT that joins the waiters of its core. -/
theorem execFwait_joins (e : Engine) (f : FReg) (sub : Bool) {n : Imm 18} {s : State} (h : immU n ≤ 0xFFFFFFFF)
    (hf : s.flag f.toNat < immU n) :
    ∃ t : State, execFwait e f sub n s = .next t ∧
      t.core.c.waits = ⟨e, f.toNat, sub, immU n⟩ :: s.core.c.waits.filter (fun w => w.engine != e) ∧
      t.u = s.u ∧ t.core.c.f = s.core.c.f ∧ t.dev = s.dev := by
  refine ⟨_, execFwait_waits e f sub h hf, ?_, ?_, ?_, rfl⟩
  · rw [State.modC_core_c, ← State.dropWaiter_waits]
  · rw [State.u, State.modC_core_c, ← State.dropWaiter_u s e]; rfl
  · rw [State.modC_core_c, ← State.dropWaiter_f s e]

/-- FWAIT_COMPLETE lets a waiter go on. -/
theorem execFwaitComplete_effect {s : State} {core : Nat} {w : FlagWait}
    (h : (s.focus core).readyWaiter (fun _ => true) = some w) :
    ∃ t : State, execFwaitComplete core s = .next (State.advance t w.engine) ∧
      t.flag w.flag = (if w.sub then (s.focus core).flag w.flag - w.n else (s.focus core).flag w.flag) ∧
      (∀ g, g ≠ w.flag → t.flag g = (s.focus core).flag g) ∧
      t.core.c.waits = (s.coreAt core).c.waits.filter (fun x => x.engine != w.engine) ∧
      t.u = (s.coreAt core).c.u ∧ t.dev = s.dev := by
  obtain ⟨hflag, hother, hwaits, hu, hdev⟩ := ((s.focus core).dropWaiter w.engine).passFlag_effect w.flag w.n w.sub
  simp only [State.flag_dropWaiter, State.dropWaiter_u, State.dropWaiter_dev, State.dropWaiter_waits] at hflag hother hwaits hu hdev
  exact ⟨_, execFwaitComplete_some h, hflag, hother, hwaits, hu, hdev⟩

/-- Settles O7, lane by lane: each lane's outcome is the equation of its meaning for the case at hand. -/
theorem universalLanes : Obligations.UniversalLanes := by
  unfold Obligations.UniversalLanes
  refine ⟨fun s e f k n m sub => ⟨rfl, execEndE_effect e s, fun hn hd => ⟨execFinc_effect e f hn hd, ?_⟩, ?_, ?_⟩,
    fun s e f k n m sub => ⟨?_, ?_, ?_, ?_⟩, fun s core w h => execFwaitComplete_effect h, fun s core h => execFwaitComplete_none h⟩
  · exact ⟨_, execFset_ok e f hn hd, State.flag_setFlag .., fun g hg => State.flag_setFlag_ne s _ hg, rfl, State.setFlag_u ..,
      State.setFlag_csr ..⟩
  · exact fun hn hf hw => execFwait_effect e f sub hn hf hw
  · intro hm hk
    exact (execKwait_eq e k s hm).trans (if_pos hk)
  · exact fun hn hf => execFwait_joins e f sub hn hf
  · intro hm hk
    exact (execKwait_eq e k s hm).trans (if_neg (Nat.not_le.2 hk))
  · intro hn
    refine ⟨?_, ?_, execFwait_trap e f sub s hn⟩
    · show execFinc e f n s = _
      rw [execFinc, flagLimit_trap hn]; rfl
    · show execFset e f n s = _
      rw [execFset, flagLimit_trap hn]; rfl
  · exact fun hm => execKwait_trap e k s hm

end Sys2Proof.Machine
end

section
/-! What the agents beside the engines leave unchanged: folds, the arbiter, the health counters and the anchor block. -/

namespace Sys2Proof.Machine

open Sys2Proof Host

/-! ### Folds -/

/-- A fold of steps that all keep a value keeps it. -/
theorem foldl_keeps {σ β γ : Type} (g : σ → γ) {f : σ → β → σ} (hf : ∀ t b, g (f t b) = g t) (l : List β) (s : σ) :
    g (l.foldl f s) = g s := by
  induction l generalizing s with
  | nil => rfl
  | cons b l ih => exact (ih _).trans (hf s b)

/-- A fold over keys whose steps change each their own key alone, in states that satisfy an invariant. -/
theorem foldl_pointwise {σ α : Type} (get : σ → Nat → α) {step : σ → Nat → σ} (g : Nat → α → α) (P : σ → Prop)
    (hP : ∀ t n, P t → P (step t n)) (hs : ∀ t n, P t → get (step t n) n = g n (get t n))
    (ho : ∀ t n k, k ≠ n → get (step t n) k = get t k) {l : List Nat} (hl : l.Nodup) {t : σ} (ht : P t) (k : Nat) :
    get (l.foldl step t) k = if k ∈ l then g k (get t k) else get t k := by
  induction l generalizing t with
  | nil => rfl
  | cons n l ih =>
    obtain ⟨hn, hl⟩ := List.nodup_cons.1 hl
    rw [List.foldl_cons, ih hl (hP t n ht)]
    by_cases hk : k = n
    · subst hk
      rw [if_neg hn, if_pos List.mem_cons_self, hs t k ht]
    · simp only [ho t n k hk, List.mem_cons, hk, false_or]

/-- The same over the numbers below `N`. -/
theorem foldl_range_pointwise {σ α : Type} (get : σ → Nat → α) {step : σ → Nat → σ} (g : Nat → α → α) (P : σ → Prop)
    (hP : ∀ t n, P t → P (step t n)) (hs : ∀ t n, P t → get (step t n) n = g n (get t n))
    (ho : ∀ t n k, k ≠ n → get (step t n) k = get t k) {t : σ} (ht : P t) (N k : Nat) :
    get ((List.range N).foldl step t) k = if k < N then g k (get t k) else get t k := by
  rw [foldl_pointwise get g P hP hs ho List.nodup_range ht k]
  simp only [List.mem_range]

/-! ### The arbiter (08 R289-R291) -/

/-- From `s` to `t` only lanterns and the matrix issue engines have changed, as the arbiter changes them. -/
structure State.LeasesOnly (s t : State) : Prop where
  dev : t.dev = s.dev
  cur : t.cur = s.cur
  agenda : t.agenda = s.agenda
  cores : ∀ n, ∃ m, t.coreAt n = { s.coreAt n with c := { (s.coreAt n).c with mat := m } }

theorem State.LeasesOnly.refl (s : State) : s.LeasesOnly s := ⟨rfl, rfl, rfl, fun n => ⟨(s.coreAt n).c.mat, rfl⟩⟩

theorem State.LeasesOnly.trans {s t u : State} (h : s.LeasesOnly t) (g : t.LeasesOnly u) : s.LeasesOnly u := by
  refine ⟨g.dev.trans h.dev, g.cur.trans h.cur, g.agenda.trans h.agenda, fun n => ?_⟩
  obtain ⟨m, hm⟩ := h.cores n
  obtain ⟨k, hk⟩ := g.cores n
  exact ⟨k, by rw [hk, hm]⟩

theorem State.leasesOnly_setLanternAt (s : State) (n : Nat) (l : Lantern) : s.LeasesOnly (s.setLanternAt n l) :=
  ⟨rfl, rfl, rfl, fun k => ⟨(s.coreAt k).c.mat, rfl⟩⟩

theorem State.leasesOnly_setMat (s : State) (n : Nat) (m : MatIss) :
    s.LeasesOnly (s.setCoreAt n { s.coreAt n with c := { (s.coreAt n).c with mat := m } }) := by
  refine ⟨rfl, rfl, rfl, fun k => ?_⟩
  by_cases h : k = n
  · subst h; exact ⟨m, State.coreAt_setCoreAt ..⟩
  · exact ⟨(s.coreAt k).c.mat, State.coreAt_setCoreAt_ne s _ h⟩

theorem State.leasesOnly_grantLease (s : State) (ltn c mask : Nat) : s.LeasesOnly (s.grantLease ltn c mask) :=
  (s.leasesOnly_setLanternAt ltn _).trans (State.leasesOnly_setMat _ (4 * ltn + c) _)

theorem State.leasesOnly_examine (ltn : Nat) (p : State × Nat) (c : Nat) : p.1.LeasesOnly (State.examine ltn p c).1 := by
  unfold State.examine State.examineRot
  dsimp only
  repeat' split
  any_goals exact State.LeasesOnly.refl _
  · exact State.leasesOnly_setLanternAt ..
  · exact State.leasesOnly_grantLease ..

/-- A pass of the arbiter changes leases and lanterns, and nothing else. -/
theorem State.leasesOnly_arbiterPass (s : State) (ltn : Nat) : s.LeasesOnly (s.arbiterPass ltn) := by
  have hfold (l : List Nat) (p : State × Nat) : p.1.LeasesOnly (l.foldl (State.examine ltn) p).1 := by
    induction l generalizing p with
    | nil => exact .refl _
    | cons c l ih => exact (State.leasesOnly_examine ltn p c).trans (ih _)
  unfold State.arbiterPass
  dsimp only
  split
  · exact .refl s
  · exact hfold _ (s, 0)

@[simp] theorem State.arbiterPass_dev (s : State) (ltn : Nat) : (s.arbiterPass ltn).dev = s.dev := (s.leasesOnly_arbiterPass ltn).dev
@[simp] theorem State.arbiterPass_cur (s : State) (ltn : Nat) : (s.arbiterPass ltn).cur = s.cur := (s.leasesOnly_arbiterPass ltn).cur

@[simp] theorem State.modDev_coreAt (s : State) (f : Device → Device) (n : Nat) : (s.modDev f).coreAt n = s.coreAt n := rfl

/-! ### The anchor block -/

@[simp] theorem State.anchorWrite_cores (s : State) (off : Nat) (bs : Bytes) : (s.anchorWrite off bs).cores = s.cores := rfl
@[simp] theorem State.anchorWrite_coreAt (s : State) (off : Nat) (bs : Bytes) (n : Nat) : (s.anchorWrite off bs).coreAt n = s.coreAt n := rfl

@[simp] theorem State.writeInventory_coreAt (s : State) (n : Nat) : s.writeInventory.coreAt n = s.coreAt n := State.anchorWrite_coreAt ..

/-! ### Launches -/

/-- Replace the list of launches. -/
def State.withLaunches (s : State) (ls : List Launch) : State := s.modDev fun d => { d with launches := ls }

@[simp] theorem State.withLaunches_now (s : State) (ls : List Launch) : (s.withLaunches ls).dev.now = s.dev.now := rfl
@[simp] theorem State.withLaunches_cyc (s : State) (ls : List Launch) : (s.withLaunches ls).dev.cyc = s.dev.cyc := rfl

/-- What is noted after a turn stands in the launches alone (16 R440; 21 R520). -/
theorem State.noteTurn_eq_withLaunches (s : State) : ∃ ls, s.noteTurn = s.withLaunches ls := by
  have hfold (l : List Launch) (f : Launch → Bool) (t : State) (ht : ∃ ls, t = s.withLaunches ls) :
      ∃ ls, (l.foldl (fun t l => if f l then t.setLaunch { l with expired := some (s.snuffReport l) } else t) t) = s.withLaunches ls := by
    induction l generalizing t with
    | nil => exact ht
    | cons x l ih =>
      refine ih _ ?_
      obtain ⟨ls, rfl⟩ := ht
      dsimp only
      split
      · exact ⟨_, rfl⟩
      · exact ⟨ls, rfl⟩
  obtain ⟨ls, h⟩ := hfold s.dev.launches _ s ⟨s.dev.launches, rfl⟩
  have h' : s.noteExpired = s.withLaunches ls := h
  rw [State.noteTurn, h']
  exact ⟨_, rfl⟩

end Sys2Proof.Machine
end

section
/-! One step (01 R26, R28): an engine's turn runs what its next lane decodes to, and what passes with time. -/

namespace Sys2Proof.Machine

open Sys2Proof Host

/-! ### The turn that is laid down -/

theorem step_of_agenda {s : State} {x : Turn} {rest : List Turn} (h : s.agenda = x :: rest) :
    step s = State.take { s with agenda := rest } x := by
  have hp : s.pickTurn = (x, { s with agenda := rest }) := by unfold State.pickTurn; rw [h]
  rw [step, hp]

theorem State.take_event (s : State) (i : Instr) : s.take (.event i) = State.afterTurn (exec i s) := by
  delta State.take; dsimp only
theorem State.take_upset (s : State) (u : Upset) : s.take (.upset u) = .next (s.upset u).noteTurn := rfl
theorem State.take_tick (s : State) (n : Nat) : s.take (.tick n) = .next (s.elapse n).noteTurn := rfl
theorem State.take_lane {s t : State} {c : Nat} {e : Engine} {i : Instr} (h : s.laneTurn c e = .run i t) :
    s.take (.lane c e) = State.afterTurn (exec i t) := by
  delta State.take; dsimp only; rw [h]

/-! ### An engine's turn -/

/-- An engine that can move, in a known line whose words it has, comes to the next lane of its own. -/
theorem State.engineTurn_eq_reachLane {s t : State} {e : Engine} {ln : LineInst} {ws : List Nat} {l : LaneText}
    (hm : s.canMove e = true) (hl : s.u.line? (s.u.eng e).serial = some ln) (hk : (s.u.eng e).skip = none)
    (hf : (ln.held = some ws ∧ t = s) ∨ (ln.held = none ∧ s.fetchLine ln.addr = .ok (t, ws)))
    (hn : (t.lanesIn ln e).find? (fun x => decide ((s.u.eng e).lane ≤ x.n)) = some l) :
    s.engineTurn e = t.reachLane e ln ws l := by
  unfold State.engineTurn
  rcases hf with ⟨hh, rfl⟩ | ⟨hh, hf⟩
  · simp only [hm, hl, hh, hk, hn, Bool.not_true, Bool.false_eq_true, if_false]
  · simp only [hm, hl, hh, hf, hk, hn, Bool.not_true, Bool.false_eq_true, if_false]

/-- A lane that may begin, in a line that passes its check, runs what it decodes to (05 R154, R183; 02 R48). -/
theorem State.reachLane_eq_run {t v w : State} {e : Engine} {ln : LineInst} {ws : List Nat} {l : LaneText} {i : Instr} {m : Mods}
    {idx : List Nat} (hs : t.outOfShadow e ln (t.u.eng e).serial l.n = true) (hi : l.issue ln.iter = some idx)
    (hd : decodeInstr e l.exts l.word = .ok (i, m))
    (hv : (t.moveTo e (t.u.eng e).serial l.n [] (t.passesSwitch e ln ws l.n)).moveTo e (t.u.eng e).serial l.n idx false = v)
    (hr : v.mayReach e ln ws l = true) (hb : v.mayBegin e l.n i = true) (hc : lineCause ln ws = none)
    (hw : (if ln.checked then v else v.markLine e) = w) (hm : modsLevelBad m ln.iter = false)
    (hframe : e = .c → w.frameCause i = none) : t.reachLane e ln ws l = .run i w := by
  have hcause : (if e == .c then w.frameCause i else none) = none := by
    split
    · next h => exact hframe (by simpa using h)
    · rfl
  unfold State.reachLane
  simp only [hs, hi, hd, hv, hr, hb, hc, hw, hm, hcause, Bool.not_true, Bool.and_true, Bool.false_eq_true, if_false]

/-! ### Time (20 R516, log 6) -/

/-- What the passing of time may change beside the clocks: holds that have lasted too long end, and CONFTIME follows. -/
theorem State.expireHolds_clocks (s : State) :
    s.expireHolds.cur = s.cur ∧ s.expireHolds.dev.now = s.dev.now ∧ s.expireHolds.dev.cyc = s.dev.cyc := by
  let clocks (t : State) : Nat × Nat × Sparse Nat := (t.cur, t.dev.now, t.dev.cyc)
  have h : clocks s.expireHolds = clocks s := by
    unfold State.expireHolds
    dsimp only
    have hfold := foldl_keeps clocks (f := fun t (x : Nat × Lantern) =>
      if ((List.range 4).filter fun q => (x.2.quad q).overdue (s.cycOn (x.1 / 16))).length = 0 then t
      else (((t.setLanternAt x.1 { (x.2.mapQuads fun _ d => if d.overdue (s.cycOn (x.1 / 16)) then d.passes else d) with rotWant := none }).addHealth
        (x.1 / 16) 1 ((List.range 4).filter fun q => (x.2.quad q).overdue (s.cycOn (x.1 / 16))).length).arbiterPass x.1))
      (fun t x => by
        dsimp only
        split
        · rfl
        · simp only [clocks, State.arbiterPass_cur, State.arbiterPass_dev]; rfl) s.lanterns s
    split
    · exact hfold
    · exact hfold
  exact ⟨congrArg Prod.fst h, congrArg (fun c => c.2.1) h, congrArg (fun c => c.2.2) h⟩

/-- No quadrant is held by the rotation: no hold ends. -/
theorem State.expireHolds_of_no_hold {s : State} (h : ∀ x ∈ s.lanterns, ∀ q, q < 4 → (x.2.quad q).held = false) :
    s.expireHolds = s := by
  have hover (x : Nat × Lantern) (hx : x ∈ s.lanterns) (q : Nat) (hq : q ∈ List.range 4) (c : Nat) : (x.2.quad q).overdue c = false := by
    rw [Quad.overdue, h x hx q (List.mem_range.1 hq)]; rfl
  have hdue : (s.lanterns.any fun x => (List.range 4).any fun q => (x.2.quad q).overdue (s.cycOn (x.1 / 16))) = false := by
    rw [List.any_eq_false]
    intro x hx
    rw [Bool.not_eq_true, List.any_eq_false]
    intro q hq
    rw [hover x hx q hq]; exact Bool.false_ne_true
  unfold State.expireHolds
  dsimp only
  rw [hdue, if_neg Bool.false_ne_true]
  refine List.foldlRecOn (motive := fun t => t = s) _ _ rfl fun t ht x hx => ?_
  rw [if_pos, ht]
  rw [List.length_eq_zero_iff, List.filter_eq_nil_iff]
  intro q hq
  rw [hover x hx q hq]; exact Bool.false_ne_true

/-- Set device time and the cycles of the dies. -/
def State.withClocks (s : State) (cyc : Sparse Nat) (now : Nat) : State := { s with dev := { s.dev with cyc := cyc, now := now } }

theorem State.elapse_eq (s : State) (n : Nat) :
    s.elapse n = (s.withClocks ((List.range 8).foldl (fun m k =>
      Sparse.set 0 m k (Sparse.get 0 m k + n * 1000000 * s.clockOf k / s.clockOf (dieOf s.cur))) s.dev.cyc)
      (s.dev.now + n * 1000000 / s.clockOf (dieOf s.cur))).expireHolds := rfl

/-- The end of holds leaves the clocks as they were set. -/
theorem State.clocks_of_expireHolds {s t : State} {cyc : Sparse Nat} {now : Nat} (h : t = (s.withClocks cyc now).expireHolds) :
    t.cur = s.cur ∧ t.dev.now = now ∧ t.dev.cyc = cyc := h ▸ State.expireHolds_clocks (s.withClocks cyc now)

/-- With no hold to end, the clocks alone have been set. -/
theorem State.frame_of_expireHolds {s t : State} {cyc : Sparse Nat} {now : Nat} (h : t = (s.withClocks cyc now).expireHolds)
    (hq : ∀ x ∈ s.lanterns, ∀ q, q < 4 → (x.2.quad q).held = false) :
    t.cores = s.cores ∧ t.lanterns = s.lanterns ∧ t.dev.m = s.dev.m := by
  rw [h, State.expireHolds_of_no_hold (s := s.withClocks cyc now) hq]
  exact ⟨rfl, rfl, rfl⟩

/-- Every die's count grows by its own number. -/
theorem get_foldl_add (c : Nat → Nat) (m : Sparse Nat) {k : Nat} (hk : k < 8) :
    Sparse.get 0 ((List.range 8).foldl (fun m k => Sparse.set 0 m k (Sparse.get 0 m k + c k)) m) k = Sparse.get 0 m k + c k :=
  (foldl_range_pointwise (fun m k => Sparse.get 0 m k) (fun k x => x + c k) (fun _ => True) (fun _ _ _ => trivial)
    (fun _ _ _ => Sparse.get_set_same ..) (fun _ _ _ h => Sparse.get_set_ne _ _ _ h) trivial 8 k).trans (if_pos hk)

/-- The clocks of the dies after `n` cycles of the die in focus. -/
theorem State.elapse_cyc (s : State) (n : Nat) {k : Nat} (hk : k < 8) :
    Sparse.get 0 (s.elapse n).dev.cyc k =
      Sparse.get 0 s.dev.cyc k + n * 1000000 * s.clockOf k / s.clockOf (dieOf s.cur) := by
  rw [(State.clocks_of_expireHolds (s.elapse_eq n)).2.2]
  exact get_foldl_add (fun k => n * 1000000 * s.clockOf k / s.clockOf (dieOf s.cur)) s.dev.cyc hk

theorem State.elapse_now (s : State) (n : Nat) : (s.elapse n).dev.now = s.dev.now + n * 1000000 / s.clockOf (dieOf s.cur) :=
  (State.clocks_of_expireHolds (s.elapse_eq n)).2.1

@[simp] theorem State.elapse_cur (s : State) (n : Nat) : (s.elapse n).cur = s.cur := (State.clocks_of_expireHolds (s.elapse_eq n)).1

/-- Where nothing is held by the rotation, time passes on the clocks alone. -/
theorem State.elapse_of_no_hold {s : State} (n : Nat) (h : ∀ x ∈ s.lanterns, ∀ q, q < 4 → (x.2.quad q).held = false) :
    (s.elapse n).cores = s.cores ∧ (s.elapse n).lanterns = s.lanterns ∧ (s.elapse n).dev.m = s.dev.m :=
  State.frame_of_expireHolds (s.elapse_eq n) h

theorem dieOf_lt {n : Nat} (h : n < 520) : dieOf n < 8 := by unfold dieOf; split <;> omega

/-- `n` cycles of a core's die add `n` to its cycle count. -/
theorem State.elapse_cycles {s : State} (n : Nat) (hc : s.cur < 520) (hf : 0 < s.clockOf (dieOf s.cur)) :
    (s.elapse n).cyc = s.cyc + n := by
  unfold State.cyc State.cycOf State.cycOn
  rw [State.elapse_cur, State.elapse_cyc s n (dieOf_lt hc), Nat.mul_div_cancel _ hf]
  exact Nat.add_mul_div_right _ _ (by decide)

theorem State.clockOf_agenda (s : State) (rest : List Turn) (k : Nat) : State.clockOf { s with agenda := rest } k = s.clockOf k := rfl

/-- A turn of time: what has passed, and what has not changed. -/
theorem step_tick {s : State} {n : Nat} {rest : List Turn} (h : s.agenda = .tick n :: rest) :
    ∃ t : State, step s = .next t ∧ t.dev.now = s.dev.now + n * 1000000 / s.clockOf (dieOf s.cur) ∧
      (∀ k, k < 8 → Sparse.get 0 t.dev.cyc k =
        Sparse.get 0 s.dev.cyc k + n * 1000000 * s.clockOf k / s.clockOf (dieOf s.cur)) ∧
      (s.cur < 520 → 0 < s.clockOf (dieOf s.cur) → t.cyc = s.cyc + n) ∧
      ((∀ x ∈ s.lanterns, ∀ q, q < 4 → (x.2.quad q).held = false) →
        t.cores = s.cores ∧ t.lanterns = s.lanterns ∧ t.dev.m = s.dev.m) := by
  obtain ⟨ls, hls⟩ := (State.elapse { s with agenda := rest } n).noteTurn_eq_withLaunches
  refine ⟨_, ((step_of_agenda h).trans (State.take_tick ..)).trans (congrArg Outcome.next hls), ?_, ?_, ?_, ?_⟩
  · simpa only [State.clockOf_agenda, State.withLaunches_now, State.withLaunches_cyc] using State.elapse_now { s with agenda := rest } n
  · exact fun k hk => by simpa only [State.clockOf_agenda, State.withLaunches_now, State.withLaunches_cyc] using State.elapse_cyc { s with agenda := rest } n hk
  · exact fun hc hf => State.elapse_cycles (s := { s with agenda := rest }) n hc hf
  · exact fun hq => State.elapse_of_no_hold (s := { s with agenda := rest }) n hq

/-- Settles O58: a turn is taken from the agenda, and an engine's comes to its lane, which runs. -/
theorem stepRunsDecodedInstruction : Obligations.StepRunsDecodedInstruction := by
  unfold Obligations.StepRunsDecodedInstruction
  refine ⟨?_, ?_, ?_, ?_, fun t => rfl, fun f => rfl⟩
  · intro s t core e rest ln ws l i m idx hag a b p hm hl hk hf hn r hs hi hd v hr hb hc w hv hframe
    have hturn : State.laneTurn { s with agenda := rest } core e = .run i w :=
      (State.engineTurn_eq_reachLane hm hl hk hf hn).trans (State.reachLane_eq_run hs hi hd rfl hr hb hc rfl hv hframe)
    exact (step_of_agenda hag).trans (State.take_lane hturn)
  · exact fun s i rest h => (step_of_agenda h).trans (State.take_event ..)
  · exact fun s n rest h => step_tick h
  · exact fun s u rest h => (step_of_agenda h).trans (State.take_upset ..)

end Sys2Proof.Machine
end

section
/-! Start-up (16 R424, R426, R454; 20 R502, R517-R519): power-on and reset, the boot length, and the start of the firmware. -/

namespace Sys2Proof.Machine

open Sys2Proof Host

/-! ### Power-on and reset -/

/-- A core that no unit holds, with an empty scratchpad. -/
def Core.Cold (c : Core) : Prop := c.c = SegC.reset ∧ c.sys.saved = none ∧ c.spad = []

/-- After a cold reset every core is cold (20 R518). -/
theorem State.coldReset_cold (s : State) (n : Nat) : (s.coldReset.coreAt n).Cold := by
  suffices h : ∀ n, (Sparse.get Core.reset (s.cores.foldl (fun m x => Sparse.set Core.reset m x.1 x.2.cold) []) n).Cold from h n
  refine List.foldlRecOn (motive := fun m => ∀ n, (Sparse.get Core.reset m n).Cold) _ _ (fun n => ⟨rfl, rfl, rfl⟩) ?_
  intro m hm x _ n
  rw [Sparse.get_set]
  split
  · exact ⟨rfl, rfl, rfl⟩
  · exact hm n

/-- Power-on, and a reset of a powered device, take the cold reset. -/
theorem exec_coldReset {s : State} {reset : Bool} (h : reset = false ∨ s.dev.powered = true) :
    exec (if reset then .deviceReset else .powerOn) s = .next s.coldReset := by
  cases reset with
  | false => rfl
  | true =>
    show execDeviceReset s = _
    rw [execDeviceReset, if_pos (h.resolve_left (by decide))]; rfl

theorem execDeviceReset_unpowered {s : State} (h : s.dev.powered = false) : execDeviceReset s = .next s := by
  rw [execDeviceReset, h]; rfl

/-! ### The boot length -/

theorem State.bootCode_le (s : State) (n : Nat) : s.bootCode n ≤ 3 := by
  unfold State.bootCode
  repeat' split
  all_goals decide

/-- A boot length taken while the state word reads 0 (16 R424, 20 R518). -/
theorem State.boot_effect {s : State} (n : Nat) (h : s.dev.stateWord = 0) :
    (s.boot n).dev.port.bootLen = n ∧ (s.boot n).dev.port.bootErr ≤ 3 ∧ (s.boot n).dev.stateWord = 0 ∧
      (s.boot n).dev.m = s.dev.m ∧ (s.boot n).cores = s.cores := by
  rw [State.boot, if_neg (not_not_intro h)]
  exact ⟨rfl, s.bootCode_le n, h, rfl, rfl⟩

@[simp] theorem length_natLe (n v : Nat) : (natLe n v).length = n := by
  induction n generalizing v with
  | zero => rfl
  | succ n ih => exact congrArg (· + 1) (ih _)

/-- The low bytes of a number, read back. -/
theorem leNat_natLe (n v : Nat) : leNat (natLe n v) = v % 2 ^ (8 * n) := by
  induction n generalizing v with
  | zero => exact (Nat.mod_one v).symm
  | succ n ih =>
    rw [natLe, leNat, ih, BitVec.toNat_ofNat, Nat.mul_add, Nat.mul_one, Nat.add_comm (8 * n), Nat.pow_add]
    exact (Nat.mod_mul ..).symm

theorem leNat_natLe_word (v : BitVec 32) : leNat (natLe 4 v.toNat) = v.toNat := by
  rw [leNat_natLe]; exact Nat.mod_eq_of_lt v.isLt

theorem execBootLengthWrite_reached {s : State} (v : BitVec 32) (h : s.hostReaches = true) :
    execBootLengthWrite v s = .next (s.boot v.toNat) := by rw [execBootLengthWrite, if_pos h]; rfl

theorem execBar0Write_bootLength {s : State} (v : BitVec 32) (h : s.hostReaches = true) :
    execBar0Write 0x1004 (natLe 4 v.toNat) s = .next (s.boot v.toNat) := by
  rw [execBar0Write, h, if_neg (by decide), if_pos ⟨rfl, length_natLe ..⟩, leNat_natLe_word]; rfl

theorem execBar0Write_other {s : State} {off : Nat} {data : Bytes} (h : s.hostReaches = true) (hd : off ≠ 0x1004 ∨ data.length ≠ 4) :
    execBar0Write off data s = .next s.hostError := by
  rw [execBar0Write, h, if_neg (by decide), if_neg (not_and_of_not_or_not hd)]; rfl

/-! ### The start-up pass of the rotation (20 R519) -/

/-- What the start of the firmware sets up front and reads on the way: the anchor, the host port, the number of the start and the
time. -/
def State.bootView (s : State) : Nat × Port × Nat × Nat := (s.dev.anchor, s.dev.port, s.dev.fresh, s.dev.now)

theorem State.bootView_eq_iff {s t : State} : s.bootView = t.bootView ↔
    s.dev.anchor = t.dev.anchor ∧ s.dev.port = t.dev.port ∧ s.dev.fresh = t.dev.fresh ∧ s.dev.now = t.dev.now := by
  simp [State.bootView]

theorem State.anchorWrite_bootView (s : State) (off : Nat) (bs : Bytes) : (s.anchorWrite off bs).bootView = s.bootView := rfl
theorem State.writeInventory_bootView (s : State) : s.writeInventory.bootView = s.bootView := State.anchorWrite_bootView ..

theorem State.flushReports_keeps (s : State) : s.flushReports.cores = s.cores ∧ s.flushReports.bootView = s.bootView := by
  have h : (fun t : State => (t.cores, t.bootView)) s.flushReports = (s.cores, s.bootView) := by
    unfold State.flushReports
    dsimp only
    split
    · rfl
    · refine foldl_keeps (fun t : State => (t.cores, t.bootView)) ?_ s.dev.rot.reports s
      exact fun _ _ => rfl
  exact ⟨congrArg Prod.fst h, congrArg Prod.snd h⟩

theorem State.report_keeps (s : State) (passed : Nat) (b : Bytes) :
    (s.report passed b).cores = s.cores ∧ (s.report passed b).bootView = s.bootView := State.flushReports_keeps _

/-- A core after its test of the start-up pass. -/
def Core.firstTested (c : Core) (pass : Bool) (now : Nat) : Core :=
  if !c.sys.enabled || c.sys.fenced then c
  else if pass then { c with sys := { c.sys with passed := now } } else { c with sys := { c.sys with fenced := true } }

theorem Core.firstTested_tvec (c : Core) (pass : Bool) (now : Nat) : (c.firstTested pass now).sys.tr = c.sys.tr := by
  unfold Core.firstTested; repeat' split
  all_goals rfl

/-- An enabled core that is not fenced passes now, or is fenced. -/
theorem Core.firstTested_result {c : Core} (pass : Bool) (now : Nat) (he : c.sys.enabled = true) (hf : c.sys.fenced = false) :
    (c.firstTested pass now).sys.fenced = !pass ∧ (pass = true → (c.firstTested pass now).sys.passed = now) := by
  unfold Core.firstTested
  rw [he, hf, if_neg (by decide)]
  cases pass with
  | true => exact ⟨hf, fun _ => rfl⟩
  | false => exact ⟨rfl, fun h => absurd h (by decide)⟩

/-- A core's test changes that core alone. -/
theorem State.firstTestCore_effect (s : State) (n : Nat) :
    (s.firstTestCore n).coreAt n = (s.coreAt n).firstTested (Config.startTest s.dev.fresh n) s.dev.now ∧
    (∀ k, k ≠ n → (s.firstTestCore n).coreAt k = s.coreAt k) ∧ (s.firstTestCore n).bootView = s.bootView := by
  unfold State.firstTestCore Core.firstTested
  dsimp only
  split
  · exact ⟨rfl, fun _ _ => rfl, rfl⟩
  · split
    · exact ⟨State.coreAt_setCoreAt .., fun k hk => State.coreAt_setCoreAt_ne s _ hk, rfl⟩
    · obtain ⟨hcores, hview⟩ := State.report_keeps
        ((s.setCoreAt n { s.coreAt n with sys := { (s.coreAt n).sys with fenced := true } }).addHealth (n / 64) 2 1)
        (s.coreAt n).sys.passed (faultReport 1 n (s.coreAt n).sys.used (s.coreAt n).sys.passed s.dev.now)
      refine ⟨?_, fun k hk => ?_, hview⟩
      · rw [State.coreAt, hcores]; exact State.coreAt_setCoreAt ..
      · rw [State.coreAt, hcores]; exact State.coreAt_setCoreAt_ne s _ hk

theorem State.firstTestQuad_keeps (s : State) (k : Nat) :
    (s.firstTestQuad k).cores = s.cores ∧ (s.firstTestQuad k).bootView = s.bootView := by
  unfold State.firstTestQuad
  dsimp only
  repeat' split
  · exact ⟨rfl, rfl⟩
  · exact ⟨rfl, rfl⟩
  · exact State.report_keeps ..

/-- The tests of all cores. -/
def State.testCores (s : State) : State := (List.range 512).foldl State.firstTestCore s
/-- The tests of all quadrants. -/
def State.testQuads (s : State) : State := (List.range 512).foldl State.firstTestQuad s

theorem State.testCores_coreAt (s : State) (n : Nat) :
    s.testCores.coreAt n =
      if n < 512 then (s.coreAt n).firstTested (Config.startTest s.dev.fresh n) s.dev.now else s.coreAt n := by
  exact foldl_range_pointwise State.coreAt (step := State.firstTestCore)
    (fun n c => c.firstTested (Config.startTest s.dev.fresh n) s.dev.now) (fun t => t.bootView = s.bootView)
    (fun t n h => (t.firstTestCore_effect n).2.2.trans h)
    (fun t n h => by
      obtain ⟨-, -, hfresh, hnow⟩ := State.bootView_eq_iff.1 h
      rw [(t.firstTestCore_effect n).1, hfresh, hnow])
    (fun t n k h => (t.firstTestCore_effect n).2.1 k h) (t := s) rfl 512 n

theorem State.testCores_bootView (s : State) : s.testCores.bootView = s.bootView :=
  foldl_keeps State.bootView (f := State.firstTestCore) (fun t n => (t.firstTestCore_effect n).2.2) _ s

theorem State.testQuads_cores (s : State) : s.testQuads.cores = s.cores :=
  foldl_keeps State.cores (f := State.firstTestQuad) (fun t k => (t.firstTestQuad_keeps k).1) _ s

theorem State.testQuads_bootView (s : State) : s.testQuads.bootView = s.bootView :=
  foldl_keeps State.bootView (f := State.firstTestQuad) (fun t k => (t.firstTestQuad_keeps k).2) _ s

/-- The end of the pass. -/
def State.endPass (s : State) : State := s.modDev fun d => { d with rot := { d.rot with conf := d.now }, fresh := d.fresh + 1 }

@[simp] theorem State.endPass_cores (s : State) : s.endPass.cores = s.cores := rfl
@[simp] theorem State.endPass_anchor (s : State) : s.endPass.dev.anchor = s.dev.anchor := rfl
@[simp] theorem State.endPass_port (s : State) : s.endPass.dev.port = s.dev.port := rfl

theorem State.firstPass_eq (s : State) : s.firstPass = s.testCores.testQuads.endPass := rfl

/-- The start-up pass tests every core once, in the start whose number it reads. -/
theorem State.firstPass_coreAt (s : State) (n : Nat) :
    s.firstPass.coreAt n =
      if n < 512 then (s.coreAt n).firstTested (Config.startTest s.dev.fresh n) s.dev.now else s.coreAt n := by
  rw [State.coreAt, State.firstPass_eq, State.endPass_cores, State.testQuads_cores]
  exact s.testCores_coreAt n

theorem State.firstPass_port (s : State) : s.firstPass.dev.anchor = s.dev.anchor ∧ s.firstPass.dev.port = s.dev.port := by
  have hview : s.testCores.testQuads.bootView = s.bootView := (State.testQuads_bootView _).trans s.testCores_bootView
  obtain ⟨hanchor, hport, -⟩ := State.bootView_eq_iff.1 hview
  rw [State.firstPass_eq, State.endPass_anchor, State.endPass_port]
  exact ⟨hanchor, hport⟩

/-! ### The handler entries and the dispatch program -/

/-- A core with its handler entry. -/
def Core.withTvec (v : Word) (c : Core) : Core :=
  { c with sys := { c.sys with tr := { c.sys.tr with tvec := BitVec.ofNat 64 (v.toNat % 2 ^ 56 / 32 * 32) } } }

theorem State.setTvec_eq (s : State) (v : Word) :
    s.setTvec v = (List.range 520).foldl (fun t n => t.setCoreAt n ((t.coreAt n).withTvec v)) s := rfl

theorem State.setTvec_coreAt (s : State) (v : Word) {n : Nat} (h : n < 520) : (s.setTvec v).coreAt n = (s.coreAt n).withTvec v := by
  rw [State.setTvec_eq, foldl_range_pointwise State.coreAt (fun _ c => c.withTvec v) (fun _ => True) (fun _ _ _ => trivial)
    (fun _ _ _ => State.coreAt_setCoreAt ..) (fun t _ _ h => State.coreAt_setCoreAt_ne t _ h) trivial, if_pos h]

theorem State.setTvec_dev (s : State) (v : Word) : (s.setTvec v).dev = s.dev := by
  rw [State.setTvec_eq, foldl_keeps State.dev]
  exact fun _ _ => rfl

/-- A lamplighter on which the dispatch program starts. -/
def Core.dispatching (c : Core) : Core :=
  let off : EngPos := { EngPos.start with ended := true }
  { c.clear with c := { c.clear.c with busy := true, u := { UnitCtx.reset with
    front := .line (Config.dispatchEntry / 32 * 32) false none, eA := off, eV := off, eM := off, eX := off } } }

theorem State.startDispatch_eq (s : State) (n : Nat) : s.startDispatch n = s.setCoreAt n (s.coreAt n).dispatching := rfl

/-- The dispatch program on the lamplighters of all dies. -/
def State.startDispatches (s : State) : State := (List.range 8).foldl (fun u d => u.startDispatch (512 + d)) s

theorem State.startDispatches_lamp (s : State) {d : Nat} (h : d < 8) :
    s.startDispatches.coreAt (512 + d) = (s.coreAt (512 + d)).dispatching := by
  rw [State.startDispatches, foldl_range_pointwise (fun t d => State.coreAt t (512 + d)) (fun _ c => c.dispatching) (fun _ => True)
    (fun _ _ _ => trivial) (fun t d _ => by rw [State.startDispatch_eq, State.coreAt_setCoreAt])
    (fun t d k h => by rw [State.startDispatch_eq, State.coreAt_setCoreAt_ne t _ (by omega)]) trivial, if_pos h]

theorem State.startDispatches_core (s : State) {n : Nat} (h : n < 512) : s.startDispatches.coreAt n = s.coreAt n := by
  rw [State.startDispatches, foldl_keeps (fun t => State.coreAt t n)]
  intro t d
  rw [State.startDispatch_eq, State.coreAt_setCoreAt_ne t _ (by omega)]

theorem State.startDispatches_dev (s : State) : s.startDispatches.dev = s.dev := by
  rw [State.startDispatches, foldl_keeps State.dev]
  exact fun _ _ => rfl

/-! ### FIRMWARE_START -/

/-- The state up to the first pass: the anchor block reserved, slice 0 mapped, the inventory written, the handler entries set. -/
def State.beforePass (s : State) (anchor : Nat) (tvec : Word) : State :=
  (State.writeInventory (s.modDev fun d => { d with
    anchor := anchor
    port := { d.port with slices := Sparse.set none d.port.slices 0 (some (anchor / 2 ^ 30 * 2 ^ 30, .firmware)) } })).setTvec tvec

theorem State.beforePass_coreAt (s : State) (anchor : Nat) (tvec : Word) {n : Nat} (h : n < 520) :
    (s.beforePass anchor tvec).coreAt n = (s.coreAt n).withTvec tvec := by
  rw [State.beforePass, State.setTvec_coreAt _ _ h, State.writeInventory_coreAt, State.modDev_coreAt]

theorem State.beforePass_dev (s : State) (anchor : Nat) (tvec : Word) :
    (s.beforePass anchor tvec).dev.anchor = anchor ∧
    Sparse.get none (s.beforePass anchor tvec).dev.port.slices 0 = some (anchor / 2 ^ 30 * 2 ^ 30, KeyId.firmware) ∧
    (s.beforePass anchor tvec).dev.fresh = s.dev.fresh ∧ (s.beforePass anchor tvec).dev.now = s.dev.now := by
  obtain ⟨hanchor, hport, hfresh, hnow⟩ := State.bootView_eq_iff.1 (State.writeInventory_bootView (s.modDev fun d => { d with
    anchor := anchor
    port := { d.port with slices := Sparse.set none d.port.slices 0 (some (anchor / 2 ^ 30 * 2 ^ 30, .firmware)) } }))
  rw [State.beforePass, State.setTvec_dev, hanchor, hport, hfresh, hnow]
  dsimp only [State.modDev_dev]
  exact ⟨rfl, Sparse.get_set_same .., rfl, rfl⟩

/-- Firmware runs: the state word is 1. -/
def State.inFirmware (s : State) : State := s.modDev fun d => { d with stateWord := 1 }

@[simp] theorem State.inFirmware_coreAt (s : State) (n : Nat) : s.inFirmware.coreAt n = s.coreAt n := rfl
@[simp] theorem State.inFirmware_stateWord (s : State) : s.inFirmware.dev.stateWord = 1 := rfl
@[simp] theorem State.inFirmware_anchor (s : State) : s.inFirmware.dev.anchor = s.dev.anchor := rfl
@[simp] theorem State.inFirmware_port (s : State) : s.inFirmware.dev.port = s.dev.port := rfl

/-- The machine after FIRMWARE_START. -/
def State.firmwareRuns (s : State) (anchor : Nat) (tvec : Word) : State :=
  (s.beforePass anchor tvec).firstPass.writeInventory.inFirmware.startDispatches

theorem execFirmwareStart_booted {s : State} (anchor : Nat) (tvec : Word) (h : s.booted = true) :
    execFirmwareStart anchor tvec s = .next (s.firmwareRuns anchor tvec) := by rw [execFirmwareStart, if_pos h]; rfl

theorem State.firmwareRuns_core (s : State) (anchor : Nat) (tvec : Word) {n : Nat} (h : n < 512) :
    (s.firmwareRuns anchor tvec).coreAt n =
      ((s.coreAt n).withTvec tvec).firstTested (Config.startTest s.dev.fresh n) s.dev.now := by
  obtain ⟨-, -, hfresh, hnow⟩ := s.beforePass_dev anchor tvec
  rw [State.firmwareRuns, State.startDispatches_core _ h, State.inFirmware_coreAt, State.writeInventory_coreAt, State.firstPass_coreAt, if_pos h, hfresh, hnow, State.beforePass_coreAt s anchor tvec (by omega)]

theorem State.firmwareRuns_lamp (s : State) (anchor : Nat) (tvec : Word) {d : Nat} (h : d < 8) :
    (s.firmwareRuns anchor tvec).coreAt (512 + d) = ((s.coreAt (512 + d)).withTvec tvec).dispatching := by
  rw [State.firmwareRuns, State.startDispatches_lamp _ h, State.inFirmware_coreAt, State.writeInventory_coreAt, State.firstPass_coreAt,
    if_neg (by omega), State.beforePass_coreAt s anchor tvec (by omega)]

theorem State.firmwareRuns_tvec (s : State) (anchor : Nat) (tvec : Word) {n : Nat} (h : n < 520) :
    ((s.firmwareRuns anchor tvec).coreAt n).sys.tr.tvec = BitVec.ofNat 64 (tvec.toNat % 2 ^ 56 / 32 * 32) := by
  rcases Nat.lt_or_ge n 512 with hn | hn
  · rw [State.firmwareRuns_core s anchor tvec hn, Core.firstTested_tvec]; rfl
  · obtain ⟨d, rfl⟩ := Nat.exists_eq_add_of_le hn
    rw [State.firmwareRuns_lamp s anchor tvec (by omega)]; rfl

theorem State.firmwareRuns_dev (s : State) (anchor : Nat) (tvec : Word) :
    (s.firmwareRuns anchor tvec).dev.stateWord = 1 ∧ (s.firmwareRuns anchor tvec).dev.anchor = anchor ∧
    Sparse.get none (s.firmwareRuns anchor tvec).dev.port.slices 0 = some (anchor / 2 ^ 30 * 2 ^ 30, KeyId.firmware) := by
  obtain ⟨hanchor, hslice, -⟩ := s.beforePass_dev anchor tvec
  obtain ⟨hpassAnchor, hpassPort⟩ := (s.beforePass anchor tvec).firstPass_port
  obtain ⟨hinvAnchor, hinvPort, -⟩ := State.bootView_eq_iff.1 (s.beforePass anchor tvec).firstPass.writeInventory_bootView
  rw [State.firmwareRuns, State.startDispatches_dev, State.inFirmware_stateWord, State.inFirmware_anchor, State.inFirmware_port,
    hinvAnchor, hinvPort, hpassAnchor, hpassPort]
  exact ⟨rfl, hanchor, hslice⟩

/-- Settles O37: a cold reset leaves cold cores, and the start of the firmware is a pass over the cores, then over the lamplighters. -/
theorem startUp : Obligations.StartUp := by
  unfold Obligations.StartUp
  refine ⟨fun s h => execDeviceReset_unpowered h, ?_, ?_, ?_, ?_⟩
  · intro s reset h
    exact ⟨_, exec_coldReset h, rfl, rfl, rfl, rfl, rfl, rfl, rfl, rfl, s.coldReset_cold⟩
  · intro s v hr boots h0
    exact ⟨⟨_, execBootLengthWrite_reached v hr, State.boot_effect _ h0⟩, ⟨_, execBar0Write_bootLength v hr, State.boot_effect _ h0⟩⟩
  · intro s off data hr hd
    exact ⟨_, execBar0Write_other hr hd, rfl, rfl, rfl, rfl⟩
  · intro s anchor tvec hb
    obtain ⟨hword, hanchor, hslice⟩ := s.firmwareRuns_dev anchor tvec
    refine ⟨_, execFirmwareStart_booted anchor tvec hb, hword, hanchor, hslice, fun n hn => s.firmwareRuns_tvec anchor tvec hn, ?_, ?_⟩
    · intro n hn he hf
      rw [State.firmwareRuns_core s anchor tvec hn]
      exact Core.firstTested_result (c := (s.coreAt n).withTvec tvec) _ _ he hf
    · intro d hd
      rw [State.firmwareRuns_lamp s anchor tvec hd]
      refine ⟨rfl, rfl, rfl, rfl, rfl, fun e he => ?_⟩
      cases e with
      | c => exact absurd rfl he
      | a | v | m | x => rfl

end Sys2Proof.Machine
end

section
/-! Ending units and cancelling levels (01 R19, R20, R40; 16 R443, R446-R449): no launch is added or changed, and a core that no
unit holds stays so. -/

namespace Sys2Proof.Machine

open Sys2Proof Host

/-! ### A core without a unit -/

/-- No unit holds core `n`: the control context and the vector registers are those of a cleared core (01 R40, 02 R82). -/
def State.Vacant (s : State) (n : Nat) : Prop :=
  (s.coreAt n).c.busy = false ∧ (s.coreAt n).c.u = UnitCtx.reset ∧ (s.coreAt n).v.v = []

theorem State.Vacant.of_core {s t : State} {n : Nat} (h : s.Vacant n) (hc : t.coreAt n = s.coreAt n) : t.Vacant n := by
  unfold State.Vacant; rw [hc]; exact h

theorem State.Vacant.of_leasesOnly {s t : State} {n : Nat} (h : s.Vacant n) (hst : s.LeasesOnly t) : t.Vacant n := by
  obtain ⟨m, hm⟩ := hst.cores n
  unfold State.Vacant; rw [hm]; exact h

/-- Ending the unit of a core is clearing it; the arbiter then changes leases alone. -/
theorem State.clearCore_eq (s : State) (n : Nat) :
    ∃ ls, State.LeasesOnly { s.setCoreAt n (s.coreAt n).clear with lanterns := ls } (s.clearCore n) := by
  unfold State.clearCore
  dsimp only
  split
  · exact ⟨_, State.leasesOnly_arbiterPass _ _⟩
  · exact ⟨_, .refl _⟩

@[simp] theorem State.clearCore_dev (s : State) (n : Nat) : (s.clearCore n).dev = s.dev := by
  obtain ⟨ls, h⟩ := s.clearCore_eq n
  exact h.dev

theorem State.clearCore_vacant (s : State) (n : Nat) : (s.clearCore n).Vacant n := by
  obtain ⟨ls, h⟩ := s.clearCore_eq n
  refine State.Vacant.of_leasesOnly ?_ h
  have hc : State.coreAt { s.setCoreAt n (s.coreAt n).clear with lanterns := ls } n = (s.coreAt n).clear := State.coreAt_setCoreAt ..
  unfold State.Vacant; rw [hc]; exact ⟨rfl, rfl, rfl⟩

theorem State.Vacant.clearCore {s : State} {n : Nat} (h : s.Vacant n) (k : Nat) : (s.clearCore k).Vacant n := by
  by_cases hk : n = k
  · exact hk ▸ s.clearCore_vacant n
  · obtain ⟨ls, hl⟩ := s.clearCore_eq k
    exact State.Vacant.of_leasesOnly (s := { s.setCoreAt k (s.coreAt k).clear with lanterns := ls })
      (h.of_core (State.coreAt_setCoreAt_ne s _ hk)) hl

/-! ### Winding down -/

/-- From `s` to `t` launches have only left the scoreboard, and cores have only become vacant. -/
structure State.Winds (s t : State) : Prop where
  launches : ∀ l ∈ t.dev.launches, l ∈ s.dev.launches
  vacant : ∀ n, s.Vacant n → t.Vacant n

theorem State.Winds.refl (s : State) : s.Winds s := ⟨fun _ h => h, fun _ h => h⟩

theorem State.Winds.trans {s t u : State} (h : s.Winds t) (g : t.Winds u) : s.Winds u :=
  ⟨fun l hl => h.launches l (g.launches l hl), fun n hn => g.vacant n (h.vacant n hn)⟩

theorem State.Winds.of_eq {s t : State} (hc : t.cores = s.cores) (hl : t.dev.launches = s.dev.launches) : s.Winds t :=
  ⟨fun _ h => hl ▸ h, fun n h => h.of_core (congrArg (fun m => Sparse.get Core.reset m n) hc)⟩

theorem State.Winds.foldl {β : Type} {f : State → β → State} (hf : ∀ (t : State) b, t.Winds (f t b)) (l : List β) (s : State) :
    s.Winds (l.foldl f s) := by
  induction l generalizing s with
  | nil => exact .refl s
  | cons b l ih => exact (hf s b).trans (ih _)

/-- A change of the device that leaves the launches. -/
theorem State.Winds.modDev {s t : State} (h : s.Winds t) {f : Device → Device} (hf : (f t.dev).launches = t.dev.launches) :
    s.Winds (t.modDev f) := h.trans (.of_eq rfl hf)

theorem State.winds_clearCore (s : State) (n : Nat) : s.Winds (s.clearCore n) :=
  ⟨fun l h => by rwa [State.clearCore_dev] at h, fun k hk => hk.clearCore n⟩

/-! ### Events and records of levels -/

@[simp] theorem State.endLevel_cores (s : State) (level id parent : Nat) (ok : Bool) : (s.endLevel level id parent ok).cores = s.cores := rfl
@[simp] theorem State.endLevel_launches (s : State) (level id parent : Nat) (ok : Bool) :
    (s.endLevel level id parent ok).dev.launches = s.dev.launches := rfl
@[simp] theorem State.endLevel_m (s : State) (level id parent : Nat) (ok : Bool) : (s.endLevel level id parent ok).dev.m = s.dev.m := rfl
@[simp] theorem State.levelEvent_cores (s : State) (p q level id job st cause : Nat) :
    (s.levelEvent p q level id job st cause).cores = s.cores := rfl
@[simp] theorem State.levelEvent_launches (s : State) (p q level id job st cause : Nat) :
    (s.levelEvent p q level id job st cause).dev.launches = s.dev.launches := rfl
@[simp] theorem State.levelEvent_m (s : State) (p q level id job st cause : Nat) :
    (s.levelEvent p q level id job st cause).dev.m = s.dev.m := rfl

/-- A launch's event stands in the queues and marks alone (16 R443; 21 R522). -/
theorem State.launchEvent_keeps (s : State) (l : Launch) (status cause unit addr : Nat) :
    (s.launchEvent l status cause unit addr).cores = s.cores ∧
    (s.launchEvent l status cause unit addr).dev.launches = s.dev.launches ∧
    (s.launchEvent l status cause unit addr).dev.m = s.dev.m := by
  have hmark : (s.markLevels l).cores = s.cores ∧ (s.markLevels l).dev.launches = s.dev.launches ∧ (s.markLevels l).dev.m = s.dev.m := by
    unfold State.markLevels
    split
    · exact ⟨rfl, rfl, rfl⟩
    · exact ⟨rfl, rfl, rfl⟩
  exact hmark

theorem State.winds_launchEvent (s : State) (l : Launch) (status cause unit addr : Nat) :
    s.Winds (s.launchEvent l status cause unit addr) :=
  .of_eq (s.launchEvent_keeps l status cause unit addr).1 (s.launchEvent_keeps l status cause unit addr).2.1

theorem State.winds_endLevel (s : State) (level id parent : Nat) (ok : Bool) : s.Winds (s.endLevel level id parent ok) := .of_eq rfl rfl

/-! ### Stopping and cancelling launches (01 R19) -/

theorem State.winds_dropSaves (s : State) (lid : Nat) : s.Winds (s.dropSaves lid) := by
  unfold State.dropSaves
  refine State.Winds.modDev (.foldl (fun t x => ?_) _ s) rfl
  split
  · exact .of_eq rfl rfl
  · exact .refl t

theorem State.winds_stopUnits (s : State) (l : Launch) : s.Winds (s.stopUnits l) := by
  unfold State.stopUnits
  refine State.Winds.modDev (.trans (.foldl (fun t n => ?_) _ s) (State.winds_dropSaves _ _)) rfl
  split
  · exact State.winds_clearCore t n
  · exact .refl t

theorem State.mem_dropLaunch {s : State} {lid : Nat} {x : Launch} :
    x ∈ (s.dropLaunch lid).dev.launches ↔ x ∈ s.dev.launches ∧ x.lid ≠ lid := by
  rw [State.dropLaunch, State.modDev_dev]
  simp [List.mem_filter]

theorem State.winds_dropLaunch (s : State) (lid : Nat) : s.Winds (s.dropLaunch lid) :=
  ⟨fun _ h => (State.mem_dropLaunch.1 h).1, fun _ h => h⟩

theorem State.cancelLaunch_of_live {l : Launch} (h : l.expired = none) (s : State) (cause : Nat) :
    s.cancelLaunch l cause = (((s.stopUnits l).launchEvent l 1 cause 0xFFFFFFFF 0).dropLaunch l.lid).endLevel 1 l.lid l.gid false := by
  rw [State.cancelLaunch, h]; rfl

theorem State.winds_cancelLaunch (s : State) (l : Launch) (cause : Nat) : s.Winds (s.cancelLaunch l cause) := by
  cases h : l.expired with
  | some x => rw [State.cancelLaunch, h]; exact .refl s
  | none =>
    rw [State.cancelLaunch_of_live h]
    exact (((State.winds_stopUnits s l).trans (State.winds_launchEvent ..)).trans (State.winds_dropLaunch ..)).trans
      (State.winds_endLevel ..)

/-- A cancelled launch leaves the scoreboard. -/
theorem State.cancelLaunch_drops {s : State} {l x : Launch} {cause : Nat} (h : l.expired = none)
    (hx : x ∈ (s.cancelLaunch l cause).dev.launches) : x.lid ≠ l.lid := by
  rw [State.cancelLaunch_of_live h, State.endLevel_launches, State.mem_dropLaunch] at hx
  exact hx.2

theorem State.winds_cancelWhere (s : State) (f : Launch → Bool) (cause : Nat) : s.Winds (s.cancelWhere f cause) :=
  .foldl (fun t l => t.winds_cancelLaunch l cause) _ s

/-- Of the launches that are cancelled, only those whose snuffer has run out are left (21 R520). -/
theorem State.cancelWhere_drops {s : State} {f : Launch → Bool} {cause : Nat} {x : Launch}
    (hx : x ∈ (s.cancelWhere f cause).dev.launches) : f x = false ∨ x.expired.isSome = true := by
  have hgone (ls : List Launch) (t : State) (l : Launch) (hl : l ∈ ls) (h : l.expired = none)
      (hx : x ∈ (ls.foldl (fun t l => t.cancelLaunch l cause) t).dev.launches) : x.lid ≠ l.lid := by
    induction ls generalizing t with
    | nil => cases hl
    | cons k ls ih =>
      rcases List.mem_cons.1 hl with rfl | hl
      · exact State.cancelLaunch_drops h ((State.Winds.foldl (fun t l => t.winds_cancelLaunch l cause) ls _).launches x hx)
      · exact ih _ hl hx
  cases hf : f x with
  | false => exact .inl rfl
  | true =>
    cases he : x.expired with
    | some e => exact .inr rfl
    | none =>
      have hmem : x ∈ s.dev.launches.filter f := List.mem_filter.2 ⟨(s.winds_cancelWhere f cause).launches x hx, hf⟩
      exact absurd rfl (hgone _ s x hmem he hx)

/-! ### Cancelling levels (01 R20) -/

theorem State.winds_cancelRecord (s : State) (x : LevelSize) (job parent cause : Nat) : s.Winds (s.cancelRecord x job parent cause) := by
  unfold State.cancelRecord
  repeat' split
  · exact .refl s
  · exact .of_eq rfl rfl
  · exact .of_eq rfl rfl

/-- Levels on record are cancelled one after another. -/
theorem State.winds_cancelRecords (s : State) (xs : List LevelSize) (job parent cause : Nat) :
    s.Winds (xs.foldl (fun t x => t.cancelRecord x job parent cause) s) :=
  .foldl (fun t x => t.winds_cancelRecord x job parent cause) xs s

theorem State.winds_cancelGraph_from (s : State) (gid cause : Nat) :
    (s.cancelWhere (fun l => l.gid == gid) cause).Winds (s.cancelGraph gid cause) := by
  unfold State.cancelGraph
  exact State.winds_cancelRecords ..

theorem State.winds_cancelPhase_from (s : State) (pid cause : Nat) :
    (s.cancelWhere (fun l => l.pid == pid) cause).Winds (s.cancelPhase pid cause) := by
  unfold State.cancelPhase
  exact (State.winds_cancelRecords ..).trans (State.winds_cancelRecords ..)

/-- The launches of a job are cancelled after its phases, and then the job. -/
theorem State.cancelJob_eq (s : State) (job cause : Nat) : ∃ ps xs : List LevelSize,
    s.cancelJob job cause = xs.foldl (fun t x => t.cancelRecord x job 0 cause)
      ((ps.foldl (fun t x => t.cancelPhase x.id cause) s).cancelWhere (fun l => l.jobid == job) cause) := ⟨_, _, rfl⟩

theorem State.winds_cancelGraph (s : State) (gid cause : Nat) : s.Winds (s.cancelGraph gid cause) :=
  (s.winds_cancelWhere _ cause).trans (s.winds_cancelGraph_from gid cause)

theorem State.winds_cancelPhase (s : State) (pid cause : Nat) : s.Winds (s.cancelPhase pid cause) :=
  (s.winds_cancelWhere _ cause).trans (s.winds_cancelPhase_from pid cause)

/-- Phases are cancelled one after another. -/
theorem State.winds_cancelPhases (s : State) (ps : List LevelSize) (cause : Nat) :
    s.Winds (ps.foldl (fun t x => t.cancelPhase x.id cause) s) := by
  refine State.Winds.foldl (fun t x => ?_) ps s
  exact t.winds_cancelPhase x.id cause

theorem State.winds_cancelJob (s : State) (job cause : Nat) : s.Winds (s.cancelJob job cause) := by
  obtain ⟨ps, xs, h⟩ := s.cancelJob_eq job cause
  rw [h]
  exact ((s.winds_cancelPhases ps cause).trans (State.winds_cancelWhere _ _ cause)).trans (State.winds_cancelRecords _ xs job 0 cause)

theorem State.cancelJob_drops {s : State} {job cause : Nat} {x : Launch} (hx : x ∈ (s.cancelJob job cause).dev.launches) :
    (x.jobid == job) = false ∨ x.expired.isSome = true := by
  obtain ⟨ps, xs, h⟩ := s.cancelJob_eq job cause
  rw [h] at hx
  exact State.cancelWhere_drops (f := fun l => l.jobid == job) ((State.winds_cancelRecords _ xs job 0 cause).launches x hx)

theorem State.cancelPhase_drops {s : State} {pid cause : Nat} {x : Launch} (hx : x ∈ (s.cancelPhase pid cause).dev.launches) :
    (x.pid == pid) = false ∨ x.expired.isSome = true :=
  State.cancelWhere_drops (f := fun l => l.pid == pid) ((s.winds_cancelPhase_from pid cause).launches x hx)

theorem State.cancelGraph_drops {s : State} {gid cause : Nat} {x : Launch} (hx : x ∈ (s.cancelGraph gid cause).dev.launches) :
    (x.gid == gid) = false ∨ x.expired.isSome = true :=
  State.cancelWhere_drops (f := fun l => l.gid == gid) ((s.winds_cancelGraph_from gid cause).launches x hx)

theorem State.cancelLevel_launch (s : State) (id cause : Nat) : s.cancelLevel 1 id cause = s.cancelWhere (fun l => l.lid == id) cause := rfl
theorem State.cancelLevel_graph (s : State) (id cause : Nat) : s.cancelLevel 2 id cause = s.cancelGraph id cause := rfl
theorem State.cancelLevel_phase (s : State) (id cause : Nat) :
    s.cancelLevel 3 id cause = (s.cancelPhase id cause).cancelJob (id / 2 ^ 32) cause := rfl
theorem State.cancelLevel_job (s : State) {level : Nat} (id cause : Nat) (h1 : level ≠ 1) (h2 : level ≠ 2) (h3 : level ≠ 3) :
    s.cancelLevel level id cause = s.cancelJob id cause := by
  unfold State.cancelLevel
  split
  · exact absurd rfl h1
  · exact absurd rfl h2
  · exact absurd rfl h3
  · rfl

theorem State.winds_cancelLevel (s : State) (level id cause : Nat) : s.Winds (s.cancelLevel level id cause) := by
  by_cases h1 : level = 1
  · rw [h1, State.cancelLevel_launch]; exact s.winds_cancelWhere _ cause
  by_cases h2 : level = 2
  · rw [h2, State.cancelLevel_graph]; exact s.winds_cancelGraph id cause
  by_cases h3 : level = 3
  · rw [h3, State.cancelLevel_phase]; exact (s.winds_cancelPhase id cause).trans (State.winds_cancelJob ..)
  · rw [State.cancelLevel_job s id cause h1 h2 h3]; exact s.winds_cancelJob id cause

/-- The levels in which a launch stands (06 R239). -/
theorem Launch.inLevel_cases (l : Launch) (level id : Nat) :
    (level = 1 ∧ l.inLevel level id = (l.lid == id)) ∨ (level = 2 ∧ l.inLevel level id = (l.gid == id)) ∨
    (level = 3 ∧ l.inLevel level id = (l.pid == id)) ∨ (level = 4 ∧ l.inLevel level id = (l.jobid == id)) ∨
    l.inLevel level id = false := by
  unfold Launch.inLevel
  split
  · exact .inl ⟨rfl, rfl⟩
  · exact .inr (.inl ⟨rfl, rfl⟩)
  · exact .inr (.inr (.inl ⟨rfl, rfl⟩))
  · exact .inr (.inr (.inr (.inl ⟨rfl, rfl⟩)))
  · exact .inr (.inr (.inr (.inr rfl)))

/-- Of a cancelled level no launch is left but one whose snuffer has run out (01 R19, R20; 21 R520). -/
theorem State.cancelLevel_drops {s : State} {level id cause : Nat} {x : Launch}
    (hx : x ∈ (s.cancelLevel level id cause).dev.launches) : x.inLevel level id = false ∨ x.expired.isSome = true := by
  rcases x.inLevel_cases level id with ⟨hlevel, heq⟩ | ⟨hlevel, heq⟩ | ⟨hlevel, heq⟩ | ⟨hlevel, heq⟩ | heq
  all_goals rw [heq]
  · rw [hlevel, State.cancelLevel_launch] at hx
    exact State.cancelWhere_drops (f := fun l => l.lid == id) hx
  · rw [hlevel, State.cancelLevel_graph] at hx
    exact State.cancelGraph_drops hx
  · rw [hlevel, State.cancelLevel_phase] at hx
    exact State.cancelPhase_drops ((State.winds_cancelJob ..).launches x hx)
  · rw [hlevel, State.cancelLevel_job s id cause (by decide) (by decide) (by decide)] at hx
    exact State.cancelJob_drops hx
  · exact .inl rfl

end Sys2Proof.Machine
end

section
/-! KISSUE, SXFER and CANCEL of the lamplighter (06 R238, R239; 16 R436). -/

namespace Sys2Proof.Machine

open Sys2Proof Host

/-! ### The checks of the dispatch lanes -/

theorem State.onlyPrivileged_of_world {s : State} (h : s.u.world = 15) : s.onlyPrivileged = .ok ⟨⟩ :=
  chk_of (by rw [State.privileged, h]; rfl) _

theorem State.dispatchDie_of_lamp {s : State} (h : 512 ≤ s.cur) : s.dispatchDie = .ok (s.cur - 512) := by
  rw [State.dispatchDie, chk_of (decide_eq_true h)]; rfl

theorem State.dispatchDie_of_core {s : State} (h : s.cur < 512) : s.dispatchDie = trap .dispatchCore := by
  rw [State.dispatchDie, decide_eq_false (Nat.not_le.2 h)]; rfl

/-- The operands of SXFER and CANCEL are among those of KISSUE. -/
theorem State.ReadyC.first {s : State} {s1 s2 : CSrc} {dsts : List CReg} (h : s.ReadyC [s1, s2] dsts) : s.ReadyC [s1] dsts :=
  ⟨fun f hf => h.1 f (by rw [List.mem_singleton.1 hf]; exact List.mem_cons_self), h.2⟩

section
variable {s : State} {rd : CReg} {s1 s2 : CSrc} (hw : s.u.world = 15) (hr : s.ReadyC [s1, s2] [rd])
include hw hr

/-! ### KISSUE (06 R238) -/

theorem execKissue_core (h : (s.valC s2).toNat < 2 ^ 12) (hc : s.cur < 512) :
    execKissue rd s1 s2 s = .next (s.takeTrap .c .dispatchCore 0 0 (s.laneAt .c)) := by
  unfold execKissue
  simp only [State.onlyPrivileged_of_world hw, State.useC_of_ready hr, chk_of (decide_eq_true h), State.dispatchDie_of_core hc,
    ok_bind, trap_bind, lane_trap]

/-- KISSUE on a lamplighter with a record that it can read: full, or handed over with the transfers before it. -/
theorem execKissue_lamp {t : State} {bs : Bytes} (h : (s.valC s2).toNat < 2 ^ 12) (hc : 512 ≤ s.cur)
    (hl : s.loadRange (s.valC s1).toNat 128 = .ok (t, bs)) :
    execKissue rd s1 s2 s = .next ((if 64 ≤ t.boardUsed (s.cur - 512) then t.setRd rd 1 else
      (State.takeLaunch (t.modDev fun d => { d with board := d.board.filter fun f => !(f.die == s.cur - 512 && f.lid.isNone) })
        bs (s.valC s1).toNat ((s.valC s2).toNat % 16) ((s.valC s2).toNat / 16 % 16) ((s.valC s2).toNat / 256) (s.cur - 512)
        (some ((t.dev.board.filter fun f => f.die == s.cur - 512 && f.lid.isNone).map Feed.x))).stampReady.setRd rd 0).advance .c) := by
  unfold execKissue
  simp only [State.onlyPrivileged_of_world hw, State.useC_of_ready hr, chk_of (decide_eq_true h), State.dispatchDie_of_lamp hc, hl,
    ok_bind]
  split
  · exact lane_pure ..
  · exact lane_pure ..

/-! ### SXFER (06 R238, 16 R436) -/

theorem execSxfer_core (hc : s.cur < 512) : execSxfer rd s1 s = .next (s.takeTrap .c .dispatchCore 0 0 (s.laneAt .c)) := by
  unfold execSxfer
  simp only [State.onlyPrivileged_of_world hw, State.useC_of_ready hr.first, State.dispatchDie_of_core hc, ok_bind, trap_bind, lane_trap]

/-- SXFER on a lamplighter with a descriptor that it can read: full, or put at the end of the scoreboard. -/
theorem execSxfer_lamp {t : State} {bs : Bytes} (hc : 512 ≤ s.cur) (hl : s.loadRange (s.valC s1).toNat 64 = .ok (t, bs)) :
    execSxfer rd s1 s = .next ((if 64 ≤ t.boardUsed (s.cur - 512) then t.setRd rd 1 else
      State.setRd (t.modDev fun d => { d with board := d.board ++ [⟨s.cur - 512, none,
        ⟨fieldOf bs 0 8, fieldOf bs 8 4, fieldOf bs 12 2, fieldOf bs 14 1, fieldOf bs 16 2, false⟩⟩] }) rd 0).advance .c) := by
  unfold execSxfer
  simp only [State.onlyPrivileged_of_world hw, State.useC_of_ready hr.first, State.dispatchDie_of_lamp hc, hl, ok_bind]
  split
  · exact lane_pure ..
  · exact lane_pure ..

/-! ### CANCEL (06 R239, 16 R435) -/

/-- CANCEL answers in rd, unless the unit that issues it ends with what it cancels. -/
theorem execCancel_eq (lvl : BitVec 3) :
    execCancel rd s1 lvl s = .next (
      if (s.cancel lvl.toNat (s.valC s1).toNat).1.core.c.busy = s.core.c.busy then
        ((s.cancel lvl.toNat (s.valC s1).toNat).1.stampReady.setRd rd
          (BitVec.ofNat 64 (s.cancel lvl.toNat (s.valC s1).toNat).2)).advance .c
      else (s.cancel lvl.toNat (s.valC s1).toNat).1.stampReady) := by
  unfold execCancel
  simp only [State.onlyPrivileged_of_world hw, State.useC_of_ready hr.first, ok_bind]
  have hcore (t : State) : t.stampReady.core.c.busy = t.core.c.busy := rfl
  rw [hcore]
  split
  · exact lane_ok ..
  · rfl

end

/-- The levels that CANCEL knows: with a live launch, or on record and not ended. -/
theorem State.cancel_known {s : State} {level id : Nat} (h : (∃ l ∈ s.dev.launches, l.inLevel level id = true) ∨
    ((∃ x ∈ s.dev.sizes, x.level = level ∧ x.id = id) ∧ s.dev.endedLevel level id = none)) :
    s.cancel level id = (s.cancelLevel level id 0, 0) := by
  refine if_pos ?_
  simpa [List.any_eq_true] using h

theorem State.cancel_unknown {s : State} {level id : Nat} (h : ¬((∃ l ∈ s.dev.launches, l.inLevel level id = true) ∨
    ((∃ x ∈ s.dev.sizes, x.level = level ∧ x.id = id) ∧ s.dev.endedLevel level id = none))) :
    s.cancel level id = if s.dev.endedLevel level id = some true then (s, 1) else (s, 2) := by
  refine if_neg fun hc => h ?_
  simpa [List.any_eq_true] using hc

/-- Settles O32: each lane is its equation, and a cancelled level loses its launches. -/
theorem dispatchLanes : Obligations.DispatchLanes := by
  unfold Obligations.DispatchLanes
  intro s rd s1 s2 lvl hw hr w a
  refine ⟨fun h hc => ⟨execKissue_core hw hr h hc, execSxfer_core hw hr hc⟩, fun h hc t bs hl => ⟨?_, ?_⟩,
    fun hc t bs hl => ⟨?_, ?_⟩, ?_⟩
  · intro hfull
    exact (execKissue_lamp hw hr h hc hl).trans (by rw [if_pos hfull])
  · intro hroom
    exact (execKissue_lamp hw hr h hc hl).trans (by rw [if_neg (Nat.not_le.2 hroom)])
  · intro hfull
    exact (execSxfer_lamp hw hr hc hl).trans (by rw [if_pos hfull])
  · intro hroom
    have h := execSxfer_lamp hw hr hc hl
    rw [if_neg (Nat.not_le.2 hroom)] at h
    exact ⟨_, _, h, rfl, rfl, rfl, rfl, rfl⟩
  · refine ⟨fun hb => (execCancel_eq hw hr lvl).trans (by rw [if_pos hb]), fun hb => (execCancel_eq hw hr lvl).trans (by rw [if_neg hb]),
      fun hknown => ?_, fun hunknown => ?_⟩
    · rw [State.cancel_known hknown]
      exact ⟨rfl, fun l hl => State.cancelLevel_drops hl⟩
    · rw [State.cancel_unknown hunknown]
      refine ⟨?_, fun h => by rw [if_pos h], fun h => by rw [if_neg h]⟩
      split <;> rfl

end Sys2Proof.Machine
end

section
/-! Launches from residency to their events (01 R21, R40; 16 R436-R449). -/

namespace Sys2Proof.Machine

open Sys2Proof Host

/-! ### Residency (16 R437, R438) -/

theorem execStreamResidencyComplete_next {s : State} {die i : Nat} {f : Feed} (h : s.nextXfer die = some (i, f)) :
    execStreamResidencyComplete die s =
      .next (s.modDev fun d => { d with board := d.board.set i { f with x := { f.x with resident := true } } }) := by
  rw [execStreamResidencyComplete, h]; rfl

/-! ### Which unit starts, and where (16 R439, R441) -/

theorem execUnitStart_picks {s : State} {p : Nat} {l : Launch} {u : State} (hs : s.inService = true)
    (hr : ∀ r ∈ s.dev.resetting, r.part ≠ p)
    (hp : s.stampReady.pickFirst (s.stampReady.dev.launches.filter fun l => l.part == p && !s.stampReady.dieDown (512 + l.die) &&
      s.stampReady.isReady l && (s.stampReady.startNext l).isSome) = some l)
    (hu : s.stampReady.startNext l = some u) : execUnitStart p s = .next u := by
  have hreset : (s.stampReady.dev.resetting.any fun r => r.part == p) = false := by
    rw [List.any_eq_false]
    intro r h
    simpa using hr r h
  have hservice : s.stampReady.inService = true := hs
  have hstart : s.stampReady.startable p = s.stampReady.dev.launches.filter fun l => l.part == p &&
      !s.stampReady.dieDown (512 + l.die) && s.stampReady.isReady l && (s.stampReady.startNext l).isSome := by
    rw [State.startable, hservice, hreset]; rfl
  unfold execUnitStart
  dsimp only
  rw [hstart, hp, Option.bind_some, hu]
  rfl

/-- A launch that is no gang starts its lowest unit not yet placed (log 101). -/
theorem State.startNext_of_unplaced {s : State} {l : Launch} {idx : Nat} {rest : List Nat} (h : s.unplaced l = idx :: rest)
    (hg : l.gang = false) : s.startNext l = (s.placeUnit l idx).map fun t => t.logPlacement l.lid := by
  unfold State.startNext
  rw [h, hg]; rfl

theorem State.placeUnit_best {s : State} {l : Launch} (idx : Nat) (hd : l.dup = false) (hr : l.replay = none) :
    s.placeUnit l idx = (s.bestCore (s.freeCores l)).map (s.startUnit l idx 0) := by
  unfold State.placeUnit
  rw [hr, hd]; rfl

theorem State.placeUnit_replay {s : State} {l : Launch} {idx : Nat} {cores : List Nat} (hr : l.replay = some cores)
    (hf : cores.getD idx 0 ∈ s.freeCores l) : s.placeUnit l idx = some (s.startUnit l idx 0 (cores.getD idx 0)) := by
  unfold State.placeUnit
  rw [hr]
  exact if_pos (List.contains_iff_mem.2 hf)

/-- The order of R441 is linear: one that is before another is not behind it, and what is not behind goes on from core to core. -/
theorem State.better_trans {s : State} {a b c : Nat} (hab : s.better b a = false) (hbc : s.better c b = false) :
    s.better c a = false := by
  simp only [State.better, decide_eq_false_iff_not, not_or, not_and] at *
  omega

theorem State.better_total {s : State} {a b : Nat} (h : s.better a b = true) : s.better b a = false := by
  simp only [State.better, decide_eq_true_eq, decide_eq_false_iff_not, not_or, not_and] at *
  omega

theorem State.better_irrefl (s : State) (a : Nat) : s.better a a = false := by
  simp only [State.better, decide_eq_false_iff_not, not_or, not_and]
  omega

theorem State.bestCore_none {s : State} {ns : List Nat} (h : s.bestCore ns = none) : ns = [] := by
  cases ns with
  | nil => rfl
  | cons n ns =>
    unfold State.bestCore at h
    split at h
    · split at h <;> cases h
    · cases h

/-- The best core of a list is of the list, and none of the list is before it. -/
theorem State.bestCore_spec (s : State) (ns : List Nat) (n : Nat) (h : s.bestCore ns = some n) :
    n ∈ ns ∧ ∀ m ∈ ns, s.better m n = false := by
  induction ns generalizing n with
  | nil => cases h
  | cons k ns ih =>
    unfold State.bestCore at h
    cases hb : s.bestCore ns with
    | none =>
      rw [hb] at h
      cases h
      rw [State.bestCore_none hb]
      exact ⟨List.mem_singleton.2 rfl, fun m hm => by rw [List.mem_singleton.1 hm]; exact s.better_irrefl _⟩
    | some b =>
      obtain ⟨hmem, hbest⟩ := ih b hb
      rw [hb] at h
      dsimp only at h
      split at h
      · next hk =>
        cases h
        refine ⟨List.mem_cons_self, fun m hm => ?_⟩
        rcases List.mem_cons.1 hm with rfl | hm
        · exact s.better_irrefl _
        · exact State.better_trans (State.better_total hk) (hbest m hm)
      · next hk =>
        cases h
        refine ⟨List.mem_cons_of_mem _ hmem, fun m hm => ?_⟩
        rcases List.mem_cons.1 hm with rfl | hm
        · exact Bool.not_eq_true _ ▸ hk
        · exact hbest m hm

/-! ### A unit at its start (01 R21; 02 R82) -/

/-- Naming the owner of segments changes what a core holds outside them (17 R471). -/
theorem State.setOwner_core (s : State) (n mask w : Nat) :
    ((s.setOwner n mask w).coreAt n).c = (s.coreAt n).c ∧ ((s.setOwner n mask w).coreAt n).v = (s.coreAt n).v ∧
    ((s.setOwner n mask w).coreAt n).a = (s.coreAt n).a := by
  have h : ∃ own, (s.setOwner n mask w).coreAt n = { s.coreAt n with sys := { (s.coreAt n).sys with owner := own } } := by
    unfold State.setOwner State.onQuads
    dsimp only
    split
    · exact ⟨_, State.coreAt_setCoreAt ..⟩
    · exact ⟨_, State.coreAt_setCoreAt ..⟩
  obtain ⟨own, h⟩ := h
  rw [h]
  exact ⟨rfl, rfl, rfl⟩

/-- The core on which a unit has started. -/
theorem State.startUnit_core (s : State) (l : Launch) (idx run n : Nat) :
    ((s.startUnit l idx run n).coreAt n).c = ((s.coreAt n).started l n idx run).c ∧
    ((s.startUnit l idx run n).coreAt n).v = ((s.coreAt n).started l n idx run).v ∧
    ((s.startUnit l idx run n).coreAt n).a = SegA.reset := by
  obtain ⟨hc, hv, ha⟩ := State.setOwner_core (s.setCoreAt n (((s.coreAt n).started l n idx run).use l.lid)) n 0x1F l.world
  rw [State.coreAt_setCoreAt] at hc hv ha
  exact ⟨hc, hv, ha⟩

/-- x1 to x4 at unit start, and zero in the rest (01 R21). -/
theorem Launch.get_startRegs (l : Launch) (idx i : Nat) :
    Sparse.get 0 (l.startRegs idx) i =
      if i = 4 then BitVec.ofNat 64 l.lid else if i = 3 then BitVec.ofNat 64 (l.args % 2 ^ 56)
      else if i = 2 then BitVec.ofNat 64 l.n else if i = 1 then BitVec.ofNat 64 idx else 0 := by
  unfold Launch.startRegs
  simp only [List.foldl_cons, List.foldl_nil, Sparse.get_set]
  rfl

/-! ### The end of a unit (01 R40; 16 R446, R449) -/

/-- Going on to the levels that hold a completed launch puts events and records of levels on, and nothing else. -/
theorem State.completeUp_keeps (s : State) (l : Launch) :
    (s.completeUp l).cores = s.cores ∧ (s.completeUp l).dev.launches = s.dev.launches ∧ (s.completeUp l).dev.m = s.dev.m := by
  unfold State.completeUp
  dsimp only
  repeat' split
  all_goals simp only [State.endLevel_cores, State.endLevel_launches, State.endLevel_m, State.levelEvent_cores,
    State.levelEvent_launches, State.levelEvent_m, and_self]

/-- A launch is put on record as complete. -/
def State.recordComplete (s : State) (l : Launch) : State := s.modDev fun d => { d with
  ended := ⟨1, l.lid, l.gid, l.node, l.n, true⟩ :: (d.ended.filter fun e => !(e.level == 1 && e.id == l.lid && e.parent == l.gid)) }

@[simp] theorem State.recordComplete_cores (s : State) (l : Launch) : (s.recordComplete l).cores = s.cores := rfl
@[simp] theorem State.recordComplete_launches (s : State) (l : Launch) : (s.recordComplete l).dev.launches = s.dev.launches := rfl
@[simp] theorem State.recordComplete_m (s : State) (l : Launch) : (s.recordComplete l).dev.m = s.dev.m := rfl

/-- Staged writes commit, and the launch leaves the scoreboard with its event (16 R443, R446). -/
def State.commitLaunch (s : State) (l : Launch) : State :=
  ((s.modMem fun m => m.commit l.stage0).launchEvent l 0 0 0xFFFFFFFF 0).dropLaunch l.lid

@[simp] theorem State.dropLaunch_cores (s : State) (lid : Nat) : (s.dropLaunch lid).cores = s.cores := rfl
@[simp] theorem State.dropLaunch_m (s : State) (lid : Nat) : (s.dropLaunch lid).dev.m = s.dev.m := rfl

theorem State.commitLaunch_keeps (s : State) (l : Launch) :
    (s.commitLaunch l).cores = s.cores ∧ (s.commitLaunch l).dev.m = s.dev.m.commit l.stage0 := by
  obtain ⟨hcores, -, hm⟩ := State.launchEvent_keeps (s.modMem fun m => m.commit l.stage0) l 0 0 0xFFFFFFFF 0
  rw [State.commitLaunch, State.dropLaunch_cores, State.dropLaunch_m, hcores, hm]
  exact ⟨rfl, rfl⟩

theorem State.completeLaunch_eq (s : State) (l : Launch) : s.completeLaunch l =
    if (l.dup && s.dev.m.signature l.stage0 != s.dev.m.signature l.stage1) = true then
      if l.mismatch = true then
        (((s.launchEvent l 1 3 0xFFFFFFFF 0).dropLaunch l.lid).endLevel 1 l.lid l.gid false).cancelPhaseOf l 3
      else s.requeue { l with mismatch := true }
    else ((s.commitLaunch l).recordComplete l).completeUp l := rfl

/-- The end of a launch starts no unit. -/
theorem State.Vacant.completeLaunch {s : State} {n : Nat} (h : s.Vacant n) (l : Launch) : (s.completeLaunch l).Vacant n := by
  rw [State.completeLaunch_eq]
  split
  · split
    · exact ((((s.winds_launchEvent l _ _ _ _).trans (State.winds_dropLaunch ..)).trans (State.winds_endLevel ..)).trans
        (State.winds_cancelLevel ..)).vacant n h
    · exact (s.winds_stopUnits { l with mismatch := true }).vacant n h
  · refine h.of_core (congrArg (fun m => Sparse.get Core.reset m n) ?_)
    rw [(State.completeUp_keeps _ l).1, State.recordComplete_cores, (s.commitLaunch_keeps l).1]

/-- A launch that is not duplicated commits its staged writes and leaves the scoreboard (16 R446). -/
theorem State.completeLaunch_commits {s : State} {l : Launch} (h : l.dup = false) :
    (s.completeLaunch l).dev.m = s.dev.m.commit l.stage0 ∧ ∀ x ∈ (s.completeLaunch l).dev.launches, x.lid ≠ l.lid := by
  rw [State.completeLaunch_eq, h, Bool.false_and, if_neg Bool.false_ne_true]
  obtain ⟨-, hlaunches, hm⟩ := State.completeUp_keeps ((s.commitLaunch l).recordComplete l) l
  rw [hlaunches, hm, State.recordComplete_launches, State.recordComplete_m, (s.commitLaunch_keeps l).2]
  exact ⟨rfl, fun x hx => (State.mem_dropLaunch.1 hx).2⟩

/-- The launch of a run that has ended, put back on the cleared core's machine. -/
def State.unitEnded (s : State) (n : Nat) (r : Launch) : State := ((s.focus n).clearCore n).setLaunch r

theorem State.unitEnded_vacant (s : State) (n : Nat) (r : Launch) : (s.unitEnded n r).Vacant n :=
  (State.clearCore_vacant (s.focus n) n).of_core rfl

theorem execUnitEnd_none {s : State} {n : Nat} (hd : (s.focus n).unitDone = true) (hl : (s.focus n).u.lid.bind s.launch? = none) :
    execUnitEnd n s = .next ((s.focus n).clearCore n) := by
  have hl : (s.focus n).u.lid.bind (s.focus n).launch? = none := hl
  unfold execUnitEnd
  dsimp only
  rw [if_pos hd, hl]
  rfl

theorem execUnitEnd_some {s : State} {n : Nat} {l : Launch} (hd : (s.focus n).unitDone = true)
    (hl : (s.focus n).u.lid.bind s.launch? = some l) :
    execUnitEnd n s = .next (
      if ((l.endRun (s.focus n).u.idx (s.focus n).u.run n).allEnded && !s.snuffed (l.endRun (s.focus n).u.idx (s.focus n).u.run n) &&
        l.expired.isNone) = true
      then (s.unitEnded n (l.endRun (s.focus n).u.idx (s.focus n).u.run n)).completeLaunch (l.endRun (s.focus n).u.idx (s.focus n).u.run n)
      else s.unitEnded n (l.endRun (s.focus n).u.idx (s.focus n).u.run n)) := by
  have hl : (s.focus n).u.lid.bind (s.focus n).launch? = some l := hl
  unfold execUnitEnd
  dsimp only
  rw [if_pos hd, hl]
  rfl

/-- UNIT_END frees the core; the launch notes that the run has ended, and completes with its last one. -/
theorem execUnitEnd_effect {s : State} {n : Nat} (hd : (s.focus n).unitDone = true) :
    let u := (s.focus n).u
    ∃ t : State, execUnitEnd n s = .next t ∧ t.Vacant n ∧ (u.lid.bind s.launch? = none → t.dev = s.dev) ∧
      ∀ l, u.lid.bind s.launch? = some l →
        let r := l.endRun u.idx u.run n
        let c := s.unitEnded n r
        (r.allEnded = false ∨ s.snuffed r = true ∨ l.expired.isSome = true → t = c) ∧
        (r.allEnded = true → s.snuffed r = false → l.expired = none → t = c.completeLaunch r ∧
          (l.dup = false → t.dev.m = s.dev.m.commit l.stage0 ∧ ∀ x ∈ t.dev.launches, x.lid ≠ l.lid)) := by
  intro u
  cases hl : u.lid.bind s.launch? with
  | none =>
    exact ⟨_, execUnitEnd_none hd hl, State.clearCore_vacant .., fun _ => State.clearCore_dev .., fun _ h => nomatch h⟩
  | some l =>
    refine ⟨_, execUnitEnd_some hd hl, ?_, (fun h => nomatch h), ?_⟩
    · split
      · exact (s.unitEnded_vacant n _).completeLaunch _
      · exact s.unitEnded_vacant n _
    · rintro l' ⟨rfl⟩ r c
      refine ⟨fun h => if_neg ?_, fun ha hs he => ?_⟩
      · simp only [Bool.and_eq_true, Bool.not_eq_true', Option.isNone_iff_eq_none]
        rintro ⟨⟨ha, hs⟩, he⟩
        rcases h with h | h | h
        · cases ha.symm.trans h
        · cases hs.symm.trans h
        · rw [he] at h; cases h
      · have hcond : ((l.endRun u.idx u.run n).allEnded && !s.snuffed (l.endRun u.idx u.run n) && l.expired.isNone) = true := by
          rw [show (l.endRun u.idx u.run n).allEnded = true from ha, show s.snuffed (l.endRun u.idx u.run n) = false from hs, he]; rfl
        rw [if_pos hcond]
        refine ⟨rfl, fun hdup => ?_⟩
        obtain ⟨hm, hgone⟩ := State.completeLaunch_commits (s := c) (l := r) hdup
        have hcm : c.dev.m = s.dev.m := show ((s.focus n).clearCore n).dev.m = s.dev.m by rw [State.clearCore_dev]; rfl
        exact ⟨hm.trans (by rw [hcm]; rfl), hgone⟩

/-! ### Bytes under a key, read back (10 R352) -/

theorem Mem.repair_keeps (m : Mem) (a n : Nat) :
    (m.repair a n).mem = m.mem ∧ (m.repair a n).key = m.key ∧ (m.repair a n).host = m.host := by
  have h : (fun m : Mem => (m.mem, m.key, m.host)) (m.repair a n) = (m.mem, m.key, m.host) := by
    unfold Mem.repair
    exact foldl_keeps (fun m : Mem => (m.mem, m.key, m.host)) (fun _ _ => by rfl) _ m
  exact ⟨congrArg Prod.fst h, congrArg (fun x => x.2.1) h, congrArg (fun x => x.2.2) h⟩

/-- The bytes that a write re-encrypts lie outside it (10 R352). -/
theorem Mem.adopt_outside {m : Mem} {g : Stage} {k : KeyId} {a n : Nat} {x : Nat × Byte} (h : x ∈ m.adopt g k a n) :
    ¬(a ≤ x.1 ∧ x.1 < a + n) := by
  unfold Mem.adopt at h
  split at h
  · cases h
  · obtain ⟨b, -, h⟩ := List.mem_flatMap.1 h
    obtain ⟨i, -, h⟩ := List.mem_filterMap.1 h
    dsimp only at h
    split at h
    · cases h
    · next hout =>
      split at h
      · cases h
      · split at h
        · cases h
        · cases h; exact hout

theorem Mem.putByte_key (m : Mem) (k : KeyId) (a : Nat) (b : Byte) : (m.putByte k a b).key = Sparse.set none m.key a (some k) := rfl

theorem Mem.putByte_key_ne (m : Mem) (k : KeyId) {a x : Nat} (b : Byte) (h : x ≠ a) :
    Sparse.get none (m.putByte k a b).key x = Sparse.get none m.key x := by
  rw [Mem.putByte_key, Sparse.get_set_ne _ _ _ h]

/-- Re-encrypting bytes leaves every other byte and its key. -/
theorem Mem.putCells_other (l : List (Nat × Byte)) (k : KeyId) {x : Nat} (h : ∀ c ∈ l, c.1 ≠ x) (m : Mem) :
    Memory.read (l.foldl (fun m c => m.putByte k c.1 c.2) m).mem x = Memory.read m.mem x ∧
    Sparse.get none (l.foldl (fun m c => m.putByte k c.1 c.2) m).key x = Sparse.get none m.key x := by
  induction l generalizing m with
  | nil => exact ⟨rfl, rfl⟩
  | cons c l ih =>
    have hc : x ≠ c.1 := (h c List.mem_cons_self).symm
    obtain ⟨hmem, hkey⟩ := ih (fun c hc => h c (List.mem_cons_of_mem _ hc)) (m.putByte k c.1 c.2)
    exact ⟨hmem.trans (Memory.read_write_ne _ _ hc), hkey.trans (m.putByte_key_ne k _ hc)⟩

theorem Mem.putRaw_key_below (bs : Bytes) (m : Mem) (k : KeyId) {a x : Nat} (h : x < a) :
    Sparse.get none (m.putRaw k a bs).key x = Sparse.get none m.key x := by
  induction bs generalizing m a with
  | nil => rfl
  | cons b bs ih => exact (ih _ (Nat.lt_succ_of_lt h)).trans (m.putByte_key_ne k b (Nat.ne_of_lt h))

/-- Written bytes stand under the key they are written with. -/
theorem Mem.putRaw_key (bs : Bytes) (m : Mem) (k : KeyId) {a x : Nat} (h : a ≤ x) (h' : x < a + bs.length) :
    Sparse.get none (m.putRaw k a bs).key x = some k := by
  induction bs generalizing m a with
  | nil => exact absurd h' (Nat.not_lt.2 h)
  | cons b bs ih =>
    rw [List.length_cons] at h'
    rcases Nat.eq_or_lt_of_le h with rfl | h
    · rw [show Mem.putRaw m k a (b :: bs) = (m.putByte k a b).putRaw k (a + 1) bs from rfl,
        Mem.putRaw_key_below bs _ k (Nat.lt_succ_self a), Mem.putByte_key, Sparse.get_set_same]
    · exact ih _ h (by omega)

/-- Bytes that all stand under the key of the reader read as they stand. -/
theorem Mem.readKey_of_key {m : Mem} {k : KeyId} {a n : Nat} (h : ∀ x, a ≤ x → x < a + n → Sparse.get none m.key x = some k) :
    m.readKey Stage.empty k a n = Memory.reads m.mem a n := by
  induction n generalizing a with
  | zero => rfl
  | succ n ih =>
    have hraw : m.raw Stage.empty a = (Memory.read m.mem a, some k) := by
      rw [← h a (Nat.le_refl a) (by omega)]; rfl
    exact List.cons_eq_cons.2 ⟨Mem.plain_same hraw, ih fun x h1 h2 => h x (by omega) (by omega)⟩

theorem Memory.reads_congr {m m' : List Cell} {a n : Nat} (h : ∀ x, a ≤ x → x < a + n → Memory.read m x = Memory.read m' x) :
    Memory.reads m a n = Memory.reads m' a n := by
  induction n generalizing a with
  | zero => rfl
  | succ n ih => exact List.cons_eq_cons.2 ⟨h a (Nat.le_refl a) (by omega), ih fun x h1 h2 => h x (by omega) (by omega)⟩

/-- What is written in place under a key reads back under it. -/
theorem Mem.readKey_put (m : Mem) (k : KeyId) (a : Nat) (bs : Bytes) : (m.put k a bs).readKey Stage.empty k a bs.length = bs := by
  have hother (x : Nat) (h1 : a ≤ x) (h2 : x < a + bs.length) := Mem.putCells_other (m.adopt Stage.empty k a bs.length) k (x := x)
    (fun c hc e => Mem.adopt_outside hc (e ▸ ⟨h1, h2⟩)) (m.putRaw k a bs)
  calc (m.put k a bs).readKey Stage.empty k a bs.length
      = Memory.reads (m.put k a bs).mem a bs.length :=
        Mem.readKey_of_key fun x h1 h2 => (hother x h1 h2).2.trans (Mem.putRaw_key bs m k h1 h2)
    _ = Memory.reads (m.putRaw k a bs).mem a bs.length := Memory.reads_congr fun x h1 h2 => (hother x h1 h2).1
    _ = bs := by rw [Mem.putRaw_mem, Memory.reads_writes]

theorem Mem.readKey_congr {m m' : Mem} (hm : m.mem = m'.mem) (hk : m.key = m'.key) (k : KeyId) (a n : Nat) :
    m.readKey Stage.empty k a n = m'.readKey Stage.empty k a n := by
  have hraw (x : Nat) : m.raw Stage.empty x = m'.raw Stage.empty x := by unfold Mem.raw; rw [hm, hk]
  have hplain (x : Nat) : m.plain Stage.empty k x = m'.plain Stage.empty k x := by
    have hover : Stage.over Stage.empty x = Stage.empty := by unfold Stage.over; split <;> rfl
    unfold Mem.plain Mem.xtsBlock
    simp only [hraw, hover]
  induction n generalizing a with
  | zero => rfl
  | succ n ih => exact List.cons_eq_cons.2 ⟨hplain a, ih _⟩

@[simp] theorem State.anchorWrite_msix (s : State) (off : Nat) (bs : Bytes) :
    (s.anchorWrite off bs).dev.port.msix = s.dev.port.msix := rfl

/-- What is written to the anchor block reads back; host memory stands as it stood. -/
theorem State.anchorWrite_effect (s : State) (off : Nat) (bs : Bytes) :
    (s.anchorWrite off bs).anchorRead off bs.length = leNat bs ∧ (s.anchorWrite off bs).dev.m.host = s.dev.m.host := by
  obtain ⟨hmem, hkey, hhost⟩ := Mem.repair_keeps (s.dev.m.put .firmware (s.dev.anchor + off) bs) (s.dev.anchor + off) bs.length
  refine ⟨congrArg leNat ?_, hhost.trans (Mem.put_keep ..).1⟩
  exact (Mem.readKey_congr hmem hkey ..).trans (Mem.readKey_put ..)

/-! ### Event records (16 R443) -/

/-- The field at the head of bytes. -/
theorem fieldOf_head (n v : Nat) (bs : Bytes) : fieldOf (natLe n v ++ bs) 0 n = v % 2 ^ (8 * n) := by
  rw [fieldOf, List.drop_zero, List.take_left' (length_natLe n v), leNat_natLe]

/-- A field beyond the first. -/
theorem fieldOf_skip {n off : Nat} (v : Nat) (bs : Bytes) (len : Nat) (h : n ≤ off) :
    fieldOf (natLe n v ++ bs) off len = fieldOf bs (off - n) len := by
  rw [fieldOf, fieldOf, List.drop_append, length_natLe, List.drop_of_length_le (by rw [length_natLe]; exact h), List.nil_append]

theorem Event.length_bytes (e : Event) (n : Nat) : (e.bytes n).length = 64 := by
  simp only [Event.bytes, List.length_append, length_natLe]

/-- The fields of an event record (16 R443). -/
theorem Event.fields (e : Event) (n : Nat) :
    let f := fieldOf (e.bytes n)
    (e.bytes n).length = 64 ∧ f 0 8 = n % 2 ^ 64 ∧ f 8 1 = e.level % 2 ^ 8 ∧ f 9 1 = e.status % 2 ^ 8 ∧ f 10 2 = e.cause % 2 ^ 16 ∧
    f 12 4 = e.count % 2 ^ 32 ∧ f 16 8 = e.id % 2 ^ 64 ∧ f 24 8 = e.jobid % 2 ^ 64 ∧ f 32 1 = e.flags % 2 ^ 8 ∧
    f 36 4 = e.unit % 2 ^ 32 ∧ f 40 8 = e.addr % 2 ^ 64 ∧ f 48 8 = e.time % 2 ^ 64 := by
  refine ⟨e.length_bytes n, ?_⟩
  unfold Event.bytes
  simp [List.append_assoc, fieldOf_head, fieldOf_skip]

/-- Where the record numbered `n` of a queue stands in host memory. -/
def State.eventPlace (s : State) (p q n : Nat) : Nat :=
  s.anchorRead (queueBlock p q + 16) 8 + 64 * ((n - 1) % max (s.anchorRead (queueBlock p q + 24) 4) 1)

/-- Host memory after the record numbered `n` of a queue is written. -/
def State.ringWritten (s : State) (p q n : Nat) (e : Event) : State :=
  s.modMem fun m => { m with host := Memory.writes m.host (s.eventPlace p q n) (e.bytes n) }

/-- The event record stands in its ring, EVTSEQ counts it, and its queue goes on (16 R443). -/
def State.eventWritten (s : State) (p q : Nat) (e : Event) (es : List Event) : State :=
  ((s.ringWritten p q ((s.queue p q).seq + 1) e).anchorWrite (queueBlock p q + 40) (natLe 8 ((s.queue p q).seq + 1))).setQueue p q
    { s.queue p q with seq := (s.queue p q).seq + 1, events := es }

@[simp] theorem State.ringWritten_cores (s : State) (p q n : Nat) (e : Event) : (s.ringWritten p q n e).cores = s.cores := rfl
@[simp] theorem State.ringWritten_msix (s : State) (p q n : Nat) (e : Event) :
    (s.ringWritten p q n e).dev.port.msix = s.dev.port.msix := rfl

theorem State.setQueue_keeps (s : State) (p q : Nat) (x : Queue) :
    (s.setQueue p q x).cores = s.cores ∧ (s.setQueue p q x).dev.m = s.dev.m ∧ (s.setQueue p q x).dev.anchor = s.dev.anchor ∧
    (s.setQueue p q x).dev.port = s.dev.port := ⟨rfl, rfl, rfl, rfl⟩

@[simp] theorem State.queue_setQueue (s : State) (p q : Nat) (x : Queue) : (s.setQueue p q x).queue p q = x := Sparse.get_set_same ..

/-- The interrupt message of a queue (16 R443). -/
def State.interrupt (s : State) (msix : Nat) : State :=
  if msix = 0xFF then s else s.modDev fun d => { d with port := { d.port with msix := d.port.msix ++ [msix] } }

theorem State.interrupt_keeps (s : State) (msix : Nat) :
    (s.interrupt msix).cores = s.cores ∧ (s.interrupt msix).dev.queues = s.dev.queues ∧ (s.interrupt msix).dev.m = s.dev.m ∧
    (s.interrupt msix).dev.anchor = s.dev.anchor ∧
    (s.interrupt msix).dev.port.msix = if msix = 0xFF then s.dev.port.msix else s.dev.port.msix ++ [msix] := by
  unfold State.interrupt
  split
  · exact ⟨rfl, rfl, rfl, rfl, rfl⟩
  · exact ⟨rfl, rfl, rfl, rfl, rfl⟩

section
variable {s : State} {p q : Nat} {e : Event} {es : List Event} (he : (s.queue p q).events = e :: es) (hs : s.inService = true)
include he hs

theorem execEventRecordWrite_poisoned (h : s.dev.m.poisoned Stage.empty (s.dev.anchor + queueBlock p q) 64 = true) :
    execEventRecordWrite p q s = .next s.deviceFault := by
  have hany : s.anyPoisoned [(s.dev.anchor + queueBlock p q, 64)] = true := by rw [State.anyPoisoned, List.any_cons, h]; rfl
  unfold execEventRecordWrite
  simp only [he, hs, hany, Bool.and_self, if_true]
  rfl

theorem execEventRecordWrite_written (hl : s.dev.port.linkUp = true)
    (h : s.dev.m.poisoned Stage.empty (s.dev.anchor + queueBlock p q) 64 = false)
    (hroom : (s.queue p q).seq + 1 - s.anchorRead (queueBlock p q + 32) 8 ≤ s.anchorRead (queueBlock p q + 24) 4) :
    execEventRecordWrite p q s = .next ((s.eventWritten p q e es).interrupt (s.queue p q).msix) := by
  have hany : s.anyPoisoned [(s.dev.anchor + queueBlock p q, 64)] = false := by rw [State.anyPoisoned, List.any_cons, h]; rfl
  unfold execEventRecordWrite
  simp only [he, hs, hl, hany, decide_eq_true hroom, Bool.and_self, Bool.and_false, Bool.false_eq_true, if_false, if_true]
  rfl

end

/-- What the write of an event record leaves. -/
theorem State.eventWritten_effect (s : State) (p q : Nat) (e : Event) (es : List Event) :
    let n := (s.queue p q).seq + 1
    let t := s.eventWritten p q e es
    (t.queue p q).seq = n ∧ (t.queue p q).events = es ∧ t.cores = s.cores ∧ t.anchorRead (queueBlock p q + 40) 8 = n % 2 ^ 64 ∧
    Memory.reads t.dev.m.host (s.eventPlace p q n) 64 = e.bytes n ∧ t.dev.port.msix = s.dev.port.msix := by
  intro n t
  have hqueue : t.queue p q = { s.queue p q with seq := n, events := es } := State.queue_setQueue ..
  obtain ⟨hcores, hm, hanchor, hport⟩ := State.setQueue_keeps
    ((s.ringWritten p q n e).anchorWrite (queueBlock p q + 40) (natLe 8 n)) p q { s.queue p q with seq := n, events := es }
  obtain ⟨hseq, hhost⟩ := (s.ringWritten p q n e).anchorWrite_effect (queueBlock p q + 40) (natLe 8 n)
  rw [length_natLe, leNat_natLe] at hseq
  refine ⟨by rw [hqueue], by rw [hqueue], ?_, ?_, ?_, ?_⟩
  · rw [show t.cores = _ from hcores, State.anchorWrite_cores, State.ringWritten_cores]
  · rw [State.anchorRead, show t.dev.m = _ from hm, show t.dev.anchor = _ from hanchor]
    exact hseq
  · rw [show t.dev.m = _ from hm, hhost, ← e.length_bytes n]
    exact Memory.reads_writes ..
  · rw [show t.dev.port = _ from hport, State.anchorWrite_msix, State.ringWritten_msix]

/-- EVENT_RECORD_WRITE with room in the ring. -/
theorem execEventRecordWrite_effect {s : State} {p q : Nat} {e : Event} {es : List Event} (he : (s.queue p q).events = e :: es)
    (hs : s.inService = true) (hl : s.dev.port.linkUp = true)
    (h : s.dev.m.poisoned Stage.empty (s.dev.anchor + queueBlock p q) 64 = false)
    (hroom : (s.queue p q).seq + 1 - s.anchorRead (queueBlock p q + 32) 8 ≤ s.anchorRead (queueBlock p q + 24) 4) :
    let n := (s.queue p q).seq + 1
    ∃ t : State, execEventRecordWrite p q s = .next t ∧ (t.queue p q).seq = n ∧ (t.queue p q).events = es ∧
      t.cores = s.cores ∧ t.anchorRead (queueBlock p q + 40) 8 = n % 2 ^ 64 ∧
      Memory.reads t.dev.m.host (s.eventPlace p q n) 64 = e.bytes n ∧
      t.dev.port.msix = if (s.queue p q).msix = 0xFF then s.dev.port.msix else s.dev.port.msix ++ [(s.queue p q).msix] := by
  obtain ⟨hseq, hevents, hcores, hread, hhost, hmsix⟩ := s.eventWritten_effect p q e es
  obtain ⟨kcores, kqueues, km, kanchor, kmsix⟩ := (s.eventWritten p q e es).interrupt_keeps (s.queue p q).msix
  refine ⟨_, execEventRecordWrite_written he hs hl h hroom, ?_, ?_, kcores.trans hcores, ?_, ?_, ?_⟩
  · rw [State.queue, kqueues]; exact hseq
  · rw [State.queue, kqueues]; exact hevents
  · rw [State.anchorRead, km, kanchor]; exact hread
  · rw [km]; exact hhost
  · rw [kmsix, hmsix]

/-! ### The statement -/

/-- A started unit's registers and parts (01 R21; 02 R82). -/
theorem State.startUnit_effect (s : State) (l : Launch) (idx run n : Nat) :
    let c := (s.startUnit l idx run n).coreAt n
    c.c.busy = true ∧ c.c.u.world = l.world ∧ c.c.u.lid = some l.lid ∧ c.c.u.front = .line l.text false none ∧
    c.c.u.log = [] ∧ c.c.u.sh.x 0 = 0 ∧ c.c.u.sh.x 1 = BitVec.ofNat 64 idx ∧ c.c.u.sh.x 2 = BitVec.ofNat 64 l.n ∧
    c.c.u.sh.x 3 = BitVec.ofNat 64 (l.args % 2 ^ 56) ∧ c.c.u.sh.x 4 = BitVec.ofNat 64 l.lid ∧
    c.c.u.sh.x 5 = 0 ∧ c.c.u.sh.x 6 = 0 ∧ c.c.u.sh.x 7 = 0 ∧
    c.c.u.sh.wb = 0 ∧ c.c.u.sh.frame = 24 ∧ c.c.f = [] ∧ c.c.k = [] ∧ c.c.u.sh.status = 0 ∧ c.v.rb = 0 ∧ c.v.v = [] ∧ c.a.q = [] := by
  intro c
  obtain ⟨hc, hv, ha⟩ := s.startUnit_core l idx run n
  have hx (i : Nat) (hi : i ≠ 0 ∧ i < 8) : c.c.u.sh.x i = Sparse.get 0 (l.startRegs idx) i := by
    rw [show c.c = _ from hc, Shared.x, if_neg hi.1, if_pos hi.2]; rfl
  rw [hx 1 (by decide), hx 2 (by decide), hx 3 (by decide), hx 4 (by decide), hx 5 (by decide), hx 6 (by decide), hx 7 (by decide)]
  simp only [Launch.get_startRegs]
  rw [show c.c = _ from hc, show c.v = _ from hv, show c.a = _ from ha]
  exact ⟨rfl, rfl, rfl, rfl, rfl, rfl, rfl, rfl, rfl, rfl, rfl, rfl, rfl, rfl, rfl, rfl, rfl, rfl, rfl, rfl, rfl⟩

/-- Settles O34, step by step in the life of a launch. -/
theorem unitsStartAndEnd : Obligations.UnitsStartAndEnd := by
  unfold Obligations.UnitsStartAndEnd
  refine ⟨?_, ?_, ?_, State.bestCore_spec, ?_, ?_, ?_, Event.fields⟩
  · intro s die i f h
    exact ⟨_, execStreamResidencyComplete_next h, rfl, rfl⟩
  · intro s p l u hs hr t hp hu
    exact execUnitStart_picks hs hr hp hu
  · intro s l idx rest h hg
    rw [State.startNext_of_unplaced h hg]
    refine ⟨fun hd hr => ?_, fun cores hr hf => ?_⟩
    · rw [State.placeUnit_best idx hd hr, Option.map_map]; rfl
    · rw [State.placeUnit_replay hr hf]; rfl
  · intro s l idx run n _
    exact s.startUnit_effect l idx run n
  · intro s n _ hd u
    obtain ⟨t, ht, ⟨hbusy, hu, hv⟩, hnone, hsome⟩ := execUnitEnd_effect hd
    exact ⟨t, ht, hbusy, hu, hv, hnone, hsome⟩
  · intro s p q e es he hs hl blk n cnt
    exact ⟨fun h => execEventRecordWrite_poisoned he hs h, fun h hroom => execEventRecordWrite_effect he hs hl h hroom⟩

end Sys2Proof.Machine
end

section
/-! Scalar registers by name (02 R46): what a name reads before and after the write of a register, what a control lane's result puts
into the text order, and that it changes nothing but the unit's context. -/

namespace Sys2Proof.Machine

open Sys2Proof Host

/-! ### The names of one window -/

@[simp] theorem Shared.x_zero (sh : Shared) : sh.x 0 = 0 := rfl

theorem Shared.x_global (sh : Shared) {i : Nat} (h1 : 1 ≤ i) (h7 : i ≤ 7) : sh.x i = Sparse.get 0 sh.xg i := by
  rw [Shared.x, if_neg (by omega), if_pos (by omega)]

theorem Shared.x_window (sh : Shared) {i : Nat} (h : 8 ≤ i) : sh.x i = Sparse.get 0 sh.xf (sh.entry i) := by
  rw [Shared.x, if_neg (by omega), if_neg (by omega)]

theorem Shared.entry_eq (sh : Shared) {i : Nat} (h : 8 ≤ i) : sh.entry i = (sh.wb.toNat + (i - 8)) % 256 := by
  rw [Shared.entry, Nat.add_sub_assoc h]

/-- The names of a window are different entries. -/
theorem Shared.entry_inj (sh : Shared) {i j : Nat} (hi : 8 ≤ i) (hi' : i < 32) (hj : 8 ≤ j) (hj' : j < 32) :
    sh.entry i = sh.entry j ↔ i = j := by
  unfold Shared.entry
  omega

/-! ### The write of a register -/

/-- The registers after the write of xi, which x0 discards. -/
def Shared.putX (sh : Shared) (i : Nat) (v : Word) : Shared := (sh.xWrite i v).elim sh sh.apply

theorem Shared.putX_zero (sh : Shared) (v : Word) : sh.putX 0 v = sh := rfl

theorem Shared.putX_global (sh : Shared) {i : Nat} (v : Word) (h1 : 1 ≤ i) (h7 : i ≤ 7) :
    sh.putX i v = { sh with xg := Sparse.set 0 sh.xg i v } := by
  rw [Shared.putX, Shared.xWrite, if_neg (by omega), if_pos (by omega)]; rfl

theorem Shared.putX_window (sh : Shared) {i : Nat} (v : Word) (h : 8 ≤ i) :
    sh.putX i v = { sh with xf := Sparse.set 0 sh.xf (sh.entry i) v } := by
  rw [Shared.putX, Shared.xWrite, if_neg (by omega), if_neg (by omega)]; rfl

theorem Shared.x_putX_global (sh : Shared) {r : Nat} (v : Word) (h1 : 1 ≤ r) (h7 : r ≤ 7) (i : Nat) :
    (sh.putX r v).x i = if i = r then v else sh.x i := by
  rw [Shared.putX_global sh v h1 h7]
  rcases Nat.lt_or_ge i 8 with hi | hi
  · rcases Nat.eq_zero_or_pos i with rfl | hpos
    · rw [if_neg (by omega)]; rfl
    · rw [Shared.x_global _ hpos (by omega), Shared.x_global sh hpos (by omega)]
      exact Sparse.get_set ..
  · rw [if_neg (by omega), Shared.x_window _ hi, Shared.x_window sh hi]; rfl

theorem Shared.x_putX_window (sh : Shared) {r i : Nat} (v : Word) (h8 : 8 ≤ r) (hr : r < 32) (hi : i < 32) :
    (sh.putX r v).x i = if i = r then v else sh.x i := by
  rw [Shared.putX_window sh v h8]
  rcases Nat.lt_or_ge i 8 with hlt | hge
  · rw [if_neg (by omega)]
    rcases Nat.eq_zero_or_pos i with rfl | hpos
    · rfl
    · rw [Shared.x_global _ hpos (by omega), Shared.x_global sh hpos (by omega)]
  · rw [Shared.x_window _ hge, Shared.x_window sh hge]
    show Sparse.get 0 (Sparse.set 0 sh.xf (sh.entry r) v) (sh.entry i) = _
    rw [Sparse.get_set]
    exact ite_congr (propext (sh.entry_inj hge hi h8 hr)) (fun _ => rfl) fun _ => rfl

/-- The written name reads the value, zero for x0, and every other name reads what it read. -/
theorem Shared.x_putX (sh : Shared) {r i : Nat} (v : Word) (hr : r < 32) (hi : i < 32) :
    (sh.putX r v).x i = if i = r ∧ i ≠ 0 then v else sh.x i := by
  rcases Nat.eq_zero_or_pos r with rfl | hpos
  · rw [if_neg fun h => h.2 h.1, Shared.putX_zero]
  · have hname : (i = r ∧ i ≠ 0) ↔ i = r := ⟨And.left, fun h => ⟨h, by omega⟩⟩
    simp only [hname]
    rcases Nat.lt_or_ge r 8 with h8 | h8
    · exact sh.x_putX_global v hpos (by omega) i
    · exact sh.x_putX_window v h8 hr hi

/-! ### The write in text order (01 R32) -/

/-- From a place behind every entry of a log, each of them takes effect. -/
theorem foldl_viewStep_of_lt {p : Nat} {l : List (Nat × SharedWrite)} (h : ∀ e ∈ l, e.1 < p) (sh : Shared) :
    l.foldl (viewStep p) sh = l.foldl (fun sh e => sh.apply e.2) sh := by
  induction l generalizing sh with
  | nil => rfl
  | cons e l ih =>
    rw [List.foldl_cons, List.foldl_cons, viewStep, if_pos (h e List.mem_cons_self)]
    exact ih (fun x hx => h x (List.mem_cons_of_mem _ hx)) _

/-- A lane behind every write sees them all. -/
theorem UnitCtx.view_eq_latest (u : UnitCtx) {p : Nat} (h : ∀ e ∈ u.log, e.1 < p) : u.view p = u.latest :=
  foldl_viewStep_of_lt h u.sh

/-- The log after the lane at place `p` has written xi. -/
def UnitCtx.logX (u : UnitCtx) (p i : Nat) (v : Word) : List (Nat × SharedWrite) :=
  ((u.view p).xWrite i v).elim u.log fun w => logInsert p w u.log

theorem UnitCtx.logX_zero (u : UnitCtx) (p : Nat) (v : Word) : u.logX p 0 v = u.log := rfl

/-- The lanes up to the one that writes see what they saw. -/
theorem UnitCtx.view_logX_of_le (u : UnitCtx) {p q : Nat} (i : Nat) (v : Word) (h : p ≤ q) :
    ({ u with log := u.logX q i v } : UnitCtx).view p = u.view p := by
  unfold UnitCtx.logX
  cases (u.view q).xWrite i v with
  | none => rfl
  | some w => exact u.view_logInsert_of_le w h

/-- When no lane from this one on has written, the next lane sees the written register on top of what this one saw. -/
theorem UnitCtx.view_logX_succ (u : UnitCtx) {p : Nat} (i : Nat) (v : Word) (h : ∀ e ∈ u.log, e.1 < p) :
    ({ u with log := u.logX p i v } : UnitCtx).view (p + 1) = (u.view p).putX i v := by
  have hnext : u.view (p + 1) = u.view p := by
    rw [u.view_eq_latest h, u.view_eq_latest fun e he => Nat.lt_succ_of_lt (h e he)]
  unfold UnitCtx.logX Shared.putX
  cases (u.view p).xWrite i v with
  | none => exact hnext
  | some w =>
    have hlast := u.view_logInsert_of_lt w (fun e he => Nat.le_of_lt (h e he)) (Nat.lt_add_one p)
    rwa [hnext] at hlast

/-! ### Steps that change the unit's context alone -/

/-- `t` differs from `s` in the control context of the core in focus and nowhere else. -/
structure State.OnlyUnit (s t : State) : Prop where
  core : t.core = { s.core with c := { s.core.c with u := t.u } }
  other : ∀ k, k ≠ s.cur → t.coreAt k = s.coreAt k
  dev : t.dev = s.dev
  lanterns : t.lanterns = s.lanterns
  cur : t.cur = s.cur
  agenda : t.agenda = s.agenda

theorem State.OnlyUnit.refl (s : State) : s.OnlyUnit s := ⟨rfl, fun _ _ => rfl, rfl, rfl, rfl, rfl⟩

theorem State.OnlyUnit.trans {s t r : State} (h : s.OnlyUnit t) (g : t.OnlyUnit r) : s.OnlyUnit r where
  core := by rw [g.core, h.core]
  other k hk := (g.other k (by rwa [h.cur])).trans (h.other k hk)
  dev := g.dev.trans h.dev
  lanterns := g.lanterns.trans h.lanterns
  cur := g.cur.trans h.cur
  agenda := g.agenda.trans h.agenda

theorem State.setU_onlyUnit (s : State) (u : UnitCtx) : s.OnlyUnit (s.setU u) where
  core := by rw [State.setU_u]; exact State.core_setCore ..
  other _ hk := State.coreAt_modC_ne s _ hk
  dev := rfl
  lanterns := rfl
  cur := rfl
  agenda := rfl

theorem State.advance_onlyUnit (s : State) (e : Engine) : s.OnlyUnit (s.advance e) := s.setU_onlyUnit _

theorem State.writeX_onlyUnit (s : State) (e : Engine) (i : Nat) (v : Word) : s.OnlyUnit (s.writeX e i v) := by
  unfold State.writeX
  cases (s.view e).xWrite i v with
  | none => exact .refl s
  | some w => exact s.setU_onlyUnit _

theorem State.setRd_onlyUnit (s : State) (rd : CReg) (v : Word) : s.OnlyUnit (s.setRd rd v) :=
  (s.writeX_onlyUnit .c rd.toNat v).trans (State.setU_onlyUnit _ _)

/-! ### A control lane's result (06 R187) -/

theorem State.writeX_u (s : State) (e : Engine) (i : Nat) (v : Word) :
    (s.writeX e i v).u = { s.u with log := s.u.logX (s.u.eng e).pos i v } := by
  unfold State.writeX UnitCtx.logX State.view
  cases (s.u.view (s.u.eng e).pos).xWrite i v with
  | none => rfl
  | some w => exact s.write_u e w

theorem State.setRd_u (s : State) (rd : CReg) (v : Word) :
    (s.setRd rd v).u =
      { s.u with log := s.u.logX (s.u.eng .c).pos rd.toNat v, latC := pushLatch s.u.latC v } := by
  rw [State.setRd, State.setU_u, State.writeX_u]

/-- The context after a control lane that completes with a result. -/
theorem State.setRd_advance_u (s : State) (rd : CReg) (v : Word) :
    ((s.setRd rd v).advance .c).u =
      { s.u with
        log := s.u.logX (s.u.eng .c).pos rd.toNat v
        latC := pushLatch s.u.latC v
        eC := { s.u.eC with lane := s.u.eC.lane + 1 } } := by
  rw [State.advance_u, State.setRd_u]; rfl

theorem State.setRd_advance_log (s : State) (rd : CReg) (v : Word) :
    ((s.setRd rd v).advance .c).u.log = s.u.logX (s.u.eng .c).pos rd.toNat v := by
  rw [State.setRd_advance_u]

/-- The next place in the text. -/
theorem State.setRd_advance_pos (s : State) (rd : CReg) (v : Word) :
    (((s.setRd rd v).advance .c).u.eng .c).pos = (s.u.eng .c).pos + 1 := by
  rw [State.setRd_advance_u]; rfl

theorem State.setRd_advance_view_of_le (s : State) (rd : CReg) (v : Word) {p : Nat} (h : p ≤ (s.u.eng .c).pos) :
    ((s.setRd rd v).advance .c).u.view p = s.u.view p := by
  rw [State.setRd_advance_u]; exact s.u.view_logX_of_le rd.toNat v h

/-- The lane after a result of `rd` sees it there. -/
theorem State.setRd_advance_view (s : State) (rd : CReg) (v : Word) (h : ∀ e ∈ s.u.log, e.1 < (s.u.eng .c).pos) :
    ((s.setRd rd v).advance .c).view .c = (s.view .c).putX rd.toNat v := by
  rw [State.view, State.setRd_advance_pos, State.setRd_advance_u]; exact s.u.view_logX_succ rd.toNat v h

/-- Settles O6: the names of a window are different registers, and the result is the last write that the next lane sees. -/
theorem resultWrite : Obligations.ResultWrite := by
  unfold Obligations.ResultWrite
  refine ⟨fun sh => ⟨sh.x_zero, fun i h1 h7 => ⟨sh.x_global h1 h7, fun b => ?_⟩, fun i h8 _ => ?_⟩, fun s rd v hlog => ?_⟩
  · rw [Shared.x_global _ h1 h7, sh.x_global h1 h7]
  · rw [sh.x_window h8, sh.entry_eq h8]
  have hview := s.setRd_advance_view rd v hlog
  have honly := (s.setRd_onlyUnit rd v).trans (State.advance_onlyUnit _ .c)
  refine ⟨fun i hi => ?_, ?_, fun h1 h7 => ?_, fun h8 => ⟨?_, fun k => ?_⟩, fun p hp => s.setRd_advance_view_of_le rd v hp,
    s.setRd_advance_pos rd v, ?_, honly.core, honly.other, honly.dev, honly.lanterns, honly.cur, honly.agenda⟩
  · rw [hview]; exact (s.view .c).x_putX v rd.isLt hi
  · rintro rfl
    exact (s.setRd_advance_log 0 v).trans (s.u.logX_zero _ v)
  · rw [hview, Shared.putX_global _ v h1 h7]
  · rw [hview, Shared.putX_window _ v h8]
  · rw [hview, Shared.putX_window _ v h8, ← Shared.entry_eq _ h8]; exact Sparse.get_set ..
  · rw [s.setRd_advance_u rd v]; rfl

end Sys2Proof.Machine
end

section
/-! What reset leaves (02 R76, R80 to R82; 17 R471; 19 R487). -/

namespace Sys2Proof.Machine

open Sys2Proof Host

@[simp] theorem State.reset_coreAt (n : Nat) : State.reset.coreAt n = Core.reset := rfl

/-- Every die starts at 1,800 MHz, and no error is counted. -/
theorem State.reset_inv : State.reset.Inv := by
  have hclock (die : Nat) : State.reset.clockOf die = 1800 := rfl
  refine ⟨Nat.zero_le _, Nat.zero_le _, fun die => ?_⟩
  rw [hclock]; decide

/-- No scalar register holds anything: neither x0, nor a global one, nor an entry of the scalar file. -/
theorem Shared.reset_x (i : Nat) : Shared.reset.x i = 0 := by
  unfold Shared.x
  split
  · rfl
  · split <;> rfl

/-- World 15 owns the segments of a core, the arbiter of its lantern and every quadrant. -/
theorem State.reset_segOwner (n b : Nat) : State.reset.segOwner n b = 15 := by
  unfold State.segOwner
  split
  · rfl
  · split <;> rfl

/-- Settles O56, piece by piece of the reset state. -/
theorem resetState : Obligations.ResetState := by
  unfold Obligations.ResetState
  refine ⟨State.reset_inv, State.reset_canonical, rfl, rfl, fun a => rfl, rfl, fun n => ?_⟩
  rw [State.reset_coreAt]
  exact ⟨Shared.reset_x, rfl, rfl, rfl, rfl, rfl, rfl, rfl, rfl, rfl, rfl, rfl, State.reset_segOwner n, rfl, rfl, rfl, rfl, rfl, rfl,
    rfl, fun _ => rfl, fun _ => rfl, fun _ => rfl, fun _ => rfl⟩

end Sys2Proof.Machine
end

section
/-! Encoding (05 R157 to R173): the encoder answers for an instruction's own engine, and the decoder reads every encoding back. -/

namespace Sys2Proof.Laws

open Sys2Proof

/-- An instruction has an encoding when it is a lane, and the encoding is one of its engine. -/
theorem encode_engine (i : Instr) : (encode i).map Enc.engine = i.engine := by
  cases i <;> rfl

/-- A step that is no lane has no encoding. -/
theorem Roundtrip.of_step {i : Instr} (h : i.engine = none) : Roundtrip.Statement i := by
  intro _ n hn
  have henc := encode_engine i
  rw [h, hn] at henc
  cases henc

/-- The decoder reads back each lane of the opcode maps (05 R180). -/
theorem Roundtrip.statement (i : Instr) : Roundtrip.Statement i := by
  cases i with
  -- every engine
  | nop e => exact Roundtrip.nop e
  | endE e => exact Roundtrip.endE e
  | finc e f n => exact Roundtrip.finc e f n
  | fwait e f sub n => exact Roundtrip.fwait e f sub n
  | fset e f n => exact Roundtrip.fset e f n
  | kwait e k n => exact Roundtrip.kwait e k n
  -- control engine
  | add rd s1 s2 => exact Roundtrip.add rd s1 s2
  | addImm rd s1 imm => exact Roundtrip.addImm rd s1 imm
  | sub rd s1 s2 => exact Roundtrip.sub rd s1 s2
  | subImm rd s1 imm => exact Roundtrip.subImm rd s1 imm
  | mul rd s1 s2 => exact Roundtrip.mul rd s1 s2
  | mulImm rd s1 imm => exact Roundtrip.mulImm rd s1 imm
  | mulhu rd s1 s2 => exact Roundtrip.mulhu rd s1 s2
  | mulhuImm rd s1 imm => exact Roundtrip.mulhuImm rd s1 imm
  | mulhs rd s1 s2 => exact Roundtrip.mulhs rd s1 s2
  | mulhsImm rd s1 imm => exact Roundtrip.mulhsImm rd s1 imm
  | divu rd s1 s2 => exact Roundtrip.divu rd s1 s2
  | divuImm rd s1 imm => exact Roundtrip.divuImm rd s1 imm
  | divs rd s1 s2 => exact Roundtrip.divs rd s1 s2
  | divsImm rd s1 imm => exact Roundtrip.divsImm rd s1 imm
  | remu rd s1 s2 => exact Roundtrip.remu rd s1 s2
  | remuImm rd s1 imm => exact Roundtrip.remuImm rd s1 imm
  | rems rd s1 s2 => exact Roundtrip.rems rd s1 s2
  | remsImm rd s1 imm => exact Roundtrip.remsImm rd s1 imm
  | and rd s1 s2 => exact Roundtrip.and rd s1 s2
  | andImm rd s1 imm => exact Roundtrip.andImm rd s1 imm
  | or rd s1 s2 => exact Roundtrip.or rd s1 s2
  | orImm rd s1 imm => exact Roundtrip.orImm rd s1 imm
  | xor rd s1 s2 => exact Roundtrip.xor rd s1 s2
  | xorImm rd s1 imm => exact Roundtrip.xorImm rd s1 imm
  | andn rd s1 s2 => exact Roundtrip.andn rd s1 s2
  | andnImm rd s1 imm => exact Roundtrip.andnImm rd s1 imm
  | shl rd s1 s2 => exact Roundtrip.shl rd s1 s2
  | shlImm rd s1 imm => exact Roundtrip.shlImm rd s1 imm
  | shr rd s1 s2 => exact Roundtrip.shr rd s1 s2
  | shrImm rd s1 imm => exact Roundtrip.shrImm rd s1 imm
  | sar rd s1 s2 => exact Roundtrip.sar rd s1 s2
  | sarImm rd s1 imm => exact Roundtrip.sarImm rd s1 imm
  | rotl rd s1 s2 => exact Roundtrip.rotl rd s1 s2
  | rotlImm rd s1 imm => exact Roundtrip.rotlImm rd s1 imm
  | min rd s1 s2 => exact Roundtrip.min rd s1 s2
  | minImm rd s1 imm => exact Roundtrip.minImm rd s1 imm
  | max rd s1 s2 => exact Roundtrip.max rd s1 s2
  | maxImm rd s1 imm => exact Roundtrip.maxImm rd s1 imm
  | minu rd s1 s2 => exact Roundtrip.minu rd s1 s2
  | minuImm rd s1 imm => exact Roundtrip.minuImm rd s1 imm
  | maxu rd s1 s2 => exact Roundtrip.maxu rd s1 s2
  | maxuImm rd s1 imm => exact Roundtrip.maxuImm rd s1 imm
  | clz rd s1 => exact Roundtrip.clz rd s1
  | ctz rd s1 => exact Roundtrip.ctz rd s1
  | popc rd s1 => exact Roundtrip.popc rd s1
  | sext rd s1 s2 => exact Roundtrip.sext rd s1 s2
  | sextImm rd s1 imm => exact Roundtrip.sextImm rd s1 imm
  | zext rd s1 s2 => exact Roundtrip.zext rd s1 s2
  | zextImm rd s1 imm => exact Roundtrip.zextImm rd s1 imm
  | sel rd s1 s2 s3 => exact Roundtrip.sel rd s1 s2 s3
  | cmp rd s1 s2 cond => exact Roundtrip.cmp rd s1 s2 cond
  | li rd imm => exact Roundtrip.li rd imm
  | b off => exact Roundtrip.b off
  | bc cond s1 s2 off => exact Roundtrip.bc cond s1 s2 off
  | br s1 => exact Roundtrip.br s1
  | call off => exact Roundtrip.call off
  | callr s1 => exact Roundtrip.callr s1
  | ret => exact Roundtrip.ret
  | frame f => exact Roundtrip.frame f
  | ld rt s1 sz sg off => exact Roundtrip.ld rt s1 sz sg off
  | st rt s1 sz off => exact Roundtrip.st rt s1 sz off
  | amoAdd rd s1 s2 scope wide => exact Roundtrip.amoAdd rd s1 s2 scope wide
  | amoAnd rd s1 s2 scope wide => exact Roundtrip.amoAnd rd s1 s2 scope wide
  | amoOr rd s1 s2 scope wide => exact Roundtrip.amoOr rd s1 s2 scope wide
  | amoXor rd s1 s2 scope wide => exact Roundtrip.amoXor rd s1 s2 scope wide
  | amoMin rd s1 s2 scope wide => exact Roundtrip.amoMin rd s1 s2 scope wide
  | amoMax rd s1 s2 scope wide => exact Roundtrip.amoMax rd s1 s2 scope wide
  | amoXch rd s1 s2 scope wide => exact Roundtrip.amoXch rd s1 s2 scope wide
  | amoCas rd s1 s2 s3 scope wide => exact Roundtrip.amoCas rd s1 s2 s3 scope wide
  | acq rd s1 s2 scope => exact Roundtrip.acq rd s1 s2 scope
  | rel rd s1 s2 scope => exact Roundtrip.rel rd s1 s2 scope
  | bind s1 s2 s3 scope => exact Roundtrip.bind s1 s2 s3 scope
  | unbind s1 s2 scope => exact Roundtrip.unbind s1 s2 scope
  | fence scope => exact Roundtrip.fence scope
  | setShape h s1 s2 s3 fmt => exact Roundtrip.setShape h s1 s2 s3 fmt
  | getShape rd h sl => exact Roundtrip.getShape rd h sl
  | thld h s1 off => exact Roundtrip.thld h s1 off
  | thst h s1 off => exact Roundtrip.thst h s1 off
  | thset h fs s1 => exact Roundtrip.thset h fs s1
  | thget rd h fs => exact Roundtrip.thget rd h fs
  | seql n s1 => exact Roundtrip.seql n s1
  | seqs n j ak s1 => exact Roundtrip.seqs n j ak s1
  | loopb lv len => exact Roundtrip.loopb lv len
  | loopc lv len s1 s2 => exact Roundtrip.loopc lv len s1 s2
  | ovw n => exact Roundtrip.ovw n
  | foot j ak s1 s2 s3 => exact Roundtrip.foot j ak s1 s2 s3
  | footv ak vs => exact Roundtrip.footv ak vs
  | region s1 s2 s3 s4 => exact Roundtrip.region s1 s2 s3 s4
  | regionEnd => exact Roundtrip.regionEnd
  | exitI => exact Roundtrip.exitI
  | yieldI => exact Roundtrip.yieldI
  | locq rd s1 => exact Roundtrip.locq rd s1
  | csrr rd csr => exact Roundtrip.csrr rd csr
  | csrw csr s1 => exact Roundtrip.csrw csr s1
  | trap s1 code => exact Roundtrip.trap s1 code
  | eret => exact Roundtrip.eret
  | waitmem rd s1 s2 scope => exact Roundtrip.waitmem rd s1 s2 scope
  | scstopCyc s1 s2 s3 => exact Roundtrip.scstopCyc s1 s2 s3
  | scstopBeat s1 s2 s3 => exact Roundtrip.scstopBeat s1 s2 s3
  | scout rd s1 s2 s3 s4 spad => exact Roundtrip.scout rd s1 s2 s3 s4 spad
  | scin rd s1 s2 s3 spad => exact Roundtrip.scin rd s1 s2 s3 spad
  | scgo s1 s2 => exact Roundtrip.scgo s1 s2
  | scown s1 s2 s3 => exact Roundtrip.scown s1 s2 s3
  | diaginjProd s1 s2 s3 => exact Roundtrip.diaginjProd s1 s2 s3
  | diaginjAcc s1 s2 s3 => exact Roundtrip.diaginjAcc s1 s2 s3
  | diaginjVreg s1 s2 s3 => exact Roundtrip.diaginjVreg s1 s2 s3
  | diaginjSpad s1 s2 s3 => exact Roundtrip.diaginjSpad s1 s2 s3
  | tlbinv kind s1 s2 => exact Roundtrip.tlbinv kind s1 s2
  | kissue rd s1 s2 => exact Roundtrip.kissue rd s1 s2
  | sxfer rd s1 => exact Roundtrip.sxfer rd s1
  | cancel rd s1 lvl => exact Roundtrip.cancel rd s1 lvl
  | frameset s1 s2 slot => exact Roundtrip.frameset s1 s2 slot
  -- access engine
  | aadd ad s1 s2 => exact Roundtrip.aadd ad s1 s2
  | aaddImm ad s1 imm => exact Roundtrip.aaddImm ad s1 imm
  | amov ad s1 => exact Roundtrip.amov ad s1
  | amovCtrl ad e1 => exact Roundtrip.amovCtrl ad e1
  | ali ad imm => exact Roundtrip.ali ad imm
  | amul ad s1 s2 => exact Roundtrip.amul ad s1 s2
  | amulImm ad s1 imm => exact Roundtrip.amulImm ad s1 imm
  | ashl ad s1 s2 => exact Roundtrip.ashl ad s1 s2
  | ashlImm ad s1 imm => exact Roundtrip.ashlImm ad s1 imm
  | aand ad s1 s2 => exact Roundtrip.aand ad s1 s2
  | aandImm ad s1 imm => exact Roundtrip.aandImm ad s1 imm
  | ard q s1 off => exact Roundtrip.ard q s1 off
  | awr q s1 off => exact Roundtrip.awr q s1 off
  | ardg q s1 qi ew => exact Roundtrip.ardg q s1 qi ew
  | awrs s1 qd qi => exact Roundtrip.awrs s1 qd qi
  | astream q n lv => exact Roundtrip.astream q n lv
  | aunbind q => exact Roundtrip.aunbind q
  | atile t s1 s2 fmt => exact Roundtrip.atile t s1 s2 fmt
  | apln td ts => exact Roundtrip.apln td ts
  | aunpln td ts rm => exact Roundtrip.aunpln td ts rm
  | acb c s1 s2 size => exact Roundtrip.acb c s1 s2 size
  | acbGet ad c => exact Roundtrip.acbGet ad c
  | acbRel c => exact Roundtrip.acbRel c
  -- vector engine
  | vadd vd vs1 vs2 rm => exact Roundtrip.vadd vd vs1 vs2 rm
  | vsub vd vs1 vs2 rm => exact Roundtrip.vsub vd vs1 vs2 rm
  | vmul vd vs1 vs2 rm => exact Roundtrip.vmul vd vs1 vs2 rm
  | vmulh vd vs1 vs2 => exact Roundtrip.vmulh vd vs1 vs2
  | vma vd vs1 vs2 rm c => exact Roundtrip.vma vd vs1 vs2 rm c
  | vdiv vd vs1 vs2 rm => exact Roundtrip.vdiv vd vs1 vs2 rm
  | vsqrt vd vs1 rm => exact Roundtrip.vsqrt vd vs1 rm
  | vmin vd vs1 vs2 => exact Roundtrip.vmin vd vs1 vs2
  | vmax vd vs1 vs2 => exact Roundtrip.vmax vd vs1 vs2
  | vabs vd vs1 => exact Roundtrip.vabs vd vs1
  | vneg vd vs1 => exact Roundtrip.vneg vd vs1
  | vshl vd vs1 vs2 => exact Roundtrip.vshl vd vs1 vs2
  | vshr vd vs1 vs2 => exact Roundtrip.vshr vd vs1 vs2
  | vsar vd vs1 vs2 => exact Roundtrip.vsar vd vs1 vs2
  | vand vd vs1 vs2 => exact Roundtrip.vand vd vs1 vs2
  | vor vd vs1 vs2 => exact Roundtrip.vor vd vs1 vs2
  | vxor vd vs1 vs2 => exact Roundtrip.vxor vd vs1 vs2
  | vnot vd vs1 => exact Roundtrip.vnot vd vs1
  | vpopc vd vs1 => exact Roundtrip.vpopc vd vs1
  | vclz vd vs1 => exact Roundtrip.vclz vd vs1
  | vexp vd vs1 rm => exact Roundtrip.vexp vd vs1 rm
  | vexp2 vd vs1 rm => exact Roundtrip.vexp2 vd vs1 rm
  | vlog vd vs1 rm => exact Roundtrip.vlog vd vs1 rm
  | vlog2 vd vs1 rm => exact Roundtrip.vlog2 vd vs1 rm
  | vsin vd vs1 rm => exact Roundtrip.vsin vd vs1 rm
  | vcos vd vs1 rm => exact Roundtrip.vcos vd vs1 rm
  | vtanh vd vs1 rm => exact Roundtrip.vtanh vd vs1 rm
  | verf vd vs1 rm => exact Roundtrip.verf vd vs1 rm
  | vrcp vd vs1 rm => exact Roundtrip.vrcp vd vs1 rm
  | vrsqrt vd vs1 rm => exact Roundtrip.vrsqrt vd vs1 rm
  | vcvt vd vs1 part t rm => exact Roundtrip.vcvt vd vs1 part t rm
  | vscale vd vs1 val => exact Roundtrip.vscale vd vs1 val
  | vscaleAdd vd vs1 val => exact Roundtrip.vscaleAdd vd vs1 val
  | vtag vd vs1 fmt => exact Roundtrip.vtag vd vs1 fmt
  | vseed xs => exact Roundtrip.vseed xs
  | vunt5 vd vs1 chk part => exact Roundtrip.vunt5 vd vs1 chk part
  | vun4o vd vs1 part t rm => exact Roundtrip.vun4o vd vs1 part t rm
  | vpk vd vs1 part t rm => exact Roundtrip.vpk vd vs1 part t rm
  | vtadd vd vs1 vs2 rm => exact Roundtrip.vtadd vd vs1 vs2 rm
  | vrsum vd vs1 rm => exact Roundtrip.vrsum vd vs1 rm
  | vrmax vd vs1 => exact Roundtrip.vrmax vd vs1
  | vrmin vd vs1 => exact Roundtrip.vrmin vd vs1
  | vshuf vd vs1 vs2 => exact Roundtrip.vshuf vd vs1 vs2
  | vslide vd vs1 s => exact Roundtrip.vslide vd vs1 s
  | vbcast vd vs1 i => exact Roundtrip.vbcast vd vs1 i
  | vsplat vd xs fmt => exact Roundtrip.vsplat vd xs fmt
  | vextr xd vs1 i => exact Roundtrip.vextr xd vs1 i
  | vmov vd vs1 => exact Roundtrip.vmov vd vs1
  | vli vd imm => exact Roundtrip.vli vd imm
  | vcmp vs1 vs2 cond => exact Roundtrip.vcmp vs1 vs2 cond
  | vminv => exact Roundtrip.vminv
  | vmpop n => exact Roundtrip.vmpop n
  | vskip off => exact Roundtrip.vskip off
  | vmget vd d => exact Roundtrip.vmget vd d
  | vpark vr => exact Roundtrip.vpark vr
  | vunpark vr => exact Roundtrip.vunpark vr
  | vpushm vf vl => exact Roundtrip.vpushm vf vl
  | vpopm vf vl => exact Roundtrip.vpopm vf vl
  | vsetsh h => exact Roundtrip.vsetsh h
  -- matrix engine
  | mlease q tok => exact Roundtrip.mlease q tok
  | mfree q tok => exact Roundtrip.mfree q tok
  | mma ta tb h rm tok => exact Roundtrip.mma ta tb h rm tok
  | mmah ta tb h rm tok which ts e1 e2 => exact Roundtrip.mmah ta tb h rm tok which ts e1 e2
  | mmack ta tb h rm tok => exact Roundtrip.mmack ta tb h rm tok
  | mmabx ta tb h tok => exact Roundtrip.mmabx ta tb h tok
  | mmaba ta tb h tok => exact Roundtrip.mmaba ta tb h tok
  | mclr h tok => exact Roundtrip.mclr h tok
  | mclrAll h tok => exact Roundtrip.mclrAll h tok
  | mldacc ta h tok => exact Roundtrip.mldacc ta h tok
  | mstacc ta h rm tok => exact Roundtrip.mstacc ta h rm tok
  | mchk ta h rm tok => exact Roundtrip.mchk ta h rm tok
  | mseed q xs tok => exact Roundtrip.mseed q xs tok
  -- copy engine
  | xcopyLd t h tok fl e1 e2 e3 e4 => exact Roundtrip.xcopyLd t h tok fl e1 e2 e3 e4
  | xcopySt t h tok fl e1 e2 e3 e4 => exact Roundtrip.xcopySt t h tok fl e1 e2 e3 e4
  | xcopySs td ts tok fl => exact Roundtrip.xcopySs td ts tok fl
  | xcopys t h tok fl e1 e2 => exact Roundtrip.xcopys t h tok fl e1 e2
  | xcb c h tok fl e1 e2 e3 e4 => exact Roundtrip.xcb c h tok fl e1 e2 e3 e4
  | xhost t dir tok fl e1 e2 e3 => exact Roundtrip.xhost t dir tok fl e1 e2 e3
  | xpeer t dir tok fl e1 => exact Roundtrip.xpeer t dir tok fl e1
  | xcoll t rm op tok fl e1 e2 => exact Roundtrip.xcoll t rm op tok fl e1 e2
  | xgath q h t tok fl e1 e2 => exact Roundtrip.xgath q h t tok fl e1 e2
  | xpf h e1 e2 e3 e4 => exact Roundtrip.xpf h e1 e2 e3 e4
  | xfence scope tok fl => exact Roundtrip.xfence scope tok fl
  -- the steps of other agents
  | _ => exact Roundtrip.of_step rfl

/-- Settles O59: the engine comes from the encoder, the operands from the lemma of each lane. -/
theorem roundTrip : Obligations.RoundTrip := by
  unfold Obligations.RoundTrip
  refine fun i => ⟨fun e he => ?_, Roundtrip.statement i⟩
  rw [← encode_engine i] at he
  exact Option.map_eq_some_iff.1 he

/-- Settles O57: each word is read by the decoder of its engine. -/
theorem decodedWords : Obligations.DecodedWords := by
  unfold Obligations.DecodedWords
  exact ⟨rfl, rfl, rfl, rfl, rfl, rfl, rfl, rfl, rfl, rfl, rfl, rfl, rfl, rfl, rfl, rfl⟩

end Sys2Proof.Laws
end

section
/-! The checks of a control lane's registers that fail (05 R183, 02 R48). -/

namespace Sys2Proof.Machine

open Sys2Proof Host

theorem State.latchFilled_eq_false {s : State} {f : CSrc} :
    s.latchFilled f = false ↔ 32 ≤ f.toNat ∧ s.u.latC.length ≤ f.toNat - 32 := by
  simp [State.latchFilled, isLatch]

theorem Shared.inFrame_eq_false {sh : Shared} {i : Nat} : sh.inFrame i = false ↔ 8 + sh.frame ≤ i := by
  simp [Shared.inFrame]

/-- A source that names no latch must lie in the frame. -/
theorem latchOrInFrame_eq_false {sh : Shared} {f : CSrc} :
    (isLatch f || sh.inFrame f.toNat) = false ↔ f.toNat < 32 ∧ 8 + sh.frame ≤ f.toNat := by
  simp [isLatch, Shared.inFrame_eq_false]

/-- The latches are looked at first, whatever the frame. -/
theorem State.useC_latchEmpty {s : State} {srcs : List CSrc} (dsts : List CReg)
    (h : ∃ f ∈ srcs, 32 ≤ f.toNat ∧ s.u.latC.length ≤ f.toNat - 32) : s.useC srcs dsts = trap .latchEmpty := by
  have hempty : srcs.all s.latchFilled = false := by
    simpa only [List.all_eq_false, Bool.not_eq_true, State.latchFilled_eq_false] using h
  unfold State.useC
  rw [hempty, chk_false, trap_bind]

/-- With every latch filled, a name outside the frame is found among the sources and the destinations alike. -/
theorem State.useC_frameBounds {s : State} {srcs : List CSrc} {dsts : List CReg}
    (hl : ∀ f ∈ srcs, ¬(32 ≤ f.toNat ∧ s.u.latC.length ≤ f.toNat - 32))
    (h : (∃ f ∈ srcs, f.toNat < 32 ∧ 8 + (s.view .c).frame ≤ f.toNat) ∨ ∃ d ∈ dsts, 8 + (s.view .c).frame ≤ d.toNat) :
    s.useC srcs dsts = trap .frameBounds := by
  have hfilled : srcs.all s.latchFilled = true := List.all_eq_true.2 fun f hf => by
    rw [← Bool.not_eq_false, State.latchFilled_eq_false]
    exact hl f hf
  have hout : ((srcs.all fun f => isLatch f || (s.view .c).inFrame f.toNat) && dsts.all fun d => (s.view .c).inFrame d.toNat) = false := by
    simpa only [Bool.and_eq_false_iff, List.all_eq_false, Bool.not_eq_true, latchOrInFrame_eq_false, Shared.inFrame_eq_false] using h
  unfold State.useC
  rw [hfilled, chk_true, ok_bind, hout, chk_false]

/-- A two-source lane takes the trap of its registers' checks. -/
theorem lane_aluReg_trap {s : State} {rd : CReg} {s1 s2 : CSrc} {c : Cause} (f : Word → Word → Word)
    (h : s.useC [s1, s2] [rd] = trap c) : lane .c s (aluReg rd s1 s2 f s) = .next (s.takeTrap .c c 0 0 (s.laneAt .c)) := by
  unfold aluReg
  rw [h, trap_bind, lane_trap]

/-- Settles O5: ADD takes the trap of the first of its registers' checks that fails. -/
theorem controlOperandTraps : Obligations.ControlOperandTraps := by
  unfold Obligations.ControlOperandTraps
  intro s rd s1 s2 empty outside
  refine ⟨fun h => lane_aluReg_trap _ (State.useC_latchEmpty _ ?_), fun h1 h2 h => lane_aluReg_trap _ (State.useC_frameBounds ?_ ?_)⟩
  · simpa only [List.mem_cons, List.not_mem_nil, or_false, exists_eq_or_imp, exists_eq_left] using h
  · simpa only [List.forall_mem_cons, List.not_mem_nil, false_implies, implies_true, and_true] using And.intro h1 h2
  · simpa only [List.mem_cons, List.not_mem_nil, or_false, exists_eq_or_imp, exists_eq_left, or_assoc] using h

end Sys2Proof.Machine
end
